-- ==== Sys2Proof/Word.lean ====
section
/-! DEFINITION. The words of the TG4816 (spec/11_frame_and_record_layouts.md): the bytes that frames and records
are made of, and the 16-bit check word. Everything else in this hardware is a number with a stated range
(a circuit, a time, an amount), and is a `Nat`. -/

namespace Sys2Proof

/-- One byte of a frame or record (R196). -/
abbrev Byte := BitVec 8

/-- The check value of a frame (R196). -/
abbrev CheckWord := BitVec 16

end Sys2Proof
end

