-- ==== Sys2Proof/Config.lean ====
section
/-! DEFINITION. What is fixed for the machine: the capacities of spec/00_scope.md section 6 (IDENTIFY returns
them, R194), the fixed intervals of the chapters, and the FREE VALUES: constants with no body, one for each value
the spec gives a place but does not state. Nothing can be proved of a free value. -/

namespace Sys2Proof.Config

/-- R129: monotonic time is 48 bits wide. -/
def timeLimit : Nat := 281474976710656
/-- R164, R168: an accumulator field saturates at 2^48 - 1. -/
def fieldMax : Nat := 281474976710655
/-- R132, R174: the largest cap and the largest exposure limit, 2^40 - 1 su. -/
def capMax : Nat := 1099511627775
/-- R132: the largest setup fee and rate, 2^24 - 1. -/
def rateMax : Nat := 16777215
/-- R130: one week in ms. -/
def week : Nat := 604800000
/-- R130: one day in ms. -/
def day : Nat := 86400000
/-- R130: one half-hour slot in ms. -/
def slotMs : Nat := 1800000
/-- R142: a jump of half a week or more is backward. -/
def halfWeek : Nat := 302400000

/-- Section 6 of the overview. -/
def circuits : Nat := 16384
/-- Section 6 of the overview. -/
def groups : Nat := 256
/-- Section 6 of the overview. -/
def carriers : Nat := 64
/-- Section 6 of the overview. -/
def slots : Nat := 8192
/-- Section 6 of the overview. -/
def destinations : Nat := 2048
/-- R48: the prefix table holds at most 4,096 entries. -/
def prefixes : Nat := 4096
/-- R56: the gap table holds at most 64 entries. -/
def gaps : Nat := 64
/-- R63: plans 0 to 1,023. -/
def plans : Nat := 1024
/-- R88: 256 sets of 4 ways. -/
def memorySets : Nat := 256
/-- R33, R34: a drain batch holds at most 32 members. -/
def batchMembers : Nat := 32
/-- R36: the join window in ms. -/
def joinWindow : Nat := 2000
/-- R132: tariff classes 0 to 7. -/
def tariffClasses : Nat := 8
/-- R164: 64 x 64 pairs. -/
def pairs : Nat := 4096
/-- R170: the settlement queue holds at most 4,096 records. -/
def settlementQueue : Nat := 4096
/-- R170: the backlog level rises at this length. -/
def backlogRise : Nat := 3072
/-- R170: the backlog level falls at this length. -/
def backlogFall : Nat := 2048
/-- R180: a request queue holds 0 to 16 requests. -/
def requestQueue : Nat := 16
/-- R180: a notice queue holds 0 to 64 notices. -/
def noticeQueue : Nat := 64
/-- R180: the drop count saturates at 65,535. -/
def dropMax : Nat := 65535
/-- R56: the refused count of a gap saturates at 2^32 - 1. -/
def refusedMax : Nat := 4294967295
/-- R181: 20 ms without a valid frame is link loss. -/
def linkLossMs : Nat := 20
/-- R171, R172: a fetch block is 1 to 64 records. -/
def fetchBlock : Nat := 64

/-- The table of capacities that IDENTIFY returns (R194; overview section 6): one list for each row of the table, in its
order, with every figure of the row from left to right. -/
def capacities : List (List Nat) :=
  [[4], [requestQueue], [noticeQueue], [circuits, 0, 16383], [groups, 0, 255, 1, 4], [carriers, 0, 63], [slots, 0, 8191],
   [1, 24], [destinations, 0, 2047], [prefixes, 1, 16], [gaps], [plans, 0, 1023, 1, 8], [memorySets, 4, 1024],
   [1, batchMembers], [carriers, tariffClasses, 512], [4], [2, 48], [3, 0, 65535], [carriers, carriers, pairs],
   [settlementQueue], [1, fetchBlock]]

/-- FREE VALUE (notes/assumptions/1.md): the revision code of the device, 0 to 255; R194 gives it a place in the
response to IDENTIFY and states no value. -/
opaque revision : BitVec 8

/-- FREE VALUE (notes/assumptions/2.md): the 48-bit monotonic time after a tick that finds the count full (R129
states no result there). The argument is the state's count of free values drawn so far. -/
opaque timeAfterFull : Nat → BitVec 48

/-- FREE VALUE (notes/assumptions/3.md): the 4 bytes that the call record shows as the remaining orphan time when the
deadline has passed and its expiry has not been taken yet (R126 and R197 state no value below 0). The argument is by
how many ms it has passed. -/
opaque overdueField : Nat → BitVec 32

end Sys2Proof.Config
end

