-- ==== Sys2Proof/Syntax.lean ====
section
/-! DEFINITION. The commands of the TG4816, whole: one constructor of `Instr` for each row of spec/opcode_table.json,
with the parameters that the row's rule names, and the named values those parameters take (spec/00_scope.md section 7,
chapter 11). A REQUEST carries the port it comes in on and its tag (R185); an EVENT carries what it happens to.

Numbers are `Nat`, so that a number outside its range can be sent and is refused or clamped as its rule says. A named
value is an `Arg`: it may be absent, or carry a code that chapter 11 does not define (R196). -/

namespace Sys2Proof

/-- The four control ports. -/
inductive Port where
  | a | b | c | d
  deriving DecidableEq, Repr

/-- A named parameter as a request carries it. -/
inductive Arg (α : Type) where
  /-- The parameter is missing from the request (for a partner: "none"). -/
  | absent
  /-- The request carries a code that is not defined for the field (R196). -/
  | undefined
  /-- The request carries a defined value. -/
  | given (a : α)
  deriving DecidableEq, Repr

/-- Group direction (R3). -/
inductive Direction where
  | both | inOnly | outOnly
  deriving DecidableEq, Repr

/-- Glare rule (R3, R17). -/
inductive GlareRule where
  | winAll | yieldAll | winEven | winOdd
  deriving DecidableEq, Repr

/-- Hunt mode (R3, R13). -/
inductive HuntMode where
  | firstUp | firstDown | rotate
  deriving DecidableEq, Repr

/-- The flag kind of BLOCK_CIRCUITS and UNBLOCK_CIRCUITS (R22). -/
inductive FlagKind where
  | localFlag | remoteFlag
  deriving DecidableEq, Repr

/-- Call class (overview 4.5). -/
inductive CallClass where
  | normal | priority
  deriving DecidableEq, Repr

/-- Step kind of a route plan (R63). -/
inductive StepKind where
  | primary | pool | final
  deriving DecidableEq, Repr

/-- Call causes (overview section 7). -/
inductive Cause where
  | normal | farRefused | farCongested | circuitFault | glareYield | drained | portLost | orphanExpired
  | trafficCleared | reattemptsExhausted
  deriving DecidableEq, Repr

/-- Alarm classes (overview section 7). -/
inductive AlarmClass where
  | groupCongestion | planExhausted | carrierHold | settlementBacklog
  deriving DecidableEq, Repr

/-- Day types of the week map (R132). -/
inductive DayType where
  | workday | restday
  deriving DecidableEq, Repr

/-- Time bands (R132). -/
inductive Band where
  | band0 | band1 | band2 | band3
  deriving DecidableEq, Repr

/-- The three tariff banks as QUERY_TARIFF names them (R147). -/
inductive Bank where
  | live | retired | staging
  deriving DecidableEq, Repr

/-- The name of a call: slot and generation (R104). -/
structure CallRef where
  slot : Nat
  generation : Nat
  deriving DecidableEq, Repr

/-- A range of circuits: first circuit and count (R3). -/
structure Range where
  first : Nat
  count : Nat
  deriving DecidableEq, Repr

/-- Where a request comes from: its port and the tag its processor gave it (R185). -/
structure Sender where
  port : Port
  tag : Byte
  deriving DecidableEq, Repr

/-- The parameters of DEFINE_GROUP (R5). -/
structure GroupDefinition where
  group : Nat
  carrier : Nat
  direction : Arg Direction
  glare : Arg GlareRule
  ranges : List Range
  hunt : Arg HuntMode
  guardTime : Option Nat
  threshold : Option Nat
  hysteresis : Option Nat
  decay : Option Nat
  drainProtected : Option Bool
  deriving DecidableEq, Repr

/-- The fields SET_GROUP_PARAMS may carry (R8). -/
structure GroupChanges where
  carrier : Option Nat
  direction : Arg Direction
  glare : Arg GlareRule
  hunt : Arg HuntMode
  guardTime : Option Nat
  threshold : Option Nat
  hysteresis : Option Nat
  decay : Option Nat
  drainProtected : Option Bool
  deriving DecidableEq, Repr

/-- One step as WRITE_PLAN carries it (R64). -/
structure StepArg where
  group : Option Nat
  kind : Arg StepKind
  tariffClass : Option Nat
  deriving DecidableEq, Repr

/-- What QUERY_GAP asks for (R62). -/
inductive GapQuery where
  | one (destination : Nat)
  | all
  deriving DecidableEq, Repr

/-- The fields STAGE_WRITE_TARIFF may carry (R132, R139). -/
structure TariffFields where
  setupFee : Option Nat
  rate0 : Option Nat
  rate1 : Option Nat
  rate2 : Option Nat
  rate3 : Option Nat
  firstIncrement : Option Nat
  nextIncrement : Option Nat
  alternatePremium : Option Nat
  congestionPremium : Option Nat
  cap : Option Nat
  deriving DecidableEq, Repr

/-- The target of STAGE_ACTIVATE (R141). -/
inductive ActivationTarget where
  | now
  | at (weekTime : Nat)
  deriving DecidableEq, Repr

/-- The item QUERY_TARIFF asks for (R147). -/
inductive TariffItem where
  | entry (carrier tariffClass : Nat)
  | margin (carrier : Nat)
  | schedule (day : Arg DayType)
  | weekMap
  | summary
  deriving DecidableEq, Repr

/-- What READ_CLOSED asks for (R176). -/
inductive ClosedItem where
  | pairs (first count : Nat)
  | carriers
  deriving DecidableEq, Repr

/-- How far one OFFER command goes (notes/assumptions/11.md): `whole` is the OFFER from its taking to its answer with
nothing taken in between. `walk` is the OFFER up to the end of its walk: it is then in progress (R103, R110). `keep` is
the end of that OFFER in progress: the keeping of its record and its answer (R110). -/
inductive OfferPart where
  | whole | walk | keep
  deriving DecidableEq, Repr

/-- Who sends an OFFER, and how far the command takes it. -/
structure OfferStep where
  sender : Sender
  part : OfferPart
  deriving DecidableEq, Repr

/-- The commands: one constructor for each row of spec/opcode_table.json, in the table's order. -/
inductive Instr where
  -- chapter 1
  | defineGroup (r : Sender) (d : GroupDefinition)
  | setGroupParams (r : Sender) (group : Nat) (p : GroupChanges)
  | deleteGroup (r : Sender) (group : Nat)
  | blockCircuits (r : Sender) (first count : Nat) (kind : Arg FlagKind)
  | unblockCircuits (r : Sender) (first count : Nat) (kind : Arg FlagKind)
  | lockPlant (r : Sender)
  | queryGroup (r : Sender) (group : Nat)
  | queryCircuit (r : Sender) (circuit : Nat)
  | unlockPlant (r : Sender)
  -- chapter 2
  | reportFarCongestion (r : Sender) (group level : Nat)
  | drainGroup (r : Sender) (group deadline : Nat)
  | drainSuspend (r : Sender)
  | drainResume (r : Sender)
  | returnGroup (r : Sender) (group : Nat)
  | queryDrain (r : Sender)
  -- chapter 3
  | addPrefix (r : Sender) (digits : List Nat) (destination : Nat)
  | removePrefix (r : Sender) (digits : List Nat)
  | writeDest (r : Sender) (destination plan : Option Nat) (barred inUse : Option Bool)
  | setGap (r : Sender) (destination : Nat) (interval life : Option Nat)
  | clearGap (r : Sender) (destination : Nat)
  | queryGap (r : Sender) (q : GapQuery)
  -- chapter 4
  | writePlan (r : Sender) (plan : Nat) (steps : List StepArg)
  | queryPlan (r : Sender) (plan : Nat)
  | setReattemptLimit (r : Sender) (limit : Option Nat)
  -- chapter 5
  | flushRouteMemory (r : Sender)
  | queryRouteMemory (r : Sender) (destination set : Option Nat)
  -- chapter 6
  | offer (r : OfferStep) (circuit : Nat) (digits : List Nat) (cls : Arg CallClass)
  | accepted (r : Sender) (call : CallRef)
  | answer (r : Sender) (call : CallRef)
  | reattempt (r : Sender) (call : CallRef) (cause : Arg Cause) (level : Option Nat)
  | release (r : Sender) (call : CallRef) (cause : Arg Cause)
  | adopt (r : Sender) (former : Arg Port)
  | queryCall (r : Sender) (call : CallRef)
  | clearTraffic (r : Sender)
  | setOrphanLimit (r : Sender) (limit : Option Nat)
  -- chapter 7
  | setClock (r : Sender) (day msOfDay : Option Nat)
  | stageOpen (r : Sender)
  | stageWriteTariff (r : Sender) (carrier tariffClass : Nat) (f : TariffFields)
  | stageWriteMargin (r : Sender) (carrier : Nat) (margin : Option Nat)
  | stageWriteSchedule (r : Sender) (day : Arg DayType) (first : Nat) (bands : List (Arg Band))
  | stageWriteWeek (r : Sender) (days : List (Nat × Arg DayType))
  | stageActivate (r : Sender) (target : Option ActivationTarget)
  | stageAbort (r : Sender)
  | queryTariff (r : Sender) (bank : Arg Bank) (item : Arg TariffItem)
  -- chapter 9
  | setFetchBlock (r : Sender) (code : Option Nat)
  | fetchRecords (r : Sender)
  | setExposureLimit (r : Sender) (carrier : Nat) (limit : Option Nat)
  | closePeriod (r : Sender)
  | readClosed (r : Sender) (item : Arg ClosedItem)
  | releaseClosed (r : Sender) (period : Option Nat)
  | queryPair (r : Sender) (inbound outbound : Nat)
  -- chapter 10
  | attach (r : Sender) (partner : Arg Port)
  | detach (r : Sender)
  | subscribe (r : Sender) (cls : Arg AlarmClass) (on : Option Bool)
  | ackAlarm (r : Sender) (cls : Arg AlarmClass) (source : Option Nat)
  | sync (r : Sender)
  | identify (r : Sender)
  | unknownRequest (r : Sender) (code : Nat)
  -- events
  | frameReceived (port : Port) (bytes : List Byte)
  | linkLoss (port : Port)
  | detachComplete (port : Port)
  | callTablePortLoss (port : Port)
  | tariffHolderLoss (port : Port)
  | drainContributorLoss (port : Port)
  | noticeSent (port : Port)
  | tick
  | guardExpiry (circuit : Nat)
  | decayExpiry (group : Nat)
  | windowExpiry
  | deadlineExpiry
  | drainReleaseList
  | gapLifeExpiry (destination : Nat)
  | orphanExpiry
  | activationDue
  | glareReselection (call : CallRef)
  | accumulation
  | resetN
  | powerOn
  | responseSent (port : Port)
  deriving DecidableEq, Repr

end Sys2Proof
end

