-- ==== Sys2Proof/Decode.lean ====
section
/-! DEFINITION. The words of the opcode table. Every row of spec/opcode_table.json has an empty list of fields, so no word
spells a command; the frames that requests arrive in are in Sys2Proof/Machine/Layouts.lean. -/

namespace Sys2Proof

/-- The command that a word spells by the table's bits: none, since the table gives no row any bits. -/
def decodeTableWord (_nbits _w : Nat) : Option Instr := none

end Sys2Proof
end

