-- ==== Sys2Proof/Machine/Table.lean ====
section
/-! DEFINITION. The tables of the TG4816 as plain data. The spec's tables are large and start with every record at
one stated value (16,384 circuits, 8,192 slots, 4,096 pairs, ...), so a `Table α d` lists only the records that differ
from the value `d`, by rising number: equal tables are equal data. Also the four-port record, and lists of numbers
kept in rising order. -/

namespace Sys2Proof.Machine

/-- Records numbered by `Nat`, all equal to `d` but those listed. -/
structure Table (α : Type) (d : α) where
  entries : List (Nat × α)
  deriving DecidableEq, Repr

/-- Looking up in a rising list: an unlisted number reads as `d`. -/
def lookupIn {α : Type} (d : α) : List (Nat × α) → Nat → α
  | [], _ => d
  | (i, v) :: rest, k => if i = k then v else if k < i then d else lookupIn d rest k

/-- Writing in a rising list; a value equal to `d` is not listed. -/
def writeIn {α : Type} [DecidableEq α] (d : α) : List (Nat × α) → Nat → α → List (Nat × α)
  | [], k, v => if v = d then [] else [(k, v)]
  | (i, w) :: rest, k, v =>
    if i < k then (i, w) :: writeIn d rest k v
    else
      let above := if i = k then rest.dropWhile (fun e => decide (e.1 ≤ k)) else (i, w) :: rest
      if v = d then above else (k, v) :: above

/-- The table with every record at `d`. -/
def Table.empty {α : Type} {d : α} : Table α d := ⟨[]⟩

/-- The record numbered `k`. -/
def Table.get {α : Type} {d : α} (t : Table α d) (k : Nat) : α := lookupIn d t.entries k

/-- The table with the record numbered `k` replaced. -/
def Table.set {α : Type} [DecidableEq α] {d : α} (t : Table α d) (k : Nat) (v : α) : Table α d :=
  ⟨writeIn d t.entries k v⟩

/-- Every listed record passed through `f` (which keeps `d`). -/
def Table.mapValues {α : Type} [DecidableEq α] {d : α} (f : Nat → α → α) (t : Table α d) : Table α d :=
  ⟨(t.entries.map (fun e => (e.1, f e.1 e.2))).filter (fun e => decide (e.2 ≠ d))⟩

/-- The numbers of the listed records, rising. -/
def Table.keys {α : Type} {d : α} (t : Table α d) : List Nat := t.entries.map Prod.fst

/-- How many records are listed. -/
def Table.size {α : Type} {d : α} (t : Table α d) : Nat := t.entries.length

/-- The numbers of a list rise strictly. -/
def rising : List Nat → Bool
  | [] => true
  | [_] => true
  | i :: j :: rest => decide (i < j) && rising (j :: rest)

/-- The canonical form: the numbers rise strictly and no listed record is `d`. -/
def Table.wf {α : Type} [DecidableEq α] {d : α} (t : Table α d) : Bool :=
  rising t.keys && t.entries.all (fun e => decide (e.2 ≠ d))

/-- A number put into a rising list, once. -/
def insertNumber (k : Nat) : List Nat → List Nat
  | [] => [k]
  | i :: rest => if k < i then k :: i :: rest else if i = k then i :: rest else i :: insertNumber k rest

/-- A number taken out of a list. -/
def removeNumber (k : Nat) (l : List Nat) : List Nat := l.filter (fun i => decide (i ≠ k))

/-- The first of `fuel` numbers from `k` on that `p` holds of. -/
def firstFrom (p : Nat → Bool) : Nat → Nat → Option Nat
  | 0, _ => none
  | fuel + 1, k => if p k then some k else firstFrom p fuel (k + 1)

/-- One value for each port. -/
structure PerPort (α : Type) where
  a : α
  b : α
  c : α
  d : α
  deriving DecidableEq, Repr

/-- The value of one port. -/
def PerPort.get {α : Type} (v : PerPort α) : Port → α
  | .a => v.a
  | .b => v.b
  | .c => v.c
  | .d => v.d

/-- The values with one port's replaced. -/
def PerPort.set {α : Type} (v : PerPort α) (p : Port) (x : α) : PerPort α :=
  match p with
  | .a => { v with a := x }
  | .b => { v with b := x }
  | .c => { v with c := x }
  | .d => { v with d := x }

/-- The same value for every port. -/
def PerPort.all {α : Type} (x : α) : PerPort α := ⟨x, x, x, x⟩

/-- The ports in their order A, B, C, D. -/
def allPorts : List Port := [.a, .b, .c, .d]

end Sys2Proof.Machine
end

