-- ==== Sys2Proof/Machine/State.lean ====
section
/-! DEFINITION. The state of the TG4816: a record for each of the ten blocks of spec/00_scope.md section 2 (the pricing
engine holds none), the work one block has handed to another and that the other has not taken yet (each such item is a
row of spec/opcode_table.json), and the queue of commands that wait. A field that the spec says is absent in some
condition is an `Option`. -/

namespace Sys2Proof.Machine

/-! ## Plant store (chapter 1) -/

/-- R1: what a circuit of a group is doing, with the fields present in that state. -/
inductive Occupancy where
  | idle
  | busyIn (call : CallRef)
  | busyOut (call : CallRef)
  | guard (expiry : Nat)
  deriving DecidableEq, Repr

/-- R1: the record of a circuit that lies in a group. UNEQUIPPED is the absence of this record. -/
structure Equipped where
  group : Nat
  localFlag : Bool
  remoteFlag : Bool
  occupancy : Occupancy
  deriving DecidableEq, Repr

/-- R3: the record of a defined group. An undefined group is the absence of this record. -/
structure Group where
  carrier : Nat
  direction : Direction
  glare : GlareRule
  ranges : List Range
  hunt : HuntMode
  lastSeized : Option Nat
  guardTime : Nat
  threshold : Nat
  hysteresis : Nat
  /-- far-end decay interval in s -/
  decay : Nat
  drainProtected : Bool
  /-- R2: the available circuits in circuit-number order -/
  idleSet : List Nat
  available : Nat
  blockedIdle : Nat
  busyIn : Nat
  busyOut : Nat
  inGuard : Nat
  deriving DecidableEq, Repr

/-- The plant store. -/
structure Plant where
  circuits : Table (Option Equipped) none
  groups : Table (Option Group) none
  locked : Bool
  deriving DecidableEq, Repr

/-! ## Group service controller (chapter 2) -/

/-- R27. `opened` is the spec's OPEN. -/
inductive Congestion where
  | opened | reserved | full
  deriving DecidableEq, Repr

/-- R32. -/
inductive ServiceState where
  | inService | draining | drainSuspended | outOfService
  deriving DecidableEq, Repr

/-- R27, R29, R32: what the controller holds for a group. The decay timer is stopped when it has no expiry. -/
structure GroupService where
  congestion : Congestion
  farLevel : Nat
  decayExpiry : Option Nat
  service : ServiceState
  deriving DecidableEq, Repr

/-- R28, R29, R32: a newly defined group, and the value read for a group that is not defined. -/
def GroupService.initial : GroupService := ⟨.opened, 0, none, .inService⟩

/-- R33: batch states. -/
inductive BatchState where
  | none | forming | draining | suspended
  deriving DecidableEq, Repr

/-- R33: member results. -/
inductive MemberResult where
  | pending | drained | isProtected | returned
  deriving DecidableEq, Repr

/-- R33: a member entry. -/
structure Member where
  group : Nat
  result : MemberResult
  deriving DecidableEq, Repr

/-- R33: the drain batch record. -/
structure DrainBatch where
  state : BatchState
  members : List Member
  contributors : PerPort Bool
  /-- in s, 0 for none -/
  deadline : Nat
  windowExpiry : Option Nat
  deadlineExpiry : Option Nat
  remaining : Option Nat
  deadlinePassed : Bool
  deriving DecidableEq, Repr

/-- R33: the NONE values. -/
def DrainBatch.empty : DrainBatch := ⟨.none, [], PerPort.all false, 0, Option.none, Option.none, Option.none, false⟩

/-- The group service controller. -/
structure Service where
  groups : Table GroupService GroupService.initial
  /-- R45: for each group number, the plans that have a step naming it -/
  planSets : Table (List Nat) []
  /-- R45, R46: the exhaustion of each plan -/
  exhausted : Table Bool false
  batch : DrainBatch
  /-- R184 step 4: port losses handed over and not yet taken (R43) -/
  losses : List Port
  deriving DecidableEq, Repr

/-! ## Number analyser (chapter 3) -/

/-- R52. -/
structure Destination where
  plan : Nat
  barred : Bool
  inUse : Bool
  deriving DecidableEq, Repr

/-- R52: the device-reset record. -/
def Destination.initial : Destination := ⟨0, false, false⟩

/-- R56: an entry of the gap table. -/
structure Gap where
  /-- in units of 100 ms -/
  interval : Nat
  /-- in s, 0 until cleared -/
  life : Nat
  lifeExpiry : Option Nat
  nextAdmit : Nat
  refused : Nat
  deriving DecidableEq, Repr

/-- The number analyser. -/
structure Analyser where
  /-- R48: keyed by `prefixKey`, which gives each prefix a number of its own -/
  prefixes : Table (Option Nat) none
  destinations : Table Destination Destination.initial
  /-- R56: keyed by destination -/
  gaps : Table (Option Gap) none
  deriving DecidableEq, Repr

/-! ## Route selector (chapter 4) -/

/-- R63: a step of a plan. -/
structure PlanStep where
  group : Nat
  kind : StepKind
  tariffClass : Nat
  deriving DecidableEq, Repr

/-- The route selector. -/
structure RouteSelector where
  plans : Table (List PlanStep) []
  reattemptLimit : Nat
  deriving DecidableEq, Repr

/-! ## Route memory (chapter 5) -/

/-- R88: a valid entry. An invalid way holds none. -/
structure MemoryEntry where
  tag : Nat
  plan : Nat
  member : Nat
  confidence : Nat
  deriving DecidableEq, Repr

/-- R88: a set of 4 ways and its rotate pointer. -/
structure MemorySet where
  ways : List (Option MemoryEntry)
  pointer : Nat
  deriving DecidableEq, Repr

/-- R88: the set at device reset. -/
def MemorySet.initial : MemorySet := ⟨[none, none, none, none], 0⟩

/-- The route memory. -/
structure RouteMemory where
  sets : Table MemorySet MemorySet.initial
  deriving DecidableEq, Repr

/-! ## Call table (chapter 6) -/

/-- R103: the state of a record in use. -/
inductive CallState where
  | routed | proceeding | answered | unrouted
  deriving DecidableEq, Repr

/-- R103: the outbound leg, with the premium facts, which are present while the call holds it. -/
structure Leg where
  circuit : Nat
  group : Nat
  carrier : Nat
  alternatePremium : Bool
  congestionPremium : Bool
  deriving DecidableEq, Repr

/-- R103, R112: the facts stored at ANSWER. The TIME_UNSET fact is set exactly when no answer week time is stored. -/
structure AnswerFacts where
  monotonic : Nat
  weekTime : Option Nat
  generation : Nat
  deriving DecidableEq, Repr

/-- R103, R122: former owner and loss time. -/
structure FormerOwner where
  port : Port
  lossTime : Nat
  deriving DecidableEq, Repr

/-- R103: a call record in use. An owner of NONE is `none`. -/
structure Call where
  state : CallState
  owner : Option Port
  inCircuit : Nat
  inGroup : Nat
  inCarrier : Nat
  leg : Option Leg
  destination : Nat
  plan : Nat
  cls : CallClass
  stepIndex : Nat
  stepKind : StepKind
  tariffClass : Nat
  poolTried : Bool
  memoryFlag : Bool
  reattempts : Nat
  reselectionPending : Bool
  answer : Option AnswerFacts
  former : Option FormerOwner
  orphanDeadline : Option Nat
  lastCause : Option Cause
  deriving DecidableEq, Repr

/-- R103, R104: a slot holds a generation, also when FREE, and a record when in use. -/
structure Slot where
  generation : Nat
  call : Option Call
  deriving DecidableEq, Repr

/-- R128: a slot at device reset. -/
def Slot.free : Slot := ⟨0, none⟩

/-- R110, R184 step 4: a port loss handed to the call table with the partner as it stood; for a loss at the end of
DETACH, the tag that DETACH_DONE will carry (R183). -/
structure PortLoss where
  port : Port
  partner : Option Port
  detachTag : Option Byte
  deriving DecidableEq, Repr

/-- R103, R107: an OFFER in progress whose walk has succeeded: the request it is, the slot held for it (by the reference
its call will have), the record it will keep (R110), and what has come about meanwhile. -/
structure OfferInProgress where
  sender : Sender
  circuit : Nat
  digits : List Nat
  cls : Arg CallClass
  ref : CallRef
  record : Call
  /-- R118: a glare yield has taken the outbound leg -/
  displaced : Bool
  /-- R120: noted with a list of groups of a drain deadline -/
  noted : Bool
  /-- R184 step 2: the link was lost, so the response will be discarded -/
  discarded : Bool
  /-- R110: the loss of the port has been taken by the call table, with this partner handed with it -/
  loss : Option (Option Port)
  deriving DecidableEq, Repr

/-- The call table. -/
structure CallTable where
  slots : Table Slot Slot.free
  /-- R103, R110: the OFFERs in progress, each with its held slot -/
  offers : List OfferInProgress
  /-- R122: the slots of the orphans in the order they joined; `orphanList` orders them by deadline -/
  orphans : List Nat
  /-- in s -/
  orphanLimit : Nat
  /-- R118: queued reselections -/
  reselections : List CallRef
  /-- R120: lists of groups handed over by the group service controller and not yet taken -/
  releaseLists : List (List Nat)
  /-- R184: port losses handed over and not yet taken -/
  losses : List PortLoss
  deriving DecidableEq, Repr

/-! ## Tariff store (chapter 7) -/

/-- R132: a tariff entry. -/
structure TariffEntry where
  setupFee : Nat
  rate0 : Nat
  rate1 : Nat
  rate2 : Nat
  rate3 : Nat
  firstIncrement : Nat
  nextIncrement : Nat
  alternatePremium : Nat
  congestionPremium : Nat
  cap : Nat
  deriving DecidableEq, Repr

/-- R133: the entries of generation 0. -/
def TariffEntry.initial : TariffEntry := ⟨0, 0, 0, 0, 0, 1, 1, 0, 0, 0⟩

/-- R132: the contents of a generation. Entries are keyed by carrier x 8 + class. -/
structure Tariffs where
  entries : Table TariffEntry TariffEntry.initial
  margins : Table Nat 0
  workday : Table Band .band0
  restday : Table Band .band0
  weekMap : Table DayType .workday
  deriving DecidableEq, Repr

/-- R133: the contents of generation 0. -/
def Tariffs.initial : Tariffs := ⟨.empty, .empty, .empty, .empty, .empty⟩

/-- R134: a bank that holds a generation, with its reference count. -/
structure BankRecord where
  number : Nat
  references : Nat
  tariffs : Tariffs
  deriving DecidableEq, Repr

/-- R134, R137: the staging generation. -/
structure StagedGeneration where
  number : Nat
  tariffs : Tariffs
  deriving DecidableEq, Repr

/-- R136: staging states. `opened` is the spec's OPEN. -/
inductive StagingState where
  | none | opened | scheduled | held
  deriving DecidableEq, Repr

/-- R136: the staging record, with the staging bank. -/
structure Staging where
  state : StagingState
  holder : Option Port
  generation : Option StagedGeneration
  target : Option Nat
  advance : Option Nat
  deriving DecidableEq, Repr

/-- R136: the staging record in NONE. -/
def Staging.empty : Staging := ⟨.none, Option.none, Option.none, Option.none, Option.none⟩

/-- The tariff store. -/
structure TariffStore where
  /-- R129: monotonic time in ms -/
  monotonic : Nat
  /-- R130: week time, absent while UNSET -/
  weekTime : Option Nat
  live : BankRecord
  retired : Option BankRecord
  staging : Staging
  /-- R184: port losses handed over and not yet taken (R146) -/
  losses : List Port
  deriving DecidableEq, Repr

/-! ## Settlement unit (chapter 9) -/

/-- The flags of a priced result and of a settlement record (R162, R169). -/
structure PriceFlags where
  timeUnset : Bool
  durationClamped : Bool
  capped : Bool
  altPremium : Bool
  congPremium : Bool
  forced : Bool
  deriving DecidableEq, Repr

/-- R162: a priced result. -/
structure PricedResult where
  call : CallRef
  inCarrier : Nat
  outCarrier : Nat
  inGroup : Nat
  outGroup : Nat
  generation : Nat
  tariffClass : Nat
  stepKind : StepKind
  answerWeekTime : Option Nat
  duration : Nat
  billed : Nat
  seconds0 : Nat
  seconds1 : Nat
  seconds2 : Nat
  seconds3 : Nat
  payable : Nat
  receivable : Nat
  cause : Cause
  flags : PriceFlags
  deriving DecidableEq, Repr

/-- R169: a settlement record: a priced result and the period it was accumulated in. -/
structure SettlementRecord where
  period : Nat
  result : PricedResult
  deriving DecidableEq, Repr

/-- R164: a pair accumulator. -/
structure PairTotals where
  payable : Nat
  receivable : Nat
  calls : Nat
  billed : Nat
  unitemizedPayable : Nat
  unitemizedReceivable : Nat
  unitemizedCalls : Nat
  saturated : Bool
  deriving DecidableEq, Repr

/-- R164: the accumulator at device reset. -/
def PairTotals.zero : PairTotals := ⟨0, 0, 0, 0, 0, 0, 0, false⟩

/-- R165: a carrier record. -/
structure Carrier where
  total : Nat
  limit : Nat
  hold : Bool
  deriving DecidableEq, Repr

/-- R165: the carrier record at device reset. -/
def Carrier.initial : Carrier := ⟨0, 0, false⟩

/-- R175: the closed bank when full. -/
structure ClosedBank where
  period : Nat
  pairs : Table PairTotals PairTotals.zero
  totals : Table Nat 0
  deriving DecidableEq, Repr

/-- The settlement unit. -/
structure Settlement where
  /-- keyed by inbound x 64 + outbound -/
  pairs : Table PairTotals PairTotals.zero
  carriers : Table Carrier Carrier.initial
  /-- oldest first -/
  queue : List SettlementRecord
  /-- R170: the backlog level (true for 1) -/
  backlog : Bool
  period : Nat
  closed : Option ClosedBank
  /-- R162, R166: results the pricing engine has handed over and the unit has not taken yet, oldest first -/
  handed : List PricedResult
  deriving DecidableEq, Repr

/-! ## Port interface and notice engine (chapter 10) -/

/-- R180: port states. -/
inductive PortState where
  | down | up | detaching
  deriving DecidableEq, Repr

/-- The statuses of a response, in the order of their codes 0 to 32 (overview section 7, chapter 11). -/
inductive Status where
  | ok | adjusted | queueFull | notAttached | detaching | badRequest | outOfRange | notOwner | noCall | wrongState
  | circuitBusy | circuitBlocked | glare | wrongDirection | groupUnavailable | noRoute | barred | gapped | carrierHold
  | allRoutesBusy | callTableFull | tableFull | badPlan | plantLocked | circuitAssigned | groupBusy | batchFull
  | stageBusy | notStageHolder | activationPending | clockUnset | closedBankFull | noFetchBlock
  deriving DecidableEq, Repr

/-- R182 to R184: the cause of a PORT_STATE notice; with ATTACH it carries the partner. -/
inductive PortCause where
  | attach (partner : Option Port)
  | detach
  | linkLoss
  deriving DecidableEq, Repr

/-- The disposition of a CALL_CLEARED notice (R119, R120). -/
inductive Disposition where
  | unrouted | released
  deriving DecidableEq, Repr

/-- An alarm source: its class and its number within the class (R180). -/
structure AlarmSource where
  cls : AlarmClass
  number : Nat
  deriving DecidableEq, Repr

/-- R188, R190: the notices, with the fields their making rules give. -/
inductive Notice where
  | routeChanged (call : CallRef) (circuit group stepIndex reattempts : Nat)
  | callCleared (call : CallRef) (cause : Cause) (disposition : Disposition)
  | takeover (lost : Port) (count : Nat)
  | drainDone (members : List Member) (drained : Nat)
  | activationHeld (staged retired references : Nat)
  | tariffActive (live retired references : Nat) (held : Bool)
  | periodClosed (closed live : Nat)
  | portState (port : Port) (state : PortState) (cause : PortCause)
  | noticeOverflow (count : Nat)
  | alarm (source : AlarmSource) (level : Nat)
  deriving DecidableEq, Repr

/-- R62: one gap as QUERY_GAP shows it; the remaining life is absent for "until cleared". -/
structure GapView where
  destination : Nat
  interval : Nat
  life : Nat
  remainingLife : Option Int
  untilAdmit : Nat
  refused : Nat
  deriving DecidableEq, Repr

/-- R44: a member as QUERY_DRAIN shows it; a group deleted since (R43) has no service state. -/
structure MemberView where
  group : Nat
  result : MemberResult
  service : Option ServiceState
  deriving DecidableEq, Repr

/-- R44: what QUERY_DRAIN shows. -/
structure DrainView where
  state : BatchState
  members : List MemberView
  contributors : PerPort Bool
  deadline : Nat
  deadlinePassed : Bool
  untilWindow : Option Int
  untilDeadline : Option Int
  remaining : Option Nat
  deriving DecidableEq, Repr

/-- R68: a step as QUERY_PLAN shows it. -/
structure StepView where
  step : PlanStep
  groupDefined : Bool
  deriving DecidableEq, Repr

/-- R101: a route-memory entry as a query by destination shows it. -/
structure MemoryView where
  way : Nat
  plan : Nat
  member : Nat
  group : Option Nat
  confidence : Nat
  deriving DecidableEq, Repr

/-- R101: a way as a query by set shows it. -/
structure WayView where
  destination : Nat
  plan : Nat
  member : Nat
  confidence : Nat
  deriving DecidableEq, Repr

/-- R126: the call record as QUERY_CALL shows it. -/
structure CallView where
  ref : CallRef
  call : Call
  remainingOrphan : Option Int
  sinceAnswer : Option Nat
  deriving DecidableEq, Repr

/-- R147: the SUMMARY item. -/
structure TariffSummary where
  number : Nat
  references : Option Nat
  state : StagingState
  holder : Option Port
  target : Option Nat
  advance : Option Nat
  monotonic : Nat
  weekTime : Option Nat
  band : Band
  deriving DecidableEq, Repr

/-- R178: what QUERY_PAIR shows. -/
structure PairView where
  totals : PairTotals
  carrier : Carrier
  period : Nat
  queueLength : Nat
  backlog : Bool
  closedPeriod : Option Nat
  deriving DecidableEq, Repr

/-- R24: what QUERY_GROUP shows of a defined group: the fields of R3, the five counts with the idle count, the controller's
three states, and the group's result in the drain batch if it is a member. -/
structure GroupView where
  carrier : Nat
  direction : Direction
  glare : GlareRule
  ranges : List Range
  hunt : HuntMode
  lastSeized : Option Nat
  guardTime : Nat
  threshold : Nat
  hysteresis : Nat
  decay : Nat
  drainProtected : Bool
  available : Nat
  blockedIdle : Nat
  busyIn : Nat
  busyOut : Nat
  inGuard : Nat
  idleCount : Nat
  congestion : Congestion
  farLevel : Nat
  service : ServiceState
  membership : Option MemberResult
  deriving DecidableEq, Repr

/-- R1: the five states of a circuit record. -/
inductive CircuitState where
  | unequipped | idle | busyIn | busyOut | guard
  deriving DecidableEq, Repr

/-- R25: what QUERY_CIRCUIT shows. -/
structure CircuitView where
  state : CircuitState
  localFlag : Bool
  remoteFlag : Bool
  group : Option Nat
  call : Option CallRef
  /-- in GUARD, in ms -/
  remainingGuard : Option Int
  deriving DecidableEq, Repr

/-- The results a response carries, as the rule of each request lists them. -/
inductive Result where
  /-- the status alone -/
  | nothing
  | groupCircuits (count : Nat)
  | flagsChanged (changed skipped : Nat)
  | groupUndefined
  | group (view : GroupView)
  | circuit (view : CircuitView)
  | farLevel (level : Nat)
  | drainJoined (state : BatchState) (result : Option MemberResult) (deadline : Nat)
  | drainSuspended (state : BatchState) (remaining : Option Nat)
  | drainResumed (state : BatchState) (untilDeadline : Option Nat)
  | service (state : ServiceState)
  | drain (view : DrainView)
  | prefixAdded (former : Option Nat) (entries : Nat)
  | prefixRemoved (former : Option Nat) (entries : Nat)
  | destinationBefore (d : Destination)
  | gapSet (isNew : Bool) (interval life entries : Nat)
  | gapCleared (refused : Option Nat)
  | gap (view : Option GapView)
  | gaps (count : Nat) (views : List GapView)
  | planWritten (before now : Nat)
  | plan (steps : List StepView) (exhausted : Bool)
  | limitChanged (before after : Nat)
  | flushed (valid : Nat)
  | memoryEntry (set tag : Nat) (entry : Option MemoryView)
  | memorySet (pointer : Nat) (ways : List (Option WayView))
  | offered (call : CallRef) (circuit group : Nat)
  | answered (monotonic generation : Nat)
  | rerouted (circuit group stepIndex reattempts : Nat)
  | unrouted (lastCause : Option Cause) (reattempts : Nat)
  | released (state : CallState) (time : Option Nat)
  | adopted (calls : List CallRef)
  | call (view : CallView)
  | cleared (ended priced orphans : Nat)
  | orphanLimit (before after drawnIn expired : Nat)
  | clock (before : Option Nat) (after : Nat)
  | staged (number live : Nat)
  | stageBusy (state : StagingState) (holder : Option Port)
  | tariffEntry (e : TariffEntry)
  | margin (m : Nat)
  | schedule (bands : List Band)
  | weekMap (days : List DayType)
  | scheduledActivation (advance : Nat)
  | activated (live : Nat)
  | heldActivation (retired references : Nat)
  | aborted (state : StagingState) (number : Option Nat)
  | summary (s : TariffSummary)
  | fetchBlock (size : Nat)
  | records (queueLength : Nat) (rs : List SettlementRecord)
  | exposure (before after total : Nat) (hold : Bool)
  | closed (period live : Nat)
  | closedPairs (period : Nat) (pairs : List (Nat × Nat × PairTotals))
  | closedCarriers (period : Nat) (totals : List Nat)
  | periodReleased (period : Nat)
  | closedPeriodIs (period : Nat)
  | alreadyFree
  | pair (view : PairView)
  | attached (port : Port) (partner : Option Port)
  | partnerChanged (before after : Option Port)
  | mask (groupCongestion planExhausted carrierHold settlementBacklog : Bool)
  | acknowledged (cleared queued : Nat)
  | synced (notices sources : Nat)
  | identity (capacities : List (List Nat)) (revision : BitVec 8) (port : Port) (partner : Option Port) (block : Option Nat)
  | detachDone (takenOver ended orphaned : Nat)
  deriving DecidableEq, Repr

/-- R186, R196: a response: the code and tag of its request, a status, and the results its rule gives. -/
structure Response where
  code : Nat
  tag : Byte
  status : Status
  result : Result
  deriving DecidableEq, Repr

/-- R185: what a waiting request carries: the body of its frame, or, of a request that came as a command, that command
with its parameters (notes/assumptions/5.md). -/
inductive RequestBody where
  | bytes (body : List Byte)
  | command (c : Instr)
  deriving DecidableEq, Repr

/-- R185: a request as it waits in a request queue: its tag, its code and what it carries. -/
structure Request where
  tag : Byte
  code : Nat
  body : RequestBody
  deriving DecidableEq, Repr

/-- R193: a source a SYNC noted. Once its notice is queued, `sends` is how many notices must leave the queue until that
one has left. -/
structure NotedSource where
  source : AlarmSource
  sends : Option Nat
  deriving DecidableEq, Repr

/-- R193: what a held SYNC still waits for: how many of the noted notices are unsent, and the noted sources. -/
structure SyncWait where
  unsent : Nat
  sources : List NotedSource
  deriving DecidableEq, Repr

/-- R180, R193: a held response: a SYNC response with what it waits for, or one composed behind it. -/
structure Held where
  response : Response
  wait : Option SyncWait
  deriving DecidableEq, Repr

/-- R180: a port's record of one alarm source. -/
structure AlarmRecord where
  lastSent : Nat
  outstanding : Bool
  deriving DecidableEq, Repr

/-- R180: the alarm record at device reset and at DOWN. -/
def AlarmRecord.initial : AlarmRecord := ⟨0, false⟩

/-- R180: the subscription mask. -/
structure Mask where
  groupCongestion : Bool
  planExhausted : Bool
  carrierHold : Bool
  settlementBacklog : Bool
  deriving DecidableEq, Repr

/-- R180, R181, R186: the record of a port. `answers` are the responses made at once by R185 and `outbox` the composed
responses that are not held; both wait for the link. -/
structure PortRecord where
  state : PortState
  partner : Option Port
  requests : List Request
  inProgress : Option Request
  answers : List Response
  outbox : List Response
  held : List Held
  notices : List Notice
  drops : Nat
  fetchBlock : Option Nat
  mask : Mask
  alarms : Table AlarmRecord AlarmRecord.initial
  /-- R181: ms since the last valid frame -/
  silence : Nat
  deriving DecidableEq, Repr

/-- R180: the values at device reset and at DOWN. -/
def PortRecord.initial : PortRecord :=
  ⟨.down, none, [], none, [], [], [], [], 0, none, ⟨false, false, false, false⟩, .empty, 0⟩

/-! ## The machine -/

/-- The state of the TG4816. -/
structure State where
  plant : Plant
  service : Service
  analyser : Analyser
  routes : RouteSelector
  memory : RouteMemory
  calls : CallTable
  tariff : TariffStore
  settlement : Settlement
  ports : PerPort PortRecord
  /-- section 10.6: the current level of each alarm source, by `AlarmSource.index` -/
  levels : Table Nat 0
  /-- R195: the RESET_N line is held asserted -/
  resetLine : Bool
  /-- the MODEL's own field: how many free values have been drawn -/
  freeDrawn : Nat
  /-- the commands that wait, first in, first out -/
  pending : List Instr
  deriving DecidableEq, Repr

/-- No rule of the spec stops the device, and no command of the model ends in a fault: there is no reason to name. -/
inductive Fault where
  deriving DecidableEq, Repr

/-- Why a command has no meaning. -/
inductive Refusal where
  /-- Raised by an arm of `exec` for a command that is not modelled yet; safe. No arm raises it. -/
  | notModelled (mnemonic : String)
  deriving DecidableEq, Repr

/-- What a command answers. -/
abbrev Answer := Host.Outcome State Fault Refusal

/-- Device reset, block by block: R26, R47, R48, R52, R56, R63, R85, R88, R128, R148 with R133, R179, R180, R195. -/
def State.reset : State where
  plant := ⟨.empty, .empty, false⟩
  service := ⟨.empty, .empty, .empty, .empty, []⟩
  analyser := ⟨.empty, .empty, .empty⟩
  routes := ⟨.empty, 3⟩
  memory := ⟨.empty⟩
  calls := ⟨.empty, [], [], 120, [], [], []⟩
  tariff := ⟨0, none, ⟨0, 0, .initial⟩, none, .empty, []⟩
  settlement := ⟨.empty, .empty, [], false, 0, none, []⟩
  ports := .all .initial
  levels := .empty
  resetLine := false
  freeDrawn := 0
  pending := []

end Sys2Proof.Machine
end

