-- ==== Sys2Proof/Machine/Bodies.lean ====
section
/-! DEFINITION. What a waiting request carries (chapter 11): the codes of the requests, which commands are requests, how
many bytes the values of each request take at the least, and which commands the body of a frame can stand for. -/

namespace Sys2Proof.Machine

/-! ## Request codes (section 11.3) -/

/-- The requests, in the order of section 11.3. -/
inductive RequestKind where
  | defineGroup | setGroupParams | deleteGroup | blockCircuits | unblockCircuits | lockPlant | queryGroup
  | queryCircuit | unlockPlant
  | reportFarCongestion | drainGroup | drainSuspend | drainResume | returnGroup | queryDrain
  | addPrefix | removePrefix | writeDest | setGap | clearGap | queryGap
  | writePlan | queryPlan | setReattemptLimit
  | flushRouteMemory | queryRouteMemory
  | offer | accepted | answer | reattempt | release | adopt | queryCall | clearTraffic | setOrphanLimit
  | setClock | stageOpen | stageWriteTariff | stageWriteMargin | stageWriteSchedule | stageWriteWeek
  | stageActivate | stageAbort | queryTariff
  | setFetchBlock | fetchRecords | setExposureLimit | closePeriod | readClosed | releaseClosed | queryPair
  | attach | detach | subscribe | ackAlarm | sync | identify
  deriving DecidableEq, Repr

/-- Section 11.3: the code of a request. -/
def RequestKind.code : RequestKind → Nat
  | .defineGroup => 16 | .setGroupParams => 17 | .deleteGroup => 18 | .blockCircuits => 19 | .unblockCircuits => 20
  | .lockPlant => 21 | .queryGroup => 22 | .queryCircuit => 23 | .unlockPlant => 24
  | .reportFarCongestion => 32 | .drainGroup => 33 | .drainSuspend => 34 | .drainResume => 35 | .returnGroup => 36
  | .queryDrain => 37
  | .addPrefix => 48 | .removePrefix => 49 | .writeDest => 50 | .setGap => 51 | .clearGap => 52 | .queryGap => 53
  | .writePlan => 64 | .queryPlan => 65 | .setReattemptLimit => 66
  | .flushRouteMemory => 80 | .queryRouteMemory => 81
  | .offer => 96 | .accepted => 97 | .answer => 98 | .reattempt => 99 | .release => 100 | .adopt => 101
  | .queryCall => 102 | .clearTraffic => 103 | .setOrphanLimit => 104
  | .setClock => 112 | .stageOpen => 113 | .stageWriteTariff => 114 | .stageWriteMargin => 115
  | .stageWriteSchedule => 116 | .stageWriteWeek => 117 | .stageActivate => 118 | .stageAbort => 119
  | .queryTariff => 120
  | .setFetchBlock => 128 | .fetchRecords => 129 | .setExposureLimit => 130 | .closePeriod => 131
  | .readClosed => 132 | .releaseClosed => 133 | .queryPair => 134
  | .attach => 144 | .detach => 145 | .subscribe => 146 | .ackAlarm => 147 | .sync => 148 | .identify => 149

/-! ## Requests -/

/-- The sender and the code of a command that is a request; an event has none, and neither has the end of an OFFER in
progress. -/
def requestOf : Instr → Option (Sender × Nat)
  | .defineGroup r _ => some (r, RequestKind.defineGroup.code)
  | .setGroupParams r _ _ => some (r, RequestKind.setGroupParams.code)
  | .deleteGroup r _ => some (r, RequestKind.deleteGroup.code)
  | .blockCircuits r _ _ _ => some (r, RequestKind.blockCircuits.code)
  | .unblockCircuits r _ _ _ => some (r, RequestKind.unblockCircuits.code)
  | .lockPlant r => some (r, RequestKind.lockPlant.code)
  | .queryGroup r _ => some (r, RequestKind.queryGroup.code)
  | .queryCircuit r _ => some (r, RequestKind.queryCircuit.code)
  | .unlockPlant r => some (r, RequestKind.unlockPlant.code)
  | .reportFarCongestion r _ _ => some (r, RequestKind.reportFarCongestion.code)
  | .drainGroup r _ _ => some (r, RequestKind.drainGroup.code)
  | .drainSuspend r => some (r, RequestKind.drainSuspend.code)
  | .drainResume r => some (r, RequestKind.drainResume.code)
  | .returnGroup r _ => some (r, RequestKind.returnGroup.code)
  | .queryDrain r => some (r, RequestKind.queryDrain.code)
  | .addPrefix r _ _ => some (r, RequestKind.addPrefix.code)
  | .removePrefix r _ => some (r, RequestKind.removePrefix.code)
  | .writeDest r _ _ _ _ => some (r, RequestKind.writeDest.code)
  | .setGap r _ _ _ => some (r, RequestKind.setGap.code)
  | .clearGap r _ => some (r, RequestKind.clearGap.code)
  | .queryGap r _ => some (r, RequestKind.queryGap.code)
  | .writePlan r _ _ => some (r, RequestKind.writePlan.code)
  | .queryPlan r _ => some (r, RequestKind.queryPlan.code)
  | .setReattemptLimit r _ => some (r, RequestKind.setReattemptLimit.code)
  | .flushRouteMemory r => some (r, RequestKind.flushRouteMemory.code)
  | .queryRouteMemory r _ _ => some (r, RequestKind.queryRouteMemory.code)
  | .offer ⟨r, .whole⟩ _ _ _ => some (r, RequestKind.offer.code)
  | .offer ⟨r, .walk⟩ _ _ _ => some (r, RequestKind.offer.code)
  | .offer ⟨_, .keep⟩ _ _ _ => none
  | .accepted r _ => some (r, RequestKind.accepted.code)
  | .answer r _ => some (r, RequestKind.answer.code)
  | .reattempt r _ _ _ => some (r, RequestKind.reattempt.code)
  | .release r _ _ => some (r, RequestKind.release.code)
  | .adopt r _ => some (r, RequestKind.adopt.code)
  | .queryCall r _ => some (r, RequestKind.queryCall.code)
  | .clearTraffic r => some (r, RequestKind.clearTraffic.code)
  | .setOrphanLimit r _ => some (r, RequestKind.setOrphanLimit.code)
  | .setClock r _ _ => some (r, RequestKind.setClock.code)
  | .stageOpen r => some (r, RequestKind.stageOpen.code)
  | .stageWriteTariff r _ _ _ => some (r, RequestKind.stageWriteTariff.code)
  | .stageWriteMargin r _ _ => some (r, RequestKind.stageWriteMargin.code)
  | .stageWriteSchedule r _ _ _ => some (r, RequestKind.stageWriteSchedule.code)
  | .stageWriteWeek r _ => some (r, RequestKind.stageWriteWeek.code)
  | .stageActivate r _ => some (r, RequestKind.stageActivate.code)
  | .stageAbort r => some (r, RequestKind.stageAbort.code)
  | .queryTariff r _ _ => some (r, RequestKind.queryTariff.code)
  | .setFetchBlock r _ => some (r, RequestKind.setFetchBlock.code)
  | .fetchRecords r => some (r, RequestKind.fetchRecords.code)
  | .setExposureLimit r _ _ => some (r, RequestKind.setExposureLimit.code)
  | .closePeriod r => some (r, RequestKind.closePeriod.code)
  | .readClosed r _ => some (r, RequestKind.readClosed.code)
  | .releaseClosed r _ => some (r, RequestKind.releaseClosed.code)
  | .queryPair r _ _ => some (r, RequestKind.queryPair.code)
  | .attach r _ => some (r, RequestKind.attach.code)
  | .detach r => some (r, RequestKind.detach.code)
  | .subscribe r _ _ => some (r, RequestKind.subscribe.code)
  | .ackAlarm r _ _ => some (r, RequestKind.ackAlarm.code)
  | .sync r => some (r, RequestKind.sync.code)
  | .identify r => some (r, RequestKind.identify.code)
  | .unknownRequest r code => some (r, code)
  | .frameReceived _ _ => none
  | .linkLoss _ => none
  | .detachComplete _ => none
  | .callTablePortLoss _ => none
  | .tariffHolderLoss _ => none
  | .drainContributorLoss _ => none
  | .noticeSent _ => none
  | .tick => none
  | .guardExpiry _ => none
  | .decayExpiry _ => none
  | .windowExpiry => none
  | .deadlineExpiry => none
  | .drainReleaseList => none
  | .gapLifeExpiry _ => none
  | .orphanExpiry => none
  | .activationDue => none
  | .glareReselection _ => none
  | .accumulation => none
  | .resetN => none
  | .powerOn => none
  | .responseSent _ => none

/-! ## Bodies (R186, R196) -/

/-- The number that bytes spell, most significant first. -/
def beNat (bs : List Byte) : Nat := bs.foldl (fun n b => n * 256 + b.toNat) 0

/-- Section 11.3: the codes of the table, block by block. -/
def knownCodes : List Nat :=
  List.range' 16 9 ++ List.range' 32 6 ++ List.range' 48 6 ++ List.range' 64 3 ++ List.range' 80 2 ++
    List.range' 96 9 ++ List.range' 112 9 ++ List.range' 128 7 ++ List.range' 144 6

/-- The requests of the table that carry no parameters (R10, R39, R40, R44, R100, R127, R137, R145, R172, R175, R183, R193,
R194): their bodies cannot be too short. -/
def bareCodes : List Nat :=
  [RequestKind.lockPlant, .unlockPlant, .drainSuspend, .drainResume, .queryDrain, .flushRouteMemory, .clearTraffic,
    .stageOpen, .stageAbort, .fetchRecords, .closePeriod, .detach, .sync, .identify].map RequestKind.code

/-! ### How many bytes the values of a command take

The spec gives the ranges of the parameters and, but for two requests, no widths. DESIGN CHOICE (notes/assumptions/6.md):
each value that a command gives takes a field of its own, of at least the whole bytes that its range and the value itself
need. -/

/-- The whole bytes that a number needs: one, and one more for each 8 bits above its first 8. -/
def bytesFor (n : Nat) : Nat := n.log2 / 8 + 1

/-- The field of a number whose range ends at `top`. -/
def numberField (top n : Nat) : Nat := bytesFor (max top n)

/-- The field of a number that may be missing. -/
def optionField (top : Nat) (o : Option Nat) : Nat :=
  match o with
  | none => 0
  | some n => numberField top n

/-- The field of a named code, which section 11.3 numbers within a byte. -/
def codeField {α : Type} (a : Arg α) : Nat :=
  match a with
  | .absent => 0
  | .given _ => 1
  | .undefined => 1

/-- The field of a flag that may be missing. -/
def flagField (o : Option Bool) : Nat := if o.isSome then 1 else 0

/-- R104: the fields of a call reference, as R197 lays it out. -/
def callField (c : CallRef) : Nat := numberField 8191 c.slot + numberField 255 c.generation

/-- R3: the fields of a range of circuits. -/
def rangeField (x : Range) : Nat := numberField 16383 x.first + numberField 16384 x.count

/-- R64: the fields of a step. -/
def stepField (x : StepArg) : Nat := optionField 255 x.group + codeField x.kind + optionField 7 x.tariffClass

/-- R147: the fields of what QUERY_TARIFF asks for, after its item code. -/
def itemField : Arg TariffItem → Nat
  | .given (.entry carrier cls) => numberField 63 carrier + numberField 7 cls
  | .given (.margin carrier) => numberField 63 carrier
  | .given (.schedule day) => codeField day
  | .given .weekMap => 0
  | .given .summary => 0
  | .absent => 0
  | .undefined => 0

/-- R176: the fields of what READ_CLOSED asks for, after its item code. -/
def closedField : Arg ClosedItem → Nat
  | .given (.pairs first count) => numberField 4095 first + numberField 64 count
  | .given .carriers => 0
  | .absent => 0
  | .undefined => 0

/-- R62: the fields of what QUERY_GAP asks for. -/
def gapField : GapQuery → Nat
  | .one destination => numberField 2047 destination
  | .all => 1

/-- R141: the field of a target. -/
def targetField : Option ActivationTarget → Nat
  | none => 0
  | some .now => 1
  | some (.at w) => numberField 604799999 w

/-- R5: the fields of a group's definition. -/
def definitionFields (d : GroupDefinition) : Nat :=
  numberField 255 d.group + numberField 63 d.carrier + codeField d.direction + codeField d.glare +
    (d.ranges.map rangeField).sum + codeField d.hunt + optionField 10000 d.guardTime + optionField 255 d.threshold +
    optionField 64 d.hysteresis + optionField 60 d.decay + flagField d.drainProtected

/-- R8: the fields of the changes to a group. -/
def changeFields (g : GroupChanges) : Nat :=
  optionField 63 g.carrier + codeField g.direction + codeField g.glare + codeField g.hunt +
    optionField 10000 g.guardTime + optionField 255 g.threshold + optionField 64 g.hysteresis + optionField 60 g.decay +
    flagField g.drainProtected

/-- R132, R139: the fields of a tariff entry. -/
def tariffFields (f : TariffFields) : Nat :=
  ([f.setupFee, f.rate0, f.rate1, f.rate2, f.rate3].map (optionField Config.rateMax)).sum +
    optionField 600 f.firstIncrement + optionField 600 f.nextIncrement + optionField 1000 f.alternatePremium +
    optionField 1000 f.congestionPremium + optionField Config.capMax f.cap

/-- R196: the fewest bytes that the body of a request can have to carry what the command carries. -/
def leastBytes : Instr → Nat
  | .defineGroup _ d => definitionFields d
  | .setGroupParams _ group g => numberField 255 group + changeFields g
  | .deleteGroup _ group => numberField 255 group
  | .blockCircuits _ first count kind => numberField 16383 first + numberField 2048 count + codeField kind
  | .unblockCircuits _ first count kind => numberField 16383 first + numberField 2048 count + codeField kind
  | .lockPlant _ => 0
  | .queryGroup _ group => numberField 255 group
  | .queryCircuit _ circuit => numberField 16383 circuit
  | .unlockPlant _ => 0
  | .reportFarCongestion _ group level => numberField 255 group + numberField 3 level
  | .drainGroup _ group deadline => numberField 255 group + numberField 3600 deadline
  | .drainSuspend _ => 0
  | .drainResume _ => 0
  | .returnGroup _ group => numberField 255 group
  | .queryDrain _ => 0
  | .addPrefix _ digits destination => (digits.map (numberField 9)).sum + numberField 2047 destination
  | .removePrefix _ digits => (digits.map (numberField 9)).sum
  | .writeDest _ destination plan barred inUse =>
    optionField 2047 destination + optionField 1023 plan + flagField barred + flagField inUse
  | .setGap _ destination interval life =>
    numberField 2047 destination + optionField 6000 interval + optionField 86400 life
  | .clearGap _ destination => numberField 2047 destination
  | .queryGap _ q => gapField q
  | .writePlan _ plan steps => numberField 1023 plan + (steps.map stepField).sum
  | .queryPlan _ plan => numberField 1023 plan
  | .setReattemptLimit _ limit => optionField 7 limit
  | .flushRouteMemory _ => 0
  | .queryRouteMemory _ destination set => optionField 2047 destination + optionField 255 set
  | .offer _ circuit digits cls => numberField 16383 circuit + (digits.map (numberField 9)).sum + codeField cls
  | .accepted _ call => callField call
  | .answer _ call => callField call
  | .reattempt _ call cause level => callField call + codeField cause + optionField 3 level
  | .release _ call cause => callField call + codeField cause
  | .adopt _ former => codeField former
  | .queryCall _ call => callField call
  | .clearTraffic _ => 0
  | .setOrphanLimit _ limit => optionField 3600 limit
  | .setClock _ day ms => optionField 6 day + optionField 86399999 ms
  | .stageOpen _ => 0
  | .stageWriteTariff _ carrier cls f => numberField 63 carrier + numberField 7 cls + tariffFields f
  | .stageWriteMargin _ carrier margin => numberField 63 carrier + optionField 2000 margin
  | .stageWriteSchedule _ day first bands => codeField day + numberField 47 first + (bands.map codeField).sum
  | .stageWriteWeek _ days => (days.map (fun d => numberField 6 d.1 + codeField d.2)).sum
  | .stageActivate _ target => targetField target
  | .stageAbort _ => 0
  | .queryTariff _ bank item => codeField bank + codeField item + itemField item
  | .setFetchBlock _ size => optionField 64 size
  | .fetchRecords _ => 0
  | .setExposureLimit _ carrier limit => numberField 63 carrier + optionField Config.capMax limit
  | .closePeriod _ => 0
  | .readClosed _ item => codeField item + closedField item
  | .releaseClosed _ period => optionField 65535 period
  | .queryPair _ inbound outbound => numberField 63 inbound + numberField 63 outbound
  -- a partner of none has the code 255 (section 11.3)
  | .attach _ _ => 1
  | .detach _ => 0
  | .subscribe _ cls on => codeField cls + flagField on
  | .ackAlarm _ cls _ => codeField cls + 2
  | .sync _ => 0
  | .identify _ => 0
  | .unknownRequest _ _ => 0
  | .frameReceived _ _ => 0
  | .linkLoss _ => 0
  | .detachComplete _ => 0
  | .callTablePortLoss _ => 0
  | .tariffHolderLoss _ => 0
  | .drainContributorLoss _ => 0
  | .noticeSent _ => 0
  | .tick => 0
  | .guardExpiry _ => 0
  | .decayExpiry _ => 0
  | .windowExpiry => 0
  | .deadlineExpiry => 0
  | .drainReleaseList => 0
  | .gapLifeExpiry _ => 0
  | .orphanExpiry => 0
  | .activationDue => 0
  | .glareReselection _ => 0
  | .accumulation => 0
  | .resetN => 0
  | .powerOn => 0
  | .responseSent _ => 0

/-- Section 11.2: the alarm class that a byte spells. -/
def alarmClassArg (n : Nat) : Arg AlarmClass :=
  match n with
  | 0 => .given .groupCongestion
  | 1 => .given .planExhausted
  | 2 => .given .carrierHold
  | 3 => .given .settlementBacklog
  | _ => .undefined

/-- R192, section 11.2: the 2-byte source of an ACK_ALARM, 65,535 for ALL. -/
def ackSource (bs : List Byte) : Option Nat := if beNat bs = 65535 then none else some (beNat bs)

/-- R186, R196: a request of this code and body may be one that is answered BAD_REQUEST for its form: its code is not in
the table, or its body is too short, or the spec does not give the widths of its parameters, so that the bytes do not
tell. SUBSCRIBE carries 1 byte and its on or off, ACK_ALARM 1 byte and 2 (R197). -/
def formMayFail (code : Nat) (bs : List Byte) : Bool :=
  if code ∉ knownCodes then true
  else if code ∈ bareCodes then false
  else if code = RequestKind.subscribe.code then decide (bs.length < 2)
  else if code = RequestKind.ackAlarm.code then decide (bs.length < 3)
  else true

/-- R197: the class that a body of SUBSCRIBE or ACK_ALARM spells. DESIGN CHOICE (notes/assumptions/6.md): the spec gives the
width of the class and of the source in a request and not their places; the class comes first, and the source after it. -/
def spelledClass (bs : List Byte) : Arg AlarmClass := alarmClassArg (beNat (bs.take 1))

/-- R196, R197: a body of these bytes can stand for the command: it is long enough for what the command carries, and where
the spec lays its parameters out, it spells those of the command. -/
def spells (c : Instr) (code : Nat) (bs : List Byte) : Bool :=
  match c with
  | .unknownRequest _ _ => formMayFail code bs
  | .subscribe _ cls _ => decide (leastBytes c ≤ bs.length) && cls == spelledClass bs
  | .ackAlarm _ cls source =>
    decide (leastBytes c ≤ bs.length) && cls == spelledClass bs && source == ackSource ((bs.drop 1).take 2)
  | _ => decide (leastBytes c ≤ bs.length)

/-- The command as its processor sent it: how far one command takes an OFFER is not part of the request. -/
def asSent : Instr → Instr
  | .offer r circuit digits cls => .offer ⟨r.sender, .whole⟩ circuit digits cls
  | c => c

/-- R186: the waiting request is this command. -/
def standsFor (q : Request) (c : Instr) (r : Sender) (code : Nat) : Bool :=
  decide (q.code = code) && decide (q.tag = r.tag) &&
    (match q.body with
     | .bytes bs => spells c code bs
     | .command d => d == asSent c)

end Sys2Proof.Machine
end

