-- ==== Sys2Proof/Machine/Flags.lean ====
section
/-! DEFINITION. Every flag, level and derived state the spec computes from other values: the count a circuit is
counted in, congestion, the conditions of step eligibility, glare, backlog, hold, saturation. -/

namespace Sys2Proof

/-- R69: the directions that allow outbound seizure. -/
def Direction.allowsOutbound : Direction → Bool
  | .inOnly => false
  | .both => true
  | .outOnly => true

/-- R17: this exchange wins at glare on this circuit. -/
def GlareRule.wins (rule : GlareRule) (circuit : Nat) : Bool :=
  match rule with
  | .winAll => true
  | .yieldAll => false
  | .winEven => circuit % 2 == 0
  | .winOdd => circuit % 2 == 1

/-- R79: the alternate premium fact of a step kind. -/
def StepKind.alternate : StepKind → Bool
  | .primary => false
  | .pool => true
  | .final => true

namespace Machine

/-- R2: the five counts of a group. -/
inductive Condition where
  | available | blockedIdle | busyIn | busyOut | inGuard
  deriving DecidableEq, Repr

/-- R1: a local or a remote block flag is set. -/
def Equipped.blocked (e : Equipped) : Bool := e.localFlag || e.remoteFlag

/-- R2: the count a circuit is counted in. -/
def Equipped.condition (e : Equipped) : Condition :=
  match e.occupancy with
  | .idle => if e.blocked then .blockedIdle else .available
  | .busyIn _ => .busyIn
  | .busyOut _ => .busyOut
  | .guard _ => .inGuard

/-- BUSY_IN, BUSY_OUT or GUARD (R5 check 6, R9 check 4). -/
def Equipped.inUse (e : Equipped) : Bool :=
  match e.occupancy with
  | .idle => false
  | _ => true

/-- R2: the idle count is the available count. -/
def Group.idleCount (g : Group) : Nat := g.available

/-- R4: busy-in plus busy-out. -/
def Group.busyTotal (g : Group) : Nat := g.busyIn + g.busyOut

/-- R27: the congestion state from the idle count, the threshold R, the hysteresis H and the state before. -/
def nextCongestion (before : Congestion) (idle r h : Nat) : Congestion :=
  if idle = 0 then .full
  else
    match before with
    | .opened => if idle ≤ r then .reserved else .opened
    | .reserved => if r + h ≤ idle then .opened else .reserved
    | .full => if r + h ≤ idle then .opened else .reserved

/-- R27: the GROUP_CONGESTION level. -/
def Congestion.level : Congestion → Nat
  | .opened => 0
  | .reserved => 1
  | .full => 2

/-- The level of a source that is on or off (R45, R170, R173). -/
def levelOf (on : Bool) : Nat := if on then 1 else 0

/-- R32: the service states that take new seizures, and that count as having room (R45). -/
def ServiceState.takesTraffic : ServiceState → Bool
  | .inService => true
  | .drainSuspended => true
  | .draining => false
  | .outOfService => false

/-- R70, R71: the far-end and reservation conditions; a PRIORITY call needs none. -/
def farEndAllows (cls : CallClass) (kind : StepKind) (farLevel idle threshold : Nat) : Bool :=
  match cls with
  | .priority => true
  | .normal =>
    match kind with
    | .primary =>
      if farLevel ≤ 1 then true else if farLevel = 2 then decide (threshold < idle) else false
    | .pool => if farLevel = 0 then decide (threshold < idle) else false
    | .final => if farLevel = 0 then decide (threshold < idle) else false

/-- R170: the backlog level after a change of the queue's length. -/
def backlogAfter (before : Bool) (length : Nat) : Bool :=
  if before then decide (Config.backlogFall < length) else decide (Config.backlogRise ≤ length)

/-- R173: the hold flag of a carrier. -/
def holdOf (limit total : Nat) : Bool := decide (limit ≠ 0) && decide (limit ≤ total)

/-- R168: an addition to a 48-bit field. -/
def addField (field amount : Nat) : Nat := min (field + amount) Config.fieldMax

/-- R164, R168: the addition brings the field to its limit of 2^48 - 1, or would carry it past (notes/assumptions/21.md). -/
def reachesLimit (field amount : Nat) : Bool := decide (Config.fieldMax ≤ field + amount)

/-- R33: a batch completes only when DRAINING or SUSPENDED with no member PENDING. -/
def DrainBatch.complete (b : DrainBatch) : Bool :=
  (b.state == .draining || b.state == .suspended) && b.members.all (fun m => m.result != .pending)

/-- R36: every member PROTECTED. -/
def DrainBatch.allProtected (b : DrainBatch) : Bool := b.members.all (fun m => m.result == .isProtected)

/-- The member entry of a group (R33). -/
def DrainBatch.resultOf (b : DrainBatch) (g : Nat) : Option MemberResult :=
  (b.members.find? (fun m => m.group == g)).map (·.result)

/-- The groups of the PENDING members in member order (R36, R40, R42). -/
def DrainBatch.pendingGroups (b : DrainBatch) : List Nat :=
  (b.members.filter (fun m => m.result == .pending)).map (·.group)

/-- R180: the class is on in the mask. -/
def Mask.on (m : Mask) : AlarmClass → Bool
  | .groupCongestion => m.groupCongestion
  | .planExhausted => m.planExhausted
  | .carrierHold => m.carrierHold
  | .settlementBacklog => m.settlementBacklog

/-- R191: the mask with one class turned on or off. -/
def Mask.set (m : Mask) (c : AlarmClass) (on : Bool) : Mask :=
  match c with
  | .groupCongestion => { m with groupCongestion := on }
  | .planExhausted => { m with planExhausted := on }
  | .carrierHold => { m with carrierHold := on }
  | .settlementBacklog => { m with settlementBacklog := on }

/-- R104: a call holds its generation, which steps by 1 when its slot becomes FREE. -/
def nextGeneration (generation : Nat) : Nat := (generation + 1) % 256

/-- R134, R137, R175: a generation number and a period number step by 1, from 65,535 to 0. -/
def nextNumber (number : Nat) : Nat := (number + 1) % 65536

end Machine

end Sys2Proof
end

