-- ==== Sys2Proof/Machine/Operands.lean ====
section
/-! DEFINITION. Every form of parameter a request carries: indexes (refused outside their range, never clamped),
numbers that are clamped, named values, digit strings, ranges of circuits, lists of steps, bands and days
(R186, R187, R196 and the rule of each request). -/

namespace Sys2Proof

/-- The value of a named parameter that is present and defined. -/
def Arg.value? {α : Type} : Arg α → Option α
  | .given a => some a
  | .absent => none
  | .undefined => none

/-- R196: the parameter carries a code that is not defined for its field. -/
def Arg.bad {α : Type} : Arg α → Bool
  | .given _ => false
  | .absent => false
  | .undefined => true

/-- The value of a named parameter, or the one that stands. -/
def Arg.orElse {α : Type} (x : Arg α) (standing : α) : α :=
  match x with
  | .given a => a
  | .absent => standing
  | .undefined => standing

/-- The place of a kind in the order PRIMARY, POOL, FINAL. -/
def StepKind.rank : StepKind → Nat
  | .primary => 0
  | .pool => 1
  | .final => 2

/-- R139: some field is present. -/
def TariffFields.any (f : TariffFields) : Bool :=
  f.setupFee.isSome || f.rate0.isSome || f.rate1.isSome || f.rate2.isSome || f.rate3.isSome ||
    f.firstIncrement.isSome || f.nextIncrement.isSome || f.alternatePremium.isSome ||
    f.congestionPremium.isSome || f.cap.isSome

namespace Machine

/-- R187: a clamped parameter is set to the nearer end of its range. -/
def clamp (lo hi x : Nat) : Nat := if x < lo then lo else if hi < x then hi else x

/-- R187: the parameter lies outside its range, so the response carries ADJUSTED. -/
def outside (lo hi x : Nat) : Bool := decide (x < lo) || decide (hi < x)

/-- An optional clamped parameter that is present and outside its range. -/
def outsideOpt (lo hi : Nat) (x : Option Nat) : Bool :=
  match x with
  | some x => outside lo hi x
  | none => false

/-- An optional clamped parameter, or the value that stands when it is absent. -/
def clampOpt (lo hi : Nat) (x : Option Nat) (standing : Nat) : Nat :=
  match x with
  | some x => clamp lo hi x
  | none => standing

/-- OK, or ADJUSTED when a value was clamped (R187). -/
def okOr (adjusted : Bool) : Status := if adjusted then .adjusted else .ok

/-- Every item of a list read by `f`, or none when one cannot be. -/
def readAll {α β : Type} (f : α → Option β) : List α → Option (List β)
  | [] => some []
  | x :: rest =>
    match f x, readAll f rest with
    | some y, some ys => some (y :: ys)
    | _, _ => none

/-- No item of the list stands in it twice. -/
def noRepeat {α : Type} [DecidableEq α] : List α → Bool
  | [] => true
  | x :: rest => decide (x ∉ rest) && noRepeat rest

/-! ## Digits (R48, R51) -/

/-- The string has `lo` to `hi` digits, each 0 to 9. -/
def digitsOk (lo hi : Nat) (ds : List Nat) : Bool :=
  decide (lo ≤ ds.length) && decide (ds.length ≤ hi) && ds.all (fun d => decide (d ≤ 9))

/-! ## Ranges of circuits (R3, R5, R22) -/

/-- The circuit lies in the range. -/
def rangeHas (r : Range) (c : Nat) : Bool := decide (r.first ≤ c) && decide (c < r.first + r.count)

/-- The circuit lies in one of the ranges. -/
def inRanges (rs : List Range) (c : Nat) : Bool := rs.any (fun r => rangeHas r c)

/-- The two ranges share a circuit. -/
def rangesMeet (r t : Range) : Bool :=
  decide (r.first < t.first + t.count) && decide (t.first < r.first + r.count)

/-- R5 check 3: no two ranges share a circuit. -/
def rangesApart : List Range → Bool
  | [] => true
  | r :: rest => rest.all (fun t => !rangesMeet r t) && rangesApart rest

/-- R5 check 3: 1 to 4 ranges, none of count 0, no two of which share a circuit. -/
def rangesWellFormed (rs : List Range) : Bool :=
  decide (1 ≤ rs.length) && decide (rs.length ≤ 4) && rs.all (fun r => decide (r.count ≠ 0)) && rangesApart rs

/-- R5 check 4: every range ends at or below circuit 16,383. -/
def rangesFit (rs : List Range) : Bool := rs.all (fun r => decide (r.first + r.count ≤ Config.circuits))

/-- The circuits of a range, rising. -/
def circuitsOf (r : Range) : List Nat := List.range' r.first r.count

/-- The circuits of several ranges. -/
def circuitsOfAll (rs : List Range) : List Nat := rs.flatMap circuitsOf

/-! ## Plan steps (R64) -/

/-- R64 check 2: the step carries a group, a defined kind and a class. -/
def readStep (a : StepArg) : Option PlanStep :=
  match a.group, a.kind.value?, a.tariffClass with
  | some g, some k, some c => some ⟨g, k, c⟩
  | _, _, _ => none

/-- R64 check 2: 1 to 8 steps are present, each whole. -/
def readSteps (as : List StepArg) : Option (List PlanStep) :=
  if 1 ≤ as.length ∧ as.length ≤ 8 then readAll readStep as else none

/-- R64 check 5: the kinds are in the order PRIMARY, POOL, FINAL. -/
def kindsInOrder : List PlanStep → Bool
  | [] => true
  | [_] => true
  | x :: y :: rest => decide (x.kind.rank ≤ y.kind.rank) && kindsInOrder (y :: rest)

/-- R64 check 6: no group appears in two steps. -/
def groupsDistinct (steps : List PlanStep) : Bool := noRepeat (steps.map (·.group))

/-! ## Call causes and tariff fields -/

/-- R113, R115: the causes that a REATTEMPT or a RELEASE may carry. -/
def callCause (c : Arg Cause) : Option Cause :=
  match c with
  | .given .normal => some .normal
  | .given .farRefused => some .farRefused
  | .given .farCongested => some .farCongested
  | .given .circuitFault => some .circuitFault
  | _ => none

/-- R132, R139: the entry with the fields present, each clamped to its range. -/
def applyFields (f : TariffFields) (e : TariffEntry) : TariffEntry where
  setupFee := clampOpt 0 Config.rateMax f.setupFee e.setupFee
  rate0 := clampOpt 0 Config.rateMax f.rate0 e.rate0
  rate1 := clampOpt 0 Config.rateMax f.rate1 e.rate1
  rate2 := clampOpt 0 Config.rateMax f.rate2 e.rate2
  rate3 := clampOpt 0 Config.rateMax f.rate3 e.rate3
  firstIncrement := clampOpt 1 600 f.firstIncrement e.firstIncrement
  nextIncrement := clampOpt 1 600 f.nextIncrement e.nextIncrement
  alternatePremium := clampOpt 0 1000 f.alternatePremium e.alternatePremium
  congestionPremium := clampOpt 0 1000 f.congestionPremium e.congestionPremium
  cap := clampOpt 0 Config.capMax f.cap e.cap

/-- R139: some field present was clamped. -/
def fieldsClamped (f : TariffFields) : Bool :=
  outsideOpt 0 Config.rateMax f.setupFee || outsideOpt 0 Config.rateMax f.rate0 ||
    outsideOpt 0 Config.rateMax f.rate1 || outsideOpt 0 Config.rateMax f.rate2 ||
    outsideOpt 0 Config.rateMax f.rate3 || outsideOpt 1 600 f.firstIncrement ||
    outsideOpt 1 600 f.nextIncrement || outsideOpt 0 1000 f.alternatePremium ||
    outsideOpt 0 1000 f.congestionPremium || outsideOpt 0 Config.capMax f.cap

end Machine

end Sys2Proof
end

