-- ==== Sys2Proof/Machine/Ops.lean ====
section
/-! DEFINITION. The reads and writes of the state that every block shares: one home for each record of the spec, read
and written here only. -/

namespace Sys2Proof.Machine

/-! ## Reads -/

/-- R129: the monotonic time that every timer is compared with. -/
def State.now (s : State) : Nat := s.tariff.monotonic

/-- R1: the record of a circuit, absent in UNEQUIPPED. -/
def State.circuit (s : State) (c : Nat) : Option Equipped := s.plant.circuits.get c

/-- R3: the record of a group, absent while it is undefined. -/
def State.group (s : State) (g : Nat) : Option Group := s.plant.groups.get g

/-- R27, R29, R32: the service record of a group. -/
def State.svc (s : State) (g : Nat) : GroupService := s.service.groups.get g

/-- R63: the steps of a plan. -/
def State.plan (s : State) (p : Nat) : List PlanStep := s.routes.plans.get p

/-- R52: a destination record. -/
def State.dest (s : State) (d : Nat) : Destination := s.analyser.destinations.get d

/-- R56: the gap entry of a destination. -/
def State.gap (s : State) (d : Nat) : Option Gap := s.analyser.gaps.get d

/-- R103: a slot of the call table. -/
def State.slot (s : State) (k : Nat) : Slot := s.calls.slots.get k

/-- R104, R106 check 2: the call that a reference names. -/
def State.call (s : State) (r : CallRef) : Option Call :=
  if (s.slot r.slot).generation = r.generation then (s.slot r.slot).call else none

/-- R104: the reference of the call in a slot. -/
def State.refOf (s : State) (k : Nat) : CallRef := ⟨k, (s.slot k).generation⟩

/-- The slots in use, rising. -/
def State.slotsInUse (s : State) : List Nat :=
  s.calls.slots.keys.filter (fun k => (s.slot k).call.isSome)

/-- R165: a carrier record. -/
def State.carrier (s : State) (c : Nat) : Carrier := s.settlement.carriers.get c

/-- R180: a port record. -/
def State.port (s : State) (p : Port) : PortRecord := s.ports.get p

/-- The port is UP (overview 4.4). -/
def State.isUp (s : State) (p : Port) : Bool := (s.port p).state == .up

/-- R4: the idle count of a group, 0 while it is undefined (R3). -/
def State.idleCount (s : State) (g : Nat) : Nat :=
  match s.group g with
  | some r => r.idleCount
  | none => 0

/-- R4: the busy total of a group, 0 while it is undefined (R3). -/
def State.busyTotal (s : State) (g : Nat) : Nat :=
  match s.group g with
  | some r => r.busyTotal
  | none => 0

/-! ## Writes -/

/-- The state with a circuit's record replaced. -/
def State.setCircuit (s : State) (c : Nat) (e : Option Equipped) : State :=
  { s with plant := { s.plant with circuits := s.plant.circuits.set c e } }

/-- The state with a group's record replaced. -/
def State.setGroup (s : State) (g : Nat) (r : Option Group) : State :=
  { s with plant := { s.plant with groups := s.plant.groups.set g r } }

/-- The state with a group's service record replaced. -/
def State.setSvc (s : State) (g : Nat) (v : GroupService) : State :=
  { s with service := { s.service with groups := s.service.groups.set g v } }

/-- The state with the drain batch record replaced. -/
def State.setBatch (s : State) (b : DrainBatch) : State :=
  { s with service := { s.service with batch := b } }

/-- The state with a gap entry replaced. -/
def State.setGap (s : State) (d : Nat) (g : Option Gap) : State :=
  { s with analyser := { s.analyser with gaps := s.analyser.gaps.set d g } }

/-- The state with a slot of the call table replaced. -/
def State.setSlot (s : State) (k : Nat) (v : Slot) : State :=
  { s with calls := { s.calls with slots := s.calls.slots.set k v } }

/-- The state with the record of a slot in use replaced. -/
def State.setCall (s : State) (k : Nat) (c : Call) : State :=
  s.setSlot k { s.slot k with call := some c }

/-- The state with the record of a slot in use changed. -/
def State.changeCall (s : State) (k : Nat) (f : Call → Call) : State :=
  match (s.slot k).call with
  | some c => s.setCall k (f c)
  | none => s

/-- The state with a carrier record replaced. -/
def State.setCarrier (s : State) (c : Nat) (r : Carrier) : State :=
  { s with settlement := { s.settlement with carriers := s.settlement.carriers.set c r } }

/-- The state with the staging record replaced. -/
def State.setStaging (s : State) (t : Staging) : State :=
  { s with tariff := { s.tariff with staging := t } }

/-- The state with a port record replaced. -/
def State.setPort (s : State) (p : Port) (r : PortRecord) : State :=
  { s with ports := s.ports.set p r }

end Sys2Proof.Machine
end

