-- ==== Sys2Proof/Machine/Analysis.lean ====
section
/-! DEFINITION. The number analyser (chapter 3): prefixes, longest match, the destination check and the gap check. -/

namespace Sys2Proof.Machine

/-- R48: a number for each digit string: its digits after a leading 1, so that strings of different length or different
digits have different numbers. -/
def prefixKey (ds : List Nat) : Nat := ds.foldl (fun n d => n * 10 + d) 1

/-- R48: the destination of the entry with exactly this prefix. -/
def State.prefixEntry (s : State) (ds : List Nat) : Option Nat := s.analyser.prefixes.get (prefixKey ds)

/-- R51: the longest entry of at most `n` digits that matches the called digits: its length and destination. -/
def longestUpTo (s : State) (ds : List Nat) : Nat → Option (Nat × Nat)
  | 0 => none
  | n + 1 =>
    if n + 1 ≤ ds.length then
      match s.prefixEntry (ds.take (n + 1)) with
      | some d => some (n + 1, d)
      | none => longestUpTo s ds n
    else longestUpTo s ds n

/-- R51: the longest match of the called digits. -/
def longestMatch (s : State) (ds : List Nat) : Option (Nat × Nat) := longestUpTo s ds 16

/-- R60: whether a call is admitted by the gap check. -/
def gapAdmits (s : State) (d : Nat) (cls : CallClass) : Bool :=
  match cls with
  | .priority => true
  | .normal =>
    match s.gap d with
    | none => true
    | some g => decide (g.nextAdmit ≤ s.now)

/-- R60: what the gap check leaves: the next-admit time moved, or the refusal counted. -/
def afterGapCheck (d : Nat) (cls : CallClass) (s : State) : State :=
  match cls with
  | .priority => s
  | .normal =>
    match s.gap d with
    | none => s
    | some g =>
      if g.nextAdmit ≤ s.now then s.setGap d (some { g with nextAdmit := s.now + g.interval * 100 })
      else s.setGap d (some { g with refused := min (g.refused + 1) Config.refusedMax })

/-- R54: an analysis result. -/
structure Target where
  destination : Nat
  plan : Nat
  matched : Nat
  deriving DecidableEq, Repr

/-- R51, R54: the prefix match and the destination check. -/
def findTarget (s : State) (ds : List Nat) : Except Status Target :=
  match longestMatch s ds with
  | none => .error .noRoute
  | some (n, d) =>
    if (s.dest d).inUse && !(s.dest d).barred then .ok ⟨d, (s.dest d).plan, n⟩ else .error .barred

/-- R57, R59: the expiry of a gap life set now. -/
def lifeExpiryFrom (s : State) (life : Nat) : Option Nat := if life = 0 then none else some (s.now + life * 1000)

/-- R62: one gap as a query shows it. DESIGN CHOICE (notes/assumptions/41.md): the view names its destination, which the rule
does not list among the fields of an entry. -/
def gapView (s : State) (d : Nat) (g : Gap) : GapView where
  destination := d
  interval := g.interval
  life := g.life
  remainingLife := g.lifeExpiry.map (fun x => (x : Int) - (s.now : Int))
  untilAdmit := g.nextAdmit - s.now
  refused := g.refused

end Sys2Proof.Machine
end

