-- ==== Sys2Proof/Machine/Generation.lean ====
section
/-! DEFINITION. Reading a tariff generation (chapter 7, sections 7.1 to 7.3): entries, margins, schedules, the week map,
the band in force, and the bank that a generation number names. -/

namespace Sys2Proof.Machine

/-- R132: the entry of an outbound carrier and a tariff class. -/
def entryKey (carrier tariffClass : Nat) : Nat := carrier * Config.tariffClasses + tariffClass

/-- R132: the tariff entry of a carrier and a class. -/
def Tariffs.entry (t : Tariffs) (carrier tariffClass : Nat) : TariffEntry := t.entries.get (entryKey carrier tariffClass)

/-- R132: a day type's schedule. -/
def Tariffs.schedule (t : Tariffs) : DayType → Table Band .band0
  | .workday => t.workday
  | .restday => t.restday

/-- R140: the generation with a day type's schedule replaced. -/
def Tariffs.setSchedule (t : Tariffs) (d : DayType) (v : Table Band .band0) : Tariffs :=
  match d with
  | .workday => { t with workday := v }
  | .restday => { t with restday := v }

/-- R132: the entry's rate for a band. -/
def TariffEntry.rate (e : TariffEntry) : Band → Nat
  | .band0 => e.rate0
  | .band1 => e.rate1
  | .band2 => e.rate2
  | .band3 => e.rate3

/-- R130: the day of a week time. -/
def dayOf (w : Nat) : Nat := w / Config.day

/-- R130: the half-hour slot of a week time. -/
def slotOf (w : Nat) : Nat := w % Config.day / Config.slotMs

/-- R130: the band of a week time in a generation. -/
def Tariffs.bandAt (t : Tariffs) (w : Nat) : Band := (t.schedule (t.weekMap.get (dayOf w))).get (slotOf w)

/-- R130: the band in force of the device. -/
def bandInForce (s : State) : Band :=
  match s.tariff.weekTime with
  | none => .band0
  | some w => s.tariff.live.tariffs.bandAt w

/-- R135, R150: the contents of the bank whose generation carries a number, live or retired. -/
def tariffsOf (s : State) (number : Nat) : Option Tariffs :=
  if s.tariff.live.number = number then some s.tariff.live.tariffs
  else
    match s.tariff.retired with
    | some b => if b.number = number then some b.tariffs else none
    | none => none

end Sys2Proof.Machine
end

