-- ==== Sys2Proof/Machine/Pricing.lean ====
section
/-! DEFINITION. The pricing engine (chapter 8): the six stages that turn a priced release into a priced result. The engine
holds no state: everything here is a function of the release and of the generation the call was bound to. -/

namespace Sys2Proof.Machine

/-- R149: a priced release. -/
structure PricedRelease where
  call : CallRef
  inCarrier : Nat
  outCarrier : Nat
  inGroup : Nat
  outGroup : Nat
  generation : Nat
  tariffClass : Nat
  stepKind : StepKind
  answered : Nat
  answerWeekTime : Option Nat
  released : Nat
  altPremium : Bool
  congPremium : Bool
  cause : Cause
  forced : Bool
  deriving DecidableEq, Repr

/-- The ceiling of a quotient. -/
def ceilDiv (x y : Nat) : Nat := (x + (y - 1)) / y

/-- R151: the duration before the clamp. -/
def rawDuration (r : PricedRelease) : Nat := r.released - r.answered

/-- R151: the duration after the clamp to 24 h. -/
def durationOf (r : PricedRelease) : Nat := min (rawDuration r) Config.day

/-- R152: stage 1, the conversation seconds. -/
def conversationSeconds (d : Nat) : Nat := ceilDiv d 1000

/-- R153: stage 2, the billed seconds. -/
def billedSeconds (s first next : Nat) : Nat :=
  if s ≤ first then first else first + next * ceilDiv (s - first) next

/-- R154: the segments of a conversation of `rest` ms that starts at a week time: the week time each starts at and its
length. A conversation has at most 49. -/
def segments : Nat → Nat → Nat → List (Nat × Nat)
  | 0, _, _ => []
  | fuel + 1, t, rest =>
    if rest = 0 then []
    else
      let len := min rest (Config.slotMs - t % Config.slotMs)
      (t, len) :: segments fuel ((t + len) % Config.week) (rest - len)

/-- R154: the segments of a conversation. -/
def segmentsOf (t0 d : Nat) : List (Nat × Nat) := segments 50 t0 d

/-- R155 step 1: the ms of the segments that fall in a band. -/
def msInBand (t : Tariffs) (b : Band) (segs : List (Nat × Nat)) : Nat :=
  ((segs.filter (fun x => decide (t.bandAt x.1 = b))).map Prod.snd).sum

/-- R155: the release band: the band of the last segment, or of the slot that holds the answer. -/
def releaseBand (t : Tariffs) (t0 : Nat) (segs : List (Nat × Nat)) : Band :=
  match segs.getLast? with
  | some x => t.bandAt x.1
  | none => t.bandAt t0

/-- R155: the billed seconds of each band. -/
structure BandSeconds where
  band0 : Nat
  band1 : Nat
  band2 : Nat
  band3 : Nat
  deriving DecidableEq, Repr

/-- R155: the sum of the four values. -/
def BandSeconds.sum (x : BandSeconds) : Nat := x.band0 + x.band1 + x.band2 + x.band3

/-- R155 step 3: the remainder is added to one band. -/
def BandSeconds.add (x : BandSeconds) (b : Band) (r : Nat) : BandSeconds :=
  match b with
  | .band0 => { x with band0 := x.band0 + r }
  | .band1 => { x with band1 := x.band1 + r }
  | .band2 => { x with band2 := x.band2 + r }
  | .band3 => { x with band3 := x.band3 + r }

/-- R155 step 2: the whole seconds of each band. -/
def wholeSeconds (t : Tariffs) (segs : List (Nat × Nat)) : BandSeconds :=
  ⟨msInBand t .band0 segs / 1000, msInBand t .band1 segs / 1000, msInBand t .band2 segs / 1000,
    msInBand t .band3 segs / 1000⟩

/-- R154 to R156: stage 3, the billed seconds shared among the bands. -/
def bandSplit (t : Tariffs) (answerWeekTime : Option Nat) (d billed : Nat) : BandSeconds :=
  match answerWeekTime with
  | none => ⟨billed, 0, 0, 0⟩
  | some t0 =>
    let whole := wholeSeconds t (segmentsOf t0 d)
    whole.add (releaseBand t t0 (segmentsOf t0 d)) (billed - whole.sum)

/-- R157: stage 4, the base charge. -/
def baseCharge (e : TariffEntry) (x : BandSeconds) : Nat :=
  e.setupFee + (ceilDiv (x.band0 * e.rate0) 60 + ceilDiv (x.band1 * e.rate1) 60 + ceilDiv (x.band2 * e.rate2) 60 +
    ceilDiv (x.band3 * e.rate3) 60)

/-- R158: the multiplier in per mille. -/
def multiplier (e : TariffEntry) (alternate congestion : Bool) : Nat :=
  1000 + (if alternate then e.alternatePremium else 0) + (if congestion then e.congestionPremium else 0)

/-- R158, R160: an amount raised by per mille and rounded half up to a whole su. -/
def perMille (amount m : Nat) : Nat := (amount * m + 500) / 1000

/-- R158: stage 5 before the cap. -/
def handover (e : TariffEntry) (x : BandSeconds) (alternate congestion : Bool) : Nat :=
  perMille (baseCharge e x) (multiplier e alternate congestion)

/-- R159: the cap acts. -/
def capActs (e : TariffEntry) (h : Nat) : Bool := decide (0 < e.cap) && decide (e.cap < h)

/-- R159: the handover charge after the cap. -/
def cappedCharge (e : TariffEntry) (h : Nat) : Nat := if capActs e h then e.cap else h

/-- R160: stage 6, the payable. -/
def payableOf (outCarrier h : Nat) : Nat := if outCarrier = 0 then 0 else h

/-- R160: stage 6, the receivable. -/
def receivableOf (inCarrier h margin : Nat) : Nat := if inCarrier = 0 then 0 else perMille h (1000 + margin)

/-- R149 to R162: a priced release is turned into a priced result under the generation it is bound to. -/
def price (t : Tariffs) (r : PricedRelease) : PricedResult :=
  let e := t.entry r.outCarrier r.tariffClass
  let d := durationOf r
  let b := billedSeconds (conversationSeconds d) e.firstIncrement e.nextIncrement
  let x := bandSplit t r.answerWeekTime d b
  let h0 := handover e x r.altPremium r.congPremium
  let h := cappedCharge e h0
  { call := r.call
    inCarrier := r.inCarrier
    outCarrier := r.outCarrier
    inGroup := r.inGroup
    outGroup := r.outGroup
    generation := r.generation
    tariffClass := r.tariffClass
    stepKind := r.stepKind
    answerWeekTime := r.answerWeekTime
    duration := d
    billed := b
    seconds0 := x.band0
    seconds1 := x.band1
    seconds2 := x.band2
    seconds3 := x.band3
    payable := payableOf r.outCarrier h
    receivable := receivableOf r.inCarrier h (t.margins.get r.inCarrier)
    cause := r.cause
    flags :=
      { timeUnset := r.answerWeekTime.isNone
        durationClamped := decide (Config.day < rawDuration r)
        capped := capActs e h0
        altPremium := r.altPremium
        congPremium := r.congPremium
        forced := r.forced } }

/-- R150, R162: a priced release is priced under the bound generation, and the result is handed to the settlement unit
unless both carriers are 0. -/
def priceRelease (r : PricedRelease) (s : State) : State :=
  match tariffsOf s r.generation with
  | none => s
  | some t =>
    if r.inCarrier = 0 ∧ r.outCarrier = 0 then s
    else { s with settlement := { s.settlement with handed := s.settlement.handed ++ [price t r] } }

end Sys2Proof.Machine
end

