-- ==== Sys2Proof/Machine/Memory.lean ====
section
/-! DEFINITION. The alternate-route memory (chapter 5): lookup, allocation by price, outcomes and invalidation. -/

namespace Sys2Proof.Machine

/-- R89: the set of a destination. -/
def setOf (d : Nat) : Nat := d % Config.memorySets

/-- R89: the tag of a destination. -/
def tagOf (d : Nat) : Nat := d / Config.memorySets

/-- R88: a set of the route memory. -/
def State.memorySet (s : State) (k : Nat) : MemorySet := s.memory.sets.get k

/-- The state with a set of the route memory replaced. -/
def State.setMemorySet (s : State) (k : Nat) (m : MemorySet) : State :=
  { s with memory := { s.memory with sets := s.memory.sets.set k m } }

/-- R91: the way of a set whose valid entry carries a tag, with that entry. -/
def findTag (tag : Nat) : List (Option MemoryEntry) → Nat → Option (Nat × MemoryEntry)
  | [], _ => none
  | some e :: rest, way => if e.tag = tag then some (way, e) else findTag tag rest (way + 1)
  | none :: rest, way => findTag tag rest (way + 1)

/-- R89: the valid entry of a destination, with its way. -/
def entryOf (s : State) (d : Nat) : Option (Nat × MemoryEntry) := findTag (tagOf d) (s.memorySet (setOf d)).ways 0

/-- The steps of a list with their step indexes. -/
def indexed : List PlanStep → Nat → List (Nat × PlanStep)
  | [], _ => []
  | st :: rest, i => (i, st) :: indexed rest (i + 1)

/-- R63: the POOL steps of a plan with their indexes, in index order. -/
def poolSteps (steps : List PlanStep) : List (Nat × PlanStep) :=
  (indexed steps 0).filter (fun x => decide (x.2.kind = .pool))

/-- R94: the rate that an allocation reads for a POOL step; a step whose group is undefined has none. -/
def poolRate (s : State) (st : PlanStep) : Option Nat :=
  match s.group st.group with
  | none => none
  | some g => some ((s.tariff.live.tariffs.entry g.carrier st.tariffClass).rate (bandInForce s))

/-- R94: the cheapest of some steps, the lowest index of those that share the lowest rate. -/
def cheapest (s : State) : List (Nat × PlanStep) → Option (Nat × Nat)
  | [] => none
  | (i, st) :: rest =>
    match poolRate s st, cheapest s rest with
    | none, best => best
    | some r, none => some (i, r)
    | some r, some (j, q) => if r ≤ q then some (i, r) else some (j, q)

/-- R94: the member an allocation chooses from a plan's POOL steps. -/
def chooseMember (s : State) (plan : Nat) : Nat :=
  match cheapest s (poolSteps (s.plan plan)) with
  | some (i, _) => i
  | none =>
    match poolSteps (s.plan plan) with
    | (i, _) :: _ => i
    | [] => 0

/-- R93: where a new entry goes: the lowest invalid way, or the way at the pointer. -/
def freeWay : List (Option MemoryEntry) → Nat → Option Nat
  | [], _ => none
  | none :: _, way => some way
  | some _ :: rest, way => freeWay rest (way + 1)

/-- R93: an entry is put into a set. -/
def placeEntry (m : MemorySet) (e : MemoryEntry) : MemorySet :=
  match freeWay m.ways 0 with
  | some way => { m with ways := m.ways.set way (some e) }
  | none => { ways := m.ways.set m.pointer (some e), pointer := (m.pointer + 1) % 4 }

/-- R93: an allocation for a destination and a plan. -/
def allocate (d plan : Nat) (s : State) : State :=
  s.setMemorySet (setOf d) (placeEntry (s.memorySet (setOf d)) ⟨tagOf d, plan, chooseMember s plan, 2⟩)

/-- R75, R91, R92: the answers to a lookup. -/
inductive Lookup where
  | hit (member : Nat)
  | allocated (member : Nat)
  | gapped
  | plansDiffer
  deriving DecidableEq, Repr

/-- R91, R92: how a lookup for a destination and a plan is answered. -/
def lookup (s : State) (d plan : Nat) : Lookup :=
  match entryOf s d with
  | some (_, e) => if e.plan = plan then .hit e.member else .plansDiffer
  | none =>
    if (s.dest d).plan ≠ plan then .plansDiffer
    else if (s.gap d).isSome then .gapped
    else .allocated (chooseMember s plan)

/-- R91 to R93: what a lookup leaves: an allocation, or the memory as it was. -/
def afterLookup (d plan : Nat) (s : State) : State :=
  match lookup s d plan with
  | .allocated _ => allocate d plan s
  | _ => s

/-- R97: the POOL step after a member, from the last back to the first. -/
def nextMember (steps : List PlanStep) (member : Nat) : Nat :=
  match (poolSteps steps).find? (fun x => decide (member < x.1)) with
  | some (i, _) => i
  | none =>
    match poolSteps steps with
    | (i, _) :: _ => i
    | [] => member

/-- R97: a failure acts on an entry by its confidence. -/
def failEntry (steps : List PlanStep) (e : MemoryEntry) : MemoryEntry :=
  if e.confidence = 0 then { e with member := nextMember steps e.member, confidence := 2 }
  else { e with confidence := e.confidence - 1 }

/-- R98: a success raises the confidence, to 4 at most. -/
def succeedEntry (e : MemoryEntry) : MemoryEntry := { e with confidence := min (e.confidence + 1) 4 }

/-- R96: an outcome is applied to the destination's entry when plan and member match, and dropped otherwise. -/
def outcome (f : MemoryEntry → MemoryEntry) (d plan step : Nat) (s : State) : State :=
  match entryOf s d with
  | none => s
  | some (way, e) =>
    if e.plan = plan ∧ e.member = step then
      s.setMemorySet (setOf d)
        { s.memorySet (setOf d) with ways := (s.memorySet (setOf d)).ways.set way (some (f e)) }
    else s

/-- R97: a failure outcome is taken. -/
def failureOutcome (d plan step : Nat) (s : State) : State := outcome (failEntry (s.plan plan)) d plan step s

/-- R98: a success outcome is taken. -/
def successOutcome (d plan step : Nat) (s : State) : State := outcome succeedEntry d plan step s

/-- R99: the entries of a set that `gone` holds of are invalidated; the pointer stays. -/
def dropEntries (gone : MemoryEntry → Bool) (m : MemorySet) : MemorySet :=
  { m with
    ways := m.ways.map (fun w =>
      match w with
      | some e => if gone e then none else some e
      | none => none) }

/-- R99: the valid entries, in any set, that `gone` holds of are invalidated. -/
def invalidate (gone : MemoryEntry → Bool) (s : State) : State :=
  { s with memory := { s.memory with sets := s.memory.sets.mapValues (fun _ m => dropEntries gone m) } }

/-- R99: WRITE_PLAN invalidates every entry that records the plan. -/
def invalidatePlan (plan : Nat) (s : State) : State := invalidate (fun e => e.plan == plan) s

/-- R99: WRITE_DEST invalidates the destination's entry. -/
def invalidateDestination (d : Nat) (s : State) : State :=
  s.setMemorySet (setOf d) (dropEntries (fun e => e.tag == tagOf d) (s.memorySet (setOf d)))

/-- R99, R100: every entry is invalidated. -/
def invalidateAll (s : State) : State := invalidate (fun _ => true) s

/-- R100: the number of valid entries. -/
def validEntries (s : State) : Nat :=
  (s.memory.sets.entries.map (fun e => (e.2.ways.filter Option.isSome).length)).sum

end Sys2Proof.Machine
end

