-- ==== Sys2Proof/Machine/Notices.lean ====
section
/-! DEFINITION. The notice engine (chapter 10, sections 10.5 to 10.7): event notices, alarm sources and their scan, and
the release of responses held behind a SYNC. -/

namespace Sys2Proof.Machine

/-! ## Event notices (R188, R189) -/

/-- R188: an event notice made for one port: queued, dropped and counted, or discarded. -/
def notify (p : Port) (n : Notice) (s : State) : State :=
  let r := s.port p
  match r.state with
  | .down => s
  | _ =>
    if r.notices.length < Config.noticeQueue then s.setPort p { r with notices := r.notices ++ [n] }
    else s.setPort p { r with drops := min (r.drops + 1) Config.dropMax }

/-- R188: one copy for each of the ports that is UP. -/
def notifyUp (ps : List Port) (n : Notice) (s : State) : State :=
  ps.foldl (fun s p => if s.isUp p then notify p n s else s) s

/-- R188: a notice to all UP ports. -/
def notifyAllUp (n : Notice) (s : State) : State := notifyUp allPorts n s

/-- R182 to R184: a notice to every other UP port. -/
def notifyOthersUp (p : Port) (n : Notice) (s : State) : State := notifyUp (allPorts.filter (fun q => decide (q ≠ p))) n s

/-! ## Alarm sources (R180, R190) -/

/-- R180: how many sources a class has. -/
def AlarmSource.count : AlarmClass → Nat
  | .groupCongestion => Config.groups
  | .planExhausted => Config.plans
  | .carrierHold => Config.carriers
  | .settlementBacklog => 1

/-- R190: the place of a source in scan order, 0 to 1,344. -/
def AlarmSource.index (a : AlarmSource) : Nat :=
  match a.cls with
  | .groupCongestion => a.number
  | .planExhausted => 256 + a.number
  | .carrierHold => 1280 + a.number
  | .settlementBacklog => 1344 + a.number

/-- The classes in scan order (R190). -/
def allClasses : List AlarmClass := [.groupCongestion, .planExhausted, .carrierHold, .settlementBacklog]

/-- The sources of a class, by number. -/
def sourcesOf (c : AlarmClass) : List AlarmSource := (List.range (AlarmSource.count c)).map (fun n => ⟨c, n⟩)

/-- Section 10.6: the current level of a source. -/
def State.level (s : State) (a : AlarmSource) : Nat := s.levels.get a.index

/-- R190: the source is pending on the port. -/
def pendingOn (s : State) (p : Port) (a : AlarmSource) : Bool :=
  let r := s.port p
  r.state == .up && r.mask.on a.cls && !(r.alarms.get a.index).outstanding &&
    s.level a != (r.alarms.get a.index).lastSent

/-- R190: the notice queue has a free place and the drop count is 0. -/
def alarmRoom (r : PortRecord) : Bool := decide (r.notices.length < Config.noticeQueue) && r.drops == 0

/-- R193: a SYNC that noted the source while it was pending now waits until the notice at place `place` has left. -/
def markQueued (a : AlarmSource) (place : Nat) (h : Held) : Held :=
  match h.wait with
  | none => h
  | some w =>
    { h with
      wait := some { w with sources := w.sources.map (fun n => if n.source = a ∧ n.sends = none then { n with sends := some place } else n) } }

/-- R190: a source is queued: the notice carries the level now, and the port's record takes it. -/
def queueAlarm (p : Port) (a : AlarmSource) (s : State) : State :=
  let r := s.port p
  s.setPort p
    { r with
      notices := r.notices ++ [.alarm a (s.level a)]
      alarms := r.alarms.set a.index ⟨s.level a, true⟩
      held := r.held.map (markQueued a (r.notices.length + 1)) }

/-- R190: the test of one source. -/
def testSource (p : Port) (s : State) (a : AlarmSource) : State :=
  if pendingOn s p a && alarmRoom (s.port p) then queueAlarm p a s else s

/-- R190: the test of the sources of one class, passed over while the class is masked. -/
def scanClass (p : Port) (s : State) (c : AlarmClass) : State :=
  if (s.port p).mask.on c then (sourcesOf c).foldl (testSource p) s else s

/-- R190: the test of every source on a port, in scan order. A port that is not UP, or whose queue has no room, has
nothing to queue. -/
def scanPort (p : Port) (s : State) : State :=
  if s.isUp p && alarmRoom (s.port p) then allClasses.foldl (scanClass p) s else s

/-! ## Held responses (R193) -/

/-- R193: a noted source that has ceased to be pending without being queued is no longer waited for. -/
def dropCeased (s : State) (p : Port) (h : Held) : Held :=
  match h.wait with
  | none => h
  | some w =>
    { h with wait := some { w with sources := w.sources.filter (fun n => n.sends.isSome || pendingOn s p n.source) } }

/-- R193: one notice has left the queue. -/
def countSent (h : Held) : Held :=
  match h.wait with
  | none => h
  | some w =>
    { h with
      wait := some
        { unsent := w.unsent - 1
          sources := (w.sources.map (fun n => { n with sends := n.sends.map (· - 1) })).filter (fun n => n.sends != some 0) } }

/-- R193: the held response waits for nothing itself. -/
def Held.ready (h : Held) : Bool :=
  match h.wait with
  | none => true
  | some w => w.unsent == 0 && w.sources.isEmpty

/-- R193: the responses that no SYNC holds any more go to the link, in order. -/
def releaseHeld (r : PortRecord) : PortRecord :=
  { r with
    outbox := r.outbox ++ (r.held.takeWhile Held.ready).map (·.response)
    held := r.held.dropWhile Held.ready }

/-- R193: after a change of what is pending or sent, the held responses of a port are looked at again. -/
def settleSync (p : Port) (s : State) : State :=
  let r := s.port p
  s.setPort p (releaseHeld { r with held := r.held.map (dropCeased s p) })

/-- R190: the test of a port after an event of R190, and R193's look at the held responses. -/
def rescan (p : Port) (s : State) : State := settleSync p (scanPort p s)

/-- Section 10.6: an owning block reports the level of a source. -/
def reportLevel (a : AlarmSource) (level : Nat) (s : State) : State :=
  allPorts.foldl (fun s p => rescan p s) { s with levels := s.levels.set a.index level }

/-- R189: a freed place goes to a NOTICE_OVERFLOW when the drop count is above 0. -/
def fillOverflow (r : PortRecord) : PortRecord :=
  if r.drops = 0 then r else { r with notices := r.notices ++ [.noticeOverflow r.drops], drops := 0 }

/-- R188, R189, R190, R193: the oldest notice of a port has been sent on the link. -/
def noticeLeft (p : Port) (s : State) : State :=
  let r := s.port p
  match r.notices with
  | [] => s
  | _ :: rest => rescan p (s.setPort p (fillOverflow { r with notices := rest, held := r.held.map countSent }))

end Sys2Proof.Machine
end

