-- ==== Sys2Proof/Machine/Service.lean ====
section
/-! DEFINITION. The group service controller (chapter 2): plan exhaustion, the derivation of congestion, the drain batch
and the reports of the plant store that drive them. -/

namespace Sys2Proof.Machine

/-! ## Plan exhaustion (R45, R46) -/

/-- R45: the group has room. -/
def hasRoom (s : State) (g : Nat) : Bool :=
  (s.group g).isSome && (s.svc g).congestion != .full && (s.svc g).service.takesTraffic

/-- R45: the plan holds a step and no step of it names a group that has room. -/
def planExhausted (s : State) (p : Nat) : Bool :=
  !(s.plan p).isEmpty && (s.plan p).all (fun st => !hasRoom s st.group)

/-- R46: one plan is re-evaluated; a level that differs is reported. -/
def evaluatePlan (s : State) (p : Nat) : State :=
  let now := planExhausted s p
  if now = s.service.exhausted.get p then s
  else
    reportLevel ⟨.planExhausted, p⟩ (levelOf now)
      { s with service := { s.service with exhausted := s.service.exhausted.set p now } }

/-- R45: the plans in the sets of some groups, each once, by number. -/
def plansOf (s : State) (gs : List Nat) : List Nat :=
  gs.foldl (fun acc g => (s.service.planSets.get g).foldl (fun acc p => insertNumber p acc) acc) []

/-- R45: what about a group makes its plans be re-evaluated when it changes: whether it is defined, whether it is FULL,
and whether it is DRAINING or OUT_OF_SERVICE. -/
def roomFacts (s : State) (g : Nat) : Option (Bool × Option ServiceState) :=
  if (s.group g).isSome then
    some ((s.svc g).congestion == .full,
      if (s.svc g).service.takesTraffic then none else some (s.svc g).service)
  else none

/-- R45: after an event on some groups, each plan in the sets of the groups that changed is evaluated on the state
after the event. -/
def reevaluate (gs : List Nat) (before s : State) : State :=
  (plansOf s (gs.filter (fun g => decide (roomFacts before g ≠ roomFacts s g)))).foldl evaluatePlan s

/-- R32, R45: a group's service state changes. -/
def setService (g : Nat) (v : ServiceState) (s : State) : State := s.setSvc g { s.svc g with service := v }

/-! ## Congestion (R27, R28) -/

/-- R28: a group's congestion state is derived; a change is reported as its level. -/
def deriveCongestion (s : State) (g : Nat) : State :=
  match s.group g with
  | none => s
  | some r =>
    let next := nextCongestion (s.svc g).congestion r.idleCount r.threshold r.hysteresis
    if next = (s.svc g).congestion then s
    else reportLevel ⟨.groupCongestion, g⟩ next.level (s.setSvc g { s.svc g with congestion := next })

/-- R28: the derivation made at SET_GROUP_PARAMS, with its re-evaluation of plans. -/
def rederive (g : Nat) (s : State) : State := reevaluate [g] s (deriveCongestion s g)

/-! ## The drain batch (R33 to R42) -/

/-- R38: the contributors that are UP. -/
def upContributors (s : State) : List Port := allPorts.filter (fun p => s.service.batch.contributors.get p)

/-- R38: the batch completes: DRAIN_DONE to each contributor that is UP, and the record returns to NONE. -/
def completeBatch (s : State) : State :=
  let b := s.service.batch
  (notifyUp (upContributors s)
    (.drainDone b.members (b.members.countP (fun m => m.result == .drained))) s).setBatch .empty

/-- R33, R37, R38: the batch completes when it is DRAINING or SUSPENDED and no member is PENDING. -/
def completeIfDone (s : State) : State := if s.service.batch.complete then completeBatch s else s

/-- R33: the entry of a group takes a result. -/
def setResult (g : Nat) (v : MemberResult) (s : State) : State :=
  s.setBatch
    { s.service.batch with
      members := s.service.batch.members.map (fun m => if m.group = g then { m with result := v } else m) }

/-- R37: the member test, with the completion that may follow it. -/
def memberTest (s : State) (g : Nat) : State :=
  if s.service.batch.state = .draining ∧ s.service.batch.resultOf g = some .pending ∧ s.busyTotal g = 0 then
    completeIfDone (reevaluate [g] s (setService g .outOfService (setResult g .drained s)))
  else s

/-- R36: the join window closes, by its expiry or by a request other than DRAIN_SUSPEND. -/
def closeWindow (s : State) : State :=
  let b := s.service.batch
  if b.state ≠ .forming then s
  else if b.allProtected then completeBatch s
  else
    completeIfDone
      (b.pendingGroups.foldl memberTest
        (s.setBatch
          { b with
            state := .draining
            windowExpiry := none
            deadlineExpiry := if b.deadline = 0 then none else some (s.now + b.deadline * 1000) }))

/-! ## Reports of the plant store (R4) -/

/-- R4: the group's idle count or busy total differs between two states. -/
def countsMoved (before s : State) (g : Nat) : Bool :=
  s.idleCount g != before.idleCount g || s.busyTotal g != before.busyTotal g

/-- R4: the controller takes one report for each of some groups: it derives their congestion, re-evaluates the plans
that name them on the state after the event (`before` is the state before it), and tests draining members. -/
def takeReports (gs : List Nat) (before s : State) : State :=
  gs.foldl memberTest (reevaluate gs before (gs.foldl deriveCongestion s))

/-- R4: the report of each group whose idle count or busy total an event changed. -/
def report (gs : List Nat) (before s : State) : State :=
  takeReports (gs.filter (countsMoved before s)) before s

/-! ## Far-end level (R29) -/

/-- R29: a group takes a far-end report of a level 0 to 3. -/
def farReport (g level : Nat) (s : State) : State :=
  match s.group g with
  | none => s
  | some r =>
    s.setSvc g
      { s.svc g with
        farLevel := level
        decayExpiry := if level = 0 then none else some (s.now + r.decay * 1000) }

end Sys2Proof.Machine
end

