-- ==== Sys2Proof/Machine/Plant.lean ====
section
/-! DEFINITION. The plant store (chapter 1): how a change of a circuit moves its group's idle set and counts, outbound
and inbound seizure, glare, undo, release, guard expiry, and the rebuilding of a group. -/

namespace Sys2Proof.Machine

/-! ## Idle set and counts (R2) -/

/-- R2: a circuit leaves the count it was in, and the idle set when it was available. -/
def Group.leave (c : Nat) (k : Condition) (g : Group) : Group :=
  match k with
  | .available => { g with available := g.available - 1, idleSet := removeNumber c g.idleSet }
  | .blockedIdle => { g with blockedIdle := g.blockedIdle - 1 }
  | .busyIn => { g with busyIn := g.busyIn - 1 }
  | .busyOut => { g with busyOut := g.busyOut - 1 }
  | .inGuard => { g with inGuard := g.inGuard - 1 }

/-- R2: a circuit joins a count, and the idle set when it becomes available. -/
def Group.join (c : Nat) (k : Condition) (g : Group) : Group :=
  match k with
  | .available => { g with available := g.available + 1, idleSet := insertNumber c g.idleSet }
  | .blockedIdle => { g with blockedIdle := g.blockedIdle + 1 }
  | .busyIn => { g with busyIn := g.busyIn + 1 }
  | .busyOut => { g with busyOut := g.busyOut + 1 }
  | .inGuard => { g with inGuard := g.inGuard + 1 }

/-- R2: a circuit moves from one count to another; within one count nothing moves. -/
def Group.move (c : Nat) (old new : Condition) (g : Group) : Group :=
  if old = new then g else (g.leave c old).join c new

/-- R2: a circuit's record changes, and its group's idle set and counts with it. -/
def changeCircuit (c : Nat) (f : Equipped → Equipped) (s : State) : State :=
  match s.circuit c with
  | none => s
  | some e =>
    let s1 := s.setCircuit c (some (f e))
    match s.group e.group with
    | none => s1
    | some g => s1.setGroup e.group (some (g.move c e.condition (f e).condition))

/-- R4: one circuit's record changes, and its group makes the report that the change calls for. -/
def changeAndReport (c : Nat) (f : Equipped → Equipped) (s : State) : State :=
  match s.circuit c with
  | none => s
  | some e => report [e.group] s (changeCircuit c f s)

/-- The circuits of a group, in circuit-number order. -/
def groupCircuits (s : State) (g : Nat) : List (Nat × Equipped) :=
  s.plant.circuits.entries.filterMap (fun e =>
    match e.2 with
    | some x => if x.group = g then some (e.1, x) else none
    | none => none)

/-- R2: the circuits of a list that stand in one condition. -/
def inCondition (k : Condition) (cs : List (Nat × Equipped)) : List (Nat × Equipped) :=
  cs.filter (fun e => decide (e.2.condition = k))

/-- R6, R7, R26: the idle set and the counts are rebuilt from the circuits as they stand. -/
def rebuild (s : State) (g : Nat) : State :=
  match s.group g with
  | none => s
  | some r =>
    let cs := groupCircuits s g
    s.setGroup g
      (some
        { r with
          idleSet := (inCondition .available cs).map Prod.fst
          available := (inCondition .available cs).length
          blockedIdle := (inCondition .blockedIdle cs).length
          busyIn := (inCondition .busyIn cs).length
          busyOut := (inCondition .busyOut cs).length
          inGuard := (inCondition .inGuard cs).length })

/-- R5 check 6, R9 check 4: some circuit of the group is BUSY_IN, BUSY_OUT or GUARD. -/
def groupInUse (s : State) (g : Nat) : Bool := (groupCircuits s g).any (fun e => e.2.inUse)

/-- R5 check 7: some circuit of the ranges belongs to another defined group. -/
def assignedElsewhere (s : State) (g : Nat) (rs : List Range) : Bool :=
  s.plant.circuits.entries.any (fun e =>
    match e.2 with
    | some x => inRanges rs e.1 && decide (x.group ≠ g)
    | none => false)

/-- R6, R7: the circuits of the new ranges that are UNEQUIPPED become IDLE in the group with both flags clear. -/
def equip (g : Nat) (rs : List Range) (s : State) : State :=
  (circuitsOfAll rs).foldr
    (fun c s =>
      match s.circuit c with
      | some _ => s
      | none => s.setCircuit c (some ⟨g, false, false, .idle⟩))
    s

/-- R7, R9: the circuits of the group that lie outside the given ranges become UNEQUIPPED. -/
def unequip (g : Nat) (kept : List Range) (s : State) : State :=
  { s with
    plant :=
      { s.plant with
        circuits :=
          s.plant.circuits.mapValues (fun c e =>
            match e with
            | some x => if x.group = g ∧ inRanges kept c = false then none else some x
            | none => none) } }

/-! ## Outbound seizure (R12 to R14) -/

/-- R13: the circuit the hunt mode picks from the idle set. -/
def pickCircuit (g : Group) : Option Nat :=
  match g.hunt with
  | .firstUp => g.idleSet.head?
  | .firstDown => g.idleSet.getLast?
  | .rotate =>
    match g.lastSeized with
    | none => g.idleSet.head?
    | some m =>
      match g.idleSet.find? (fun c => decide (m < c)) with
      | some c => some c
      | none => g.idleSet.head?

/-- R12: the checks of an outbound seizure on a defined group. -/
def seizable (s : State) (gn : Nat) (g : Group) (cls : CallClass) (kind : StepKind) : Bool :=
  g.direction.allowsOutbound && (s.svc gn).service.takesTraffic && !g.idleSet.isEmpty &&
    farEndAllows cls kind (s.svc gn).farLevel g.idleCount g.threshold

/-- R14: what a successful outbound seizure hands back. -/
structure Seized where
  circuit : Nat
  carrier : Nat
  congestion : Congestion
  deriving DecidableEq, Repr

/-- R14: the last-seized circuit becomes this circuit. -/
def markSeized (gn c : Nat) (s : State) : State :=
  match s.group gn with
  | some g => s.setGroup gn (some { g with lastSeized := some c })
  | none => s

/-- R14: the picked circuit becomes BUSY_OUT with the call's reference, and the group makes its report. -/
def occupyOut (gn c : Nat) (call : CallRef) (s : State) : State :=
  report [gn] s (markSeized gn c (changeCircuit c (fun e => { e with occupancy := .busyOut call }) s))

/-- R12, R13: the circuit an outbound seizure takes, with what it hands back, when the checks pass. -/
def outboundPick (s : State) (gn : Nat) (cls : CallClass) (kind : StepKind) : Option Seized :=
  match s.group gn with
  | none => none
  | some g =>
    if seizable s gn g cls kind then
      match pickCircuit g with
      | some c => some ⟨c, g.carrier, (s.svc gn).congestion⟩
      | none => none
    else none

/-! ## Inbound seizure and glare (R15 to R19) -/

/-- R16, R19: the condition the circuit was in before an inbound seizure. -/
inductive Former where
  | wasIdle
  | wasGuard (expiry : Nat)
  | yielded
  deriving DecidableEq, Repr

/-- R15, R17: how an inbound seizure is decided. -/
inductive InboundDecision where
  | refused (status : Status)
  | accepted (former : Former)
  | yields (displaced : CallRef)
  deriving DecidableEq, Repr

/-- R15 rows 6 and 7: the owning call is PROCEEDING or ANSWERED. A call whose walk has just seized counts as ROUTED
(R78). -/
def ownerHoldsFirmly (s : State) (call : CallRef) : Bool :=
  match s.call call with
  | some c => c.state == .proceeding || c.state == .answered
  | none => false

/-- R15 rows 4 to 8, R17: the rows that depend on the circuit. -/
def decideCircuit (s : State) (c : Nat) (e : Equipped) (rule : GlareRule) : InboundDecision :=
  if e.blocked then .refused .circuitBlocked
  else
    match e.occupancy with
    | .busyIn _ => .refused .circuitBusy
    | .busyOut call =>
      if ownerHoldsFirmly s call then .refused .circuitBusy
      else if rule.wins c then .refused .glare
      else .yields call
    | .idle => .accepted .wasIdle
    | .guard x => .accepted (.wasGuard x)

/-- R15: the checks of an inbound seizure, in their order. -/
def decideInbound (s : State) (c : Nat) : InboundDecision :=
  match s.circuit c with
  | none => .refused .groupUnavailable
  | some e =>
    match s.group e.group with
    | none => .refused .groupUnavailable
    | some g =>
      if g.direction = .outOnly then .refused .wrongDirection
      else if (s.svc e.group).service.takesTraffic = false then .refused .groupUnavailable
      else decideCircuit s c e g.glare

/-- R16, R18: the circuit becomes BUSY_IN with the new call's reference; a yield moves no count that is reported. -/
def occupyIn (c : Nat) (call : CallRef) (s : State) : State :=
  changeAndReport c (fun e => { e with occupancy := .busyIn call }) s

/-- R118: the call is that of an OFFER in progress, which will lose its leg as soon as its record is kept. -/
def OfferInProgress.displace (call : CallRef) (o : OfferInProgress) : OfferInProgress :=
  if o.ref = call then { o with displaced := true } else o

/-- R118: the record of a call that lost its leg at glare: no outbound fields, the mark set, and a reselection queued. An
OFFER in progress has no record yet, and is marked. -/
def displace (call : CallRef) (s : State) : State :=
  match s.call call with
  | none => { s with calls := { s.calls with offers := s.calls.offers.map (OfferInProgress.displace call) } }
  | some _ =>
    let s1 := s.changeCall call.slot (fun c => { c with leg := none, reselectionPending := true })
    { s1 with calls := { s1.calls with reselections := s1.calls.reselections ++ [call] } }

/-- The guard time of a circuit's group. -/
def guardTimeOf (s : State) (e : Equipped) : Nat :=
  match s.group e.group with
  | some g => g.guardTime
  | none => 0

/-- R20, R19: GUARD for the group's guard time, or IDLE when it is 0. -/
def guardOrIdle (s : State) (e : Equipped) : Occupancy :=
  if guardTimeOf s e = 0 then .idle else .guard (s.now + guardTimeOf s e)

/-- R19: what the circuit becomes when its inbound seizure is undone. -/
def undoneOccupancy (s : State) (e : Equipped) (f : Former) : Occupancy :=
  if e.blocked then .idle
  else
    match f with
    | .wasIdle => .idle
    | .wasGuard x => if s.now < x then .guard x else .idle
    | .yielded => guardOrIdle s e

/-- R19: an inbound seizure is undone. -/
def undoInbound (c : Nat) (f : Former) (s : State) : State :=
  changeAndReport c (fun e => { e with occupancy := undoneOccupancy s e f }) s

/-! ## Release and guard (R20, R21) -/

/-- The circuit is held by the call. -/
def heldBy (e : Equipped) (call : CallRef) : Bool :=
  e.occupancy == .busyIn call || e.occupancy == .busyOut call

/-- R20: the record of a released circuit; a circuit fault sets the local flag in the same step. -/
def releasedRecord (s : State) (fault : Bool) (e : Equipped) : Equipped :=
  let e1 := { e with localFlag := e.localFlag || fault }
  { e1 with occupancy := if e1.blocked then .idle else guardOrIdle s e }

/-- R20: a leg is released. -/
def releaseLeg (c : Nat) (call : CallRef) (fault : Bool) (s : State) : State :=
  match s.circuit c with
  | none => s
  | some e => if heldBy e call then changeAndReport c (releasedRecord s fault) s else s

/-- R21: a guard expiry that has been reached is taken. -/
def expireGuard (c : Nat) (s : State) : State :=
  match s.circuit c with
  | none => s
  | some e =>
    match e.occupancy with
    | .guard x => if x ≤ s.now then changeAndReport c (fun e => { e with occupancy := .idle }) s else s
    | _ => s

/-! ## Blocking (R22, R23) -/

/-- R22, R23: the record with one flag set or cleared. -/
def withFlag (kind : FlagKind) (v : Bool) (e : Equipped) : Equipped :=
  match kind with
  | .localFlag => { e with localFlag := v }
  | .remoteFlag => { e with remoteFlag := v }

/-- The circuits of a block request that are not UNEQUIPPED, rising. -/
def equippedIn (s : State) (r : Range) : List (Nat × Equipped) :=
  s.plant.circuits.entries.filterMap (fun e =>
    match e.2 with
    | some x => if rangeHas r e.1 then some (e.1, x) else none
    | none => none)

/-- The groups of some circuits, each once, by number. -/
def groupsOf (cs : List (Nat × Equipped)) : List Nat := cs.foldl (fun acc e => insertNumber e.2.group acc) []

/-- R22, R23: one flag is set or cleared on every circuit of a range that is not UNEQUIPPED; each group concerned
makes one report. -/
def flagRange (r : Range) (kind : FlagKind) (v : Bool) (s : State) : State :=
  let cs := equippedIn s r
  report (groupsOf cs) s (cs.foldl (fun s e => changeCircuit e.1 (withFlag kind v) s) s)

/-- R22, R23: how many circuits of the range have their flag changed by the request. -/
def flagChanges (s : State) (r : Range) (kind : FlagKind) (v : Bool) : Nat :=
  (equippedIn s r).countP (fun e => decide (withFlag kind v e.2 ≠ e.2))

/-! ## CLEAR_TRAFFIC (R26) -/

/-- The numbers of the defined groups, rising. -/
def definedGroups (s : State) : List Nat := s.plant.groups.keys.filter (fun g => (s.group g).isSome)

/-- R26: the record of a circuit after CLEAR_TRAFFIC: IDLE, with its flags kept. -/
def idleRecord (e : Option Equipped) : Option Equipped := e.map (fun x => { x with occupancy := .idle })

/-- R26: every busy or guard circuit becomes IDLE. -/
def idleAll (s : State) : State :=
  { s with plant := { s.plant with circuits := s.plant.circuits.mapValues (fun _ e => idleRecord e) } }

/-- R26: every busy or guard circuit becomes IDLE, every group is rebuilt, and each makes one report. -/
def clearPlant (s : State) : State :=
  takeReports (definedGroups s) s ((definedGroups s).foldl rebuild (idleAll s))

end Sys2Proof.Machine
end

