-- ==== Sys2Proof/Machine/Routing.lean ====
section
/-! DEFINITION. The route selector (chapter 4): step eligibility, the outbound seizure that a walk asks for, and the
walk with its three parts. -/

namespace Sys2Proof.Machine

/-- What a walk knows of the call it serves (R73, R81, R83). -/
structure WalkCall where
  ref : CallRef
  cls : CallClass
  inGroup : Nat
  destination : Nat
  plan : Nat
  start : Nat
  poolTried : Bool
  memoryFlag : Bool
  deriving DecidableEq, Repr

/-- R79: the new outbound leg that a walk hands the call table. -/
structure NewLeg where
  circuit : Nat
  group : Nat
  carrier : Nat
  stepIndex : Nat
  stepKind : StepKind
  tariffClass : Nat
  congestion : Congestion
  deriving DecidableEq, Repr

/-- What trying a step, or a part of the plan, leaves. -/
structure Tried where
  state : State
  leg : Option NewLeg
  deriving DecidableEq, Repr

/-- R69: the basic conditions on a step. -/
def basicallyEligible (s : State) (inGroup : Nat) (st : PlanStep) : Bool :=
  match s.group st.group with
  | none => false
  | some g =>
    decide (st.group ≠ inGroup) && g.direction.allowsOutbound && (s.svc st.group).service.takesTraffic &&
      decide (0 < g.idleCount)

/-- R70, R71: the far-end and reservation conditions on a step. -/
def farEndEligible (s : State) (cls : CallClass) (st : PlanStep) : Bool :=
  match s.group st.group with
  | none => false
  | some g => farEndAllows cls st.kind (s.svc st.group).farLevel g.idleCount g.threshold

/-- R69 to R71: the step is eligible for the call. -/
def eligible (s : State) (c : WalkCall) (st : PlanStep) : Bool :=
  basicallyEligible s c.inGroup st && farEndEligible s c.cls st

/-- R74, R78: one step is judged and, if eligible, its group is asked for an outbound seizure. -/
def tryStep (c : WalkCall) (i : Nat) (st : PlanStep) (s : State) : Tried :=
  if eligible s c st then
    match outboundPick s st.group c.cls st.kind with
    | some z => ⟨occupyOut st.group z.circuit c.ref s, some ⟨z.circuit, st.group, z.carrier, i, st.kind, st.tariffClass, z.congestion⟩⟩
    | none => ⟨s, none⟩
  else ⟨s, none⟩

/-- R74, R77: steps tried in index order until one seizes a circuit. -/
def trySteps (c : WalkCall) : List (Nat × PlanStep) → State → Tried
  | [], s => ⟨s, none⟩
  | (i, st) :: rest, s =>
    match tryStep c i st s with
    | ⟨s1, some leg⟩ => ⟨s1, some leg⟩
    | ⟨s1, none⟩ => trySteps c rest s1

/-- The steps of one kind at or above the start index, with their indexes (R73). -/
def partSteps (kind : StepKind) (start : Nat) (steps : List PlanStep) : List (Nat × PlanStep) :=
  (indexed steps 0).filter (fun x => decide (x.2.kind = kind) && decide (start ≤ x.1))

/-- R73: part 2 is made: the plan has a pool, the call has not tried one, and a POOL step lies at or above the start. -/
def poolPartMade (c : WalkCall) (steps : List PlanStep) : Bool :=
  !c.poolTried && !(partSteps .pool c.start steps).isEmpty

/-- R75: the choice of the pool try: the step index, and the call's route-memory flag. -/
structure PoolChoice where
  step : Option Nat
  memoryFlag : Bool
  deriving DecidableEq, Repr

/-- R75: the first POOL step of a plan. -/
def firstPool (steps : List PlanStep) : Option Nat := ((poolSteps steps).head?).map Prod.fst

/-- R75: how the pool try is chosen. -/
def poolChoice (s : State) (c : WalkCall) (steps : List PlanStep) : PoolChoice :=
  if (s.dest c.destination).plan = c.plan then
    match lookup s c.destination c.plan with
    | .hit m => ⟨some m, true⟩
    | .allocated m => ⟨some m, true⟩
    | .gapped => ⟨firstPool steps, false⟩
    | .plansDiffer => ⟨firstPool steps, false⟩
  else ⟨firstPool steps, false⟩

/-- R75: the state after the choice: the route memory is asked only when the two plans are the same. -/
def afterChoice (s : State) (c : WalkCall) : State :=
  if (s.dest c.destination).plan = c.plan then afterLookup c.destination c.plan s else s

/-- R75: the try at the chosen step. -/
def tryIndex (c : WalkCall) (steps : List PlanStep) (i : Option Nat) (s : State) : Tried :=
  match i with
  | none => ⟨s, none⟩
  | some i =>
    match steps[i]? with
    | some st => tryStep c i st s
    | none => ⟨s, none⟩

/-- R76: a failed pool try hands the route memory a failure outcome when the call's route-memory flag is set. -/
def handPoolFailure (c : WalkCall) (ch : PoolChoice) (t : Tried) : State :=
  match t.leg, ch.memoryFlag, ch.step with
  | none, true, some i => failureOutcome c.destination c.plan i t.state
  | _, _, _ => t.state

/-- R79, R80: what a walk leaves: the state, a leg or none, and the call's two flags as the walk left them. -/
structure Walked where
  state : State
  leg : Option NewLeg
  poolTried : Bool
  memoryFlag : Bool
  deriving DecidableEq, Repr

/-- R77: the final part. -/
def finalPart (c : WalkCall) (steps : List PlanStep) (poolTried memoryFlag : Bool) (s : State) : Walked :=
  let t := trySteps c (partSteps .final c.start steps) s
  ⟨t.state, t.leg, poolTried, memoryFlag⟩

/-- R75, R76: the pool part, and the final part after a failed try. -/
def poolPart (c : WalkCall) (steps : List PlanStep) (s : State) : Walked :=
  let ch := poolChoice s c steps
  let t := tryIndex c steps ch.step (afterChoice s c)
  match t.leg with
  | some leg => ⟨t.state, some leg, true, ch.memoryFlag⟩
  | none => finalPart c steps true ch.memoryFlag (handPoolFailure c ch t)

/-- R73: the walk over the steps of a plan as they stand when it begins. -/
def walk (c : WalkCall) (steps : List PlanStep) (s : State) : Walked :=
  let t := trySteps c (partSteps .primary c.start steps) s
  match t.leg with
  | some leg => ⟨t.state, some leg, c.poolTried, c.memoryFlag⟩
  | none =>
    if poolPartMade c steps then poolPart c steps t.state
    else finalPart c steps c.poolTried c.memoryFlag t.state

end Sys2Proof.Machine
end

