-- ==== Sys2Proof/Machine/Tariff.lean ====
section
/-! DEFINITION. The tariff store (chapter 7): the tick, binding and lowering, activation, the week clock and the checks
of staging writes. -/

namespace Sys2Proof.Machine

/-! ## Clocks (R129, R130) -/

/-- R130: week time steps from 604,799,999 to 0. -/
def nextWeekTime (w : Nat) : Nat := if w + 1 < Config.week then w + 1 else 0

/-- R129: the monotonic time after a tick; after a tick that finds the 48-bit count full it is a free value. -/
def nextMonotonic (s : State) : Nat :=
  if s.now + 1 < Config.timeLimit then s.now + 1 else (Config.timeAfterFull s.freeDrawn).toNat

/-- How many free values a tick draws. -/
def drawnByTick (s : State) : Nat := if s.now + 1 < Config.timeLimit then 0 else 1

/-! ## Activation (R143, R144) -/

/-- R143: the activation takes place, steps 1 to 6. Without a staging generation there is nothing to activate. -/
def activate (held : Bool) (s : State) : State :=
  match s.tariff.staging.generation with
  | none => s
  | some g =>
    let s1 : State :=
      { s with
        tariff :=
          { s.tariff with retired := some s.tariff.live, live := ⟨g.number, 0, g.tariffs⟩, staging := .empty } }
    notifyAllUp (.tariffActive g.number s.tariff.live.number s.tariff.live.references held) (invalidateAll s1)

/-- R134: the reference count of the retired bank, 0 when it is empty. -/
def retiredReferences (s : State) : Nat :=
  match s.tariff.retired with
  | some b => b.references
  | none => 0

/-- R134: the number of the retired generation, when there is one. -/
def retiredNumber (s : State) : Nat :=
  match s.tariff.retired with
  | some b => b.number
  | none => 0

/-- R143: the number of the staging generation. -/
def stagedNumber (s : State) : Nat :=
  match s.tariff.staging.generation with
  | some g => g.number
  | none => 0

/-- R143: a due activation finds the retired count above 0 and goes HELD. -/
def hold (s : State) : State :=
  let s1 := s.setStaging { s.tariff.staging with state := .held, target := none, advance := none }
  match s.tariff.staging.holder with
  | some p => notify p (.activationHeld (stagedNumber s) (retiredNumber s) (retiredReferences s)) s1
  | none => s1

/-- R143: a due activation is decided by the retired bank's reference count. -/
def takeDue (s : State) : State := if retiredReferences s = 0 then activate false s else hold s

/-! ## References (R135) -/

/-- R135: an answered call is bound: the live count goes up by 1. -/
def bindLive (s : State) : State :=
  { s with tariff := { s.tariff with live := { s.tariff.live with references := s.tariff.live.references + 1 } } }

/-- R135, R144: a lowering, with the held activation that the retired count's fall to 0 lets take place. -/
def lower (number : Nat) (s : State) : State :=
  if s.tariff.live.number = number then
    { s with tariff := { s.tariff with live := { s.tariff.live with references := s.tariff.live.references - 1 } } }
  else
    match s.tariff.retired with
    | none => s
    | some b =>
      if b.number = number then
        let s1 : State :=
          { s with tariff := { s.tariff with retired := some { b with references := b.references - 1 } } }
        if b.references - 1 = 0 ∧ s.tariff.staging.state = .held then activate true s1 else s1
      else s

/-! ## SET_CLOCK (R131, R142) -/

/-- R142: the forward distance of a jump. -/
def forwardDistance (old new : Nat) : Nat := (new + Config.week - old) % Config.week

/-- R142: what a jump does to a SCHEDULED activation whose remaining advance is above 0: due, or the new advance. -/
def afterJump (old new target advance : Nat) : Option Nat :=
  let f := forwardDistance old new
  if f = 0 then some advance
  else if f < Config.halfWeek then
    if advance ≤ f then none else some (advance - f)
  else if new = target then none
  else some (forwardDistance new target)

/-- R131: the week clock is set and nothing else. -/
def withWeekTime (w : Nat) (s : State) : State := { s with tariff := { s.tariff with weekTime := some w } }

/-- R131, R142: the clock is set to `w` and the tariff store settles a scheduled activation. An activation whose
advance had already reached 0 was due before the request, and is taken first (R142). -/
def setWeekClock (w : Nat) (s : State) : State :=
  let t := s.tariff.staging
  match t.state, s.tariff.weekTime, t.target, t.advance with
  | .scheduled, some old, some target, some advance =>
    if advance = 0 then withWeekTime w (takeDue s)
    else
      match afterJump old w target advance with
      | none => takeDue (withWeekTime w s)
      | some a => (withWeekTime w s).setStaging { t with advance := some a }
  | _, _, _, _ => withWeekTime w s

/-! ## Staging (R137 to R140) -/

/-- R138: the two checks of every writing request. -/
def writeRefusal (s : State) (p : Port) : Option Status :=
  if s.tariff.staging.state = .none ∨ s.tariff.staging.holder ≠ some p then some .notStageHolder
  else if s.tariff.staging.state ≠ .opened then some .activationPending
  else none

/-- R138: the contents of the staging bank; those of generation 0 when it is empty. -/
def stagedTariffs (s : State) : Tariffs :=
  match s.tariff.staging.generation with
  | some g => g.tariffs
  | none => .initial

/-- R138: the contents of the staging bank are changed. -/
def changeStaged (f : Tariffs → Tariffs) (s : State) : State :=
  s.setStaging
    { s.tariff.staging with generation := s.tariff.staging.generation.map (fun g => { g with tariffs := f g.tariffs }) }

/-- R140: bands stored from a slot onward. -/
def writeBands (t : Table Band .band0) (first : Nat) : List Band → Table Band .band0
  | [] => t
  | b :: rest => writeBands (t.set first b) (first + 1) rest

/-- R140: day types stored. -/
def writeDays (t : Table DayType .workday) : List (Nat × DayType) → Table DayType .workday
  | [] => t
  | (d, v) :: rest => writeDays (t.set d v) rest

/-- The 48 bands of a schedule. -/
def bandsOf (t : Table Band .band0) : List Band := (List.range 48).map t.get

/-- The 7 day types of a week map. -/
def daysOf (t : Table DayType .workday) : List DayType := (List.range 7).map t.get

end Sys2Proof.Machine
end

