-- ==== Sys2Proof/Machine/Calls.lean ====
section
/-! DEFINITION. The call table (chapter 6): free slots, the checks of a call request, a new record, reselection, the end
of a call, orphans and port loss. -/

namespace Sys2Proof.Machine

/-! ## Slots and references (R104, R106, R107) -/

/-- R103, R107: the slot is held by an OFFER in progress. -/
def heldSlot (s : State) (k : Nat) : Bool := s.calls.offers.any (fun o => o.ref.slot == k)

/-- R107 check 4: the lowest-numbered FREE slot. -/
def lowestFreeSlot (s : State) : Option Nat :=
  firstFrom (fun k => (s.slot k).call.isNone && !heldSlot s k) Config.slots 0

/-- R106 checks 1 and 2. -/
def findCall (s : State) (r : CallRef) : Except Status Call :=
  if Config.slots ≤ r.slot then .error .outOfRange
  else
    match s.call r with
    | some c => .ok c
    | none => .error .noCall

/-- R106 checks 1 to 3: the call that its owner names. -/
def findOwned (s : State) (p : Port) (r : CallRef) : Except Status Call :=
  match findCall s r with
  | .error st => .error st
  | .ok c => if c.owner = some p then .ok c else .error .notOwner

/-- R116 step 4, R104: a slot in use becomes FREE and its generation steps. A reselection that is queued for its call has
nothing left to do (R118), and leaves the queue (notes/assumptions/31.md). -/
def freeSlot (k : Nat) (s : State) : State :=
  let s1 := s.setSlot k ⟨nextGeneration (s.slot k).generation, none⟩
  { s1 with calls := { s1.calls with reselections := s1.calls.reselections.filter (fun r => decide (r ≠ s.refOf k)) } }

/-! ## New legs (R79, R110) -/

/-- R79: the leg of a call record, with its premium facts. -/
def NewLeg.toLeg (n : NewLeg) : Leg :=
  ⟨n.circuit, n.group, n.carrier, n.stepKind.alternate, n.congestion == .reserved⟩

/-- R79: a record takes a new outbound leg. -/
def Call.withLeg (c : Call) (n : NewLeg) : Call :=
  { c with leg := some n.toLeg, stepIndex := n.stepIndex, stepKind := n.stepKind, tariffClass := n.tariffClass }

/-- R110: the record of an accepted OFFER. -/
def newCall (owner : Port) (circuit inGroup inCarrier : Nat) (t : Target) (cls : CallClass) (w : Walked) (n : NewLeg) :
    Call where
  state := .routed
  owner := some owner
  inCircuit := circuit
  inGroup := inGroup
  inCarrier := inCarrier
  leg := some n.toLeg
  destination := t.destination
  plan := t.plan
  cls := cls
  stepIndex := n.stepIndex
  stepKind := n.stepKind
  tariffClass := n.tariffClass
  poolTried := w.poolTried
  memoryFlag := w.memoryFlag
  reattempts := 0
  reselectionPending := false
  answer := none
  former := none
  orphanDeadline := none
  lastCause := none

/-! ## Reselection (R82 to R84) -/

/-- R83: what the walk of a reselection takes from the record. -/
def reselectionCall (r : CallRef) (c : Call) : WalkCall where
  ref := r
  cls := c.cls
  inGroup := c.inGroup
  destination := c.destination
  plan := c.plan
  start := c.stepIndex + 1
  poolTried := c.poolTried
  memoryFlag := c.memoryFlag

/-- R82: a reselection adds 1 to the reattempt count. -/
def countReattempt (c : Call) : Call := { c with reattempts := c.reattempts + 1 }

/-- R84: the record goes UNROUTED. -/
def Call.unroute (c : Call) (cause : Cause) : Call :=
  { c with state := .unrouted, leg := none, lastCause := some cause }

/-- R79, R83, R84: the record after a reselection's walk. -/
def afterWalk (c : Call) (w : Walked) (cause : Cause) : Call :=
  let c1 := { c with poolTried := w.poolTried, memoryFlag := w.memoryFlag }
  match w.leg with
  | some n => { c1.withLeg n with state := .routed }
  | none => c1.unroute cause

/-- R82 to R84: a call that holds no outbound leg is reselected. -/
def reselect (r : CallRef) (cause : Cause) (s : State) : State :=
  match s.call r with
  | none => s
  | some c =>
    let c1 := countReattempt c
    if s.routes.reattemptLimit < c1.reattempts then s.setCall r.slot (c1.unroute .reattemptsExhausted)
    else
      let w := walk (reselectionCall r c1) (s.plan c.plan) (s.setCall r.slot c1)
      w.state.setCall r.slot (afterWalk c1 w cause)

/-! ## The end of a call (R116) -/

/-- R116 step 1: the priced release of an ANSWERED call. -/
def pricedRelease (r : CallRef) (c : Call) (a : AnswerFacts) (l : Leg) (cause : Cause) (time : Nat) (forced : Bool) :
    PricedRelease where
  call := r
  inCarrier := c.inCarrier
  outCarrier := l.carrier
  inGroup := c.inGroup
  outGroup := l.group
  generation := a.generation
  tariffClass := c.tariffClass
  stepKind := c.stepKind
  answered := a.monotonic
  answerWeekTime := a.weekTime
  released := time
  altPremium := l.alternatePremium
  congPremium := l.congestionPremium
  cause := cause
  forced := forced

/-- R116 steps 1 and 2: an ANSWERED call is priced, and its bound bank's count lowered after that. -/
def priceAndLower (r : CallRef) (c : Call) (cause : Cause) (time : Nat) (forced : Bool) (s : State) : State :=
  match c.state, c.answer, c.leg with
  | .answered, some a, some l => lower a.generation (priceRelease (pricedRelease r c a l cause time forced) s)
  | _, _, _ => s

/-- R116 step 3: the inbound leg is released, and the outbound leg if the call holds one. -/
def releaseLegs (r : CallRef) (c : Call) (s : State) : State :=
  let s1 := releaseLeg c.inCircuit r false s
  match c.leg with
  | some l => releaseLeg l.circuit r false s1
  | none => s1

/-- R116 step 4: an orphan leaves the orphan list. -/
def leaveOrphans (k : Nat) (s : State) : State :=
  { s with calls := { s.calls with orphans := s.calls.orphans.filter (fun i => decide (i ≠ k)) } }

/-- R116: a call is ended with a cause, a release time and a FORCED flag. -/
def endCall (r : CallRef) (cause : Cause) (time : Nat) (forced : Bool) (s : State) : State :=
  match s.call r with
  | none => s
  | some c => freeSlot r.slot (leaveOrphans r.slot (releaseLegs r c (priceAndLower r c cause time forced s)))

/-! ## Drain release lists (R120) -/

/-- R120: the call holds an inbound or an outbound leg on a listed group. -/
def holdsLegOn (gs : List Nat) (c : Call) : Bool :=
  decide (c.inGroup ∈ gs) ||
    (match c.leg with
     | some l => decide (l.group ∈ gs)
     | none => false)

/-- R120: one call is ended by a release list, and its owner told. -/
def drainCall (gs : List Nat) (s : State) (k : Nat) : State :=
  match (s.slot k).call with
  | none => s
  | some c =>
    if holdsLegOn gs c then
      let s1 := endCall (s.refOf k) .drained s.now true s
      match c.owner with
      | some p => notify p (.callCleared (s.refOf k) .drained .released) s1
      | none => s1
    else s

/-! ## Orphans (R122, R123, R125) -/

/-- The deadline of an orphan. -/
def deadlineOf (s : State) (k : Nat) : Nat :=
  match (s.slot k).call with
  | some c => c.orphanDeadline.getD 0
  | none => 0

/-- A slot put before the first slot of a later deadline. -/
def insertByDeadline (s : State) (k : Nat) : List Nat → List Nat
  | [] => [k]
  | i :: rest => if deadlineOf s k < deadlineOf s i then k :: i :: rest else i :: insertByDeadline s k rest

/-- R122: the orphan list: ordered by deadline, equal deadlines in the order they joined. -/
def orphanList (s : State) : List Nat := s.calls.orphans.foldl (fun acc k => insertByDeadline s k acc) []

/-- R123: an orphan's expiry: the call is ended, priced at its deadline. -/
def expireOrphan (s : State) (k : Nat) : State := endCall (s.refOf k) .orphanExpired (deadlineOf s k) true s

/-- R125: the deadline that a new limit gives an orphan: drawn in, never extended. -/
def drawnDeadline (limit : Nat) (c : Call) : Option Nat :=
  match c.orphanDeadline, c.former with
  | some d, some f => some (min d (f.lossTime + limit * 1000))
  | d, _ => d

/-- R125: the new limit draws in the deadline of the orphan in a slot. -/
def drawnIn (s : State) (limit k : Nat) : Bool :=
  match (s.slot k).call with
  | some c => drawnDeadline limit c != c.orphanDeadline
  | none => false

/-- R125: one orphan's deadline is drawn in. -/
def drawIn (limit : Nat) (s : State) (k : Nat) : State :=
  s.changeCall k (fun c => { c with orphanDeadline := drawnDeadline limit c })

/-- R122: an ANSWERED call of a lost port becomes an orphan. -/
def orphan (p : Port) (k : Nat) (s : State) : State :=
  let s1 := s.changeCall k (fun c =>
    { c with owner := none, former := some ⟨p, s.now⟩, orphanDeadline := some (s.now + s.calls.orphanLimit * 1000) })
  { s1 with calls := { s1.calls with orphans := s1.calls.orphans ++ [k] } }

/-! ## Port loss (R121, R122) -/

/-- The slots whose record is owned by a port, rising. -/
def slotsOwnedBy (s : State) (p : Port) : List Nat :=
  s.slotsInUse.filter (fun k =>
    match (s.slot k).call with
    | some c => c.owner == some p
    | none => false)

/-- R121: every record of the lost port takes the partner as its owner, and the partner is told. -/
def takeOver (lost partner : Port) (s : State) : State :=
  notify partner (.takeover lost (slotsOwnedBy s lost).length)
    ((slotsOwnedBy s lost).foldl (fun s k => s.changeCall k (fun c => { c with owner := some partner })) s)

/-- R122: one record of a lost port without a partner that is UP. -/
def loseCall (p : Port) (s : State) (k : Nat) : State :=
  match (s.slot k).call with
  | none => s
  | some c =>
    if c.state = .answered then
      if s.calls.orphanLimit = 0 then endCall (s.refOf k) .orphanExpired s.now true s else orphan p k s
    else endCall (s.refOf k) .portLost s.now false s

/-- R121: the partner of a loss that is UP when the call table takes it. -/
def upPartner (s : State) (l : PortLoss) : Option Port :=
  match l.partner with
  | some q => if s.isUp q then some q else none
  | none => none

/-- R121, R122: the call table takes a port loss. -/
def loseCalls (l : PortLoss) (s : State) : State :=
  match upPartner s l with
  | some q => takeOver l.port q s
  | none => (slotsOwnedBy s l.port).foldl (loseCall l.port) s

/-- R122: the record of a slot will be orphaned by a loss. -/
def willOrphan (s : State) (k : Nat) : Bool :=
  match (s.slot k).call with
  | some c => c.state == .answered && s.calls.orphanLimit != 0
  | none => false

/-- R183: the counts of DETACH_DONE: taken over, ended, orphaned. -/
def lossCounts (s : State) (l : PortLoss) : Nat × Nat × Nat :=
  let ks := slotsOwnedBy s l.port
  match upPartner s l with
  | some _ => (ks.length, 0, 0)
  | none => (0, ks.countP (fun k => !willOrphan s k), ks.countP (willOrphan s))

/-! ## CLEAR_TRAFFIC (R127) -/

/-- R127: one record is ended without a release of its legs. -/
def clearCall (s : State) (k : Nat) : State :=
  match (s.slot k).call with
  | none => s
  | some c => freeSlot k (priceAndLower (s.refOf k) c .trafficCleared s.now true s)

/-- R127: every record ended in slot order, the orphan list emptied, and the plant store's part made. -/
def clearTraffic (s : State) : State :=
  let s1 := s.slotsInUse.foldl clearCall s
  clearPlant { s1 with calls := { s1.calls with orphans := [] } }

end Sys2Proof.Machine
end

