-- ==== Sys2Proof/Machine/Settlement.lean ====
section
/-! DEFINITION. The settlement unit (chapter 9): accumulation, the settlement queue with its backlog level, carrier hold and
the close of a period. -/

namespace Sys2Proof.Machine

/-- R164: the number of a pair. -/
def pairKey (inbound outbound : Nat) : Nat := inbound * Config.carriers + outbound

/-- R164: a live pair accumulator. -/
def State.pair (s : State) (k : Nat) : PairTotals := s.settlement.pairs.get k

/-- The state with a pair accumulator replaced. -/
def State.setPair (s : State) (k : Nat) (t : PairTotals) : State :=
  { s with settlement := { s.settlement with pairs := s.settlement.pairs.set k t } }

/-- R170: the backlog level is judged after a change of the queue's length; a change of level is reported. -/
def judgeBacklog (s : State) : State :=
  let next := backlogAfter s.settlement.backlog s.settlement.queue.length
  if next = s.settlement.backlog then s
  else reportLevel ⟨.settlementBacklog, 0⟩ (levelOf next) { s with settlement := { s.settlement with backlog := next } }

/-- R173: a carrier's hold is evaluated; a change of the flag is reported. -/
def evaluateHold (s : State) (c : Nat) : State :=
  let next := holdOf (s.carrier c).limit (s.carrier c).total
  if next = (s.carrier c).hold then s
  else reportLevel ⟨.carrierHold, c⟩ (levelOf next) (s.setCarrier c { s.carrier c with hold := next })

/-- R167 step 1, R168: the pair's totals go up. -/
def addToPair (r : PricedResult) (t : PairTotals) : PairTotals :=
  { t with
    payable := addField t.payable r.payable
    receivable := addField t.receivable r.receivable
    calls := addField t.calls 1
    billed := addField t.billed r.billed
    saturated :=
      t.saturated || reachesLimit t.payable r.payable || reachesLimit t.receivable r.receivable || reachesLimit t.calls 1 ||
        reachesLimit t.billed r.billed }

/-- R167 step 5, R168: the amounts of a call that gets no record. -/
def addUnitemized (r : PricedResult) (t : PairTotals) : PairTotals :=
  { t with
    unitemizedPayable := addField t.unitemizedPayable r.payable
    unitemizedReceivable := addField t.unitemizedReceivable r.receivable
    unitemizedCalls := addField t.unitemizedCalls 1
    saturated :=
      t.saturated || reachesLimit t.unitemizedPayable r.payable || reachesLimit t.unitemizedReceivable r.receivable ||
        reachesLimit t.unitemizedCalls 1 }

/-- R167 step 2: the inbound carrier's receivable total goes up. -/
def addToCarrier (r : PricedResult) (c : Carrier) : Carrier := { c with total := addField c.total r.receivable }

/-- R167 steps 3 to 5: the record is appended, or the amounts go to the unitemized fields. -/
def itemize (r : PricedResult) (s : State) : State :=
  if s.settlement.queue.length < Config.settlementQueue then
    judgeBacklog
      { s with settlement := { s.settlement with queue := s.settlement.queue ++ [⟨s.settlement.period, r⟩] } }
  else s.setPair (pairKey r.inCarrier r.outCarrier) (addUnitemized r (s.pair (pairKey r.inCarrier r.outCarrier)))

/-- R167: a priced result is accumulated. -/
def accumulate (r : PricedResult) (s : State) : State :=
  let k := pairKey r.inCarrier r.outCarrier
  let s1 := s.setPair k (addToPair r (s.pair k))
  evaluateHold (itemize r (s1.setCarrier r.inCarrier (addToCarrier r (s1.carrier r.inCarrier)))) r.inCarrier

/-- R175 step 1: what the closed bank receives. -/
def closedCopy (s : State) : ClosedBank where
  period := s.settlement.period
  pairs := s.settlement.pairs
  totals := (List.range Config.carriers).foldl (fun t c => t.set c (s.carrier c).total) .empty

/-- R175 steps 1 to 3: the live totals move to the closed bank and the period number steps. -/
def closeTotals (s : State) : State :=
  { s with
    settlement :=
      { s.settlement with
        closed := some (closedCopy s)
        pairs := .empty
        carriers := s.settlement.carriers.mapValues (fun _ c => { c with total := 0 })
        period := nextNumber s.settlement.period } }

/-- R175: the period is closed: totals moved, every hold evaluated, and every UP port told. -/
def closePeriod (s : State) : State :=
  notifyAllUp (.periodClosed s.settlement.period (nextNumber s.settlement.period))
    ((List.range Config.carriers).foldl evaluateHold (closeTotals s))

end Sys2Proof.Machine
end

