-- ==== Sys2Proof/Machine/Requests.lean ====
section
/-! DEFINITION. Requests and responses at the ports (chapter 10): arrival, the taking of a request, the composing of its
response, and the loss of a port. -/

namespace Sys2Proof.Machine

/-! ## Arrival (R185) -/

/-- R185: an answer made at once: it carries the code and tag of its request and an empty body (R196). -/
def answerAtOnce (p : Port) (q : Request) (st : Status) (s : State) : State :=
  s.setPort p { s.port p with answers := (s.port p).answers ++ [⟨q.code, q.tag, st, .nothing⟩] }

/-- R185: a request joins the back of the request queue, or is answered QUEUE_FULL. -/
def enqueue (p : Port) (q : Request) (s : State) : State :=
  if (s.port p).requests.length < Config.requestQueue then
    s.setPort p { s.port p with requests := (s.port p).requests ++ [q] }
  else answerAtOnce p q .queueFull s

/-- R185: what a request does on arrival, by the port state. While RESET_N is held asserted no frame is judged, and
nothing arrives (R195). DESIGN CHOICE (notes/assumptions/40.md): a request other than ATTACH on a DOWN port whose queue is
full is answered NOT_ATTACHED, as the table of R185 has it. -/
def arrive (p : Port) (q : Request) (s : State) : State :=
  if s.resetLine then s
  else
    match (s.port p).state with
    | .up => enqueue p q s
    | .detaching => answerAtOnce p q .detaching s
    | .down => if q.code = RequestKind.attach.code then enqueue p q s else answerAtOnce p q .notAttached s

/-! ## Taking and composing (R186) -/

/-- R185: the port takes requests of this code: any in UP, ATTACH alone in DOWN, none in DETACHING. -/
def takesCode (st : PortState) (code : Nat) : Bool :=
  match st with
  | .up => true
  | .down => code == RequestKind.attach.code
  | .detaching => false

/-- R183, R184, R186: a request of the port is in progress, be it an OFFER that outlives the loss of its port (its response
is still to be composed, and then discarded), or its DETACH has not had its DETACH_DONE composed yet, so the next request is
not taken. -/
def occupied (s : State) (p : Port) : Bool :=
  (s.port p).inProgress.isSome || s.calls.offers.any (fun o => o.sender.port == p) ||
    s.calls.losses.any (fun l => l.port == p && l.detachTag.isSome)

/-- R127: CLEAR_TRAFFIC is taken wholly before or wholly after an OFFER, so it waits for every OFFER in progress. -/
def mustWait (code : Nat) (s : State) : Bool := code == RequestKind.clearTraffic.code && !s.calls.offers.isEmpty

/-- R185, R186, R195: the block of a request of this code can be handed one now. -/
def ready (r : Sender) (code : Nat) (s : State) : Bool :=
  takesCode (s.port r.port).state code && !occupied s r.port && !mustWait code s && !s.resetLine

/-- R186: the request is taken: it is the oldest of its port's queue, or it arrives when nothing waits before it. The
state is that in which the owning block starts to handle it. -/
def taken (c : Instr) (r : Sender) (code : Nat) (s : State) : Option State :=
  if ready r code s then
    match (s.port r.port).requests with
    | [] => some s
    | q :: rest =>
      if standsFor q c r code then some (s.setPort r.port { s.port r.port with requests := rest }) else none
  else none

/-- R185: the request as it waits when it came as a command. -/
def waiting (c : Instr) (r : Sender) (code : Nat) : Request := ⟨r.tag, code, .command (asSent c)⟩

/-- R186, R193: a composed response goes to the link, or waits behind a held SYNC. -/
def compose (p : Port) (x : Response) (s : State) : State :=
  let r := s.port p
  if r.held.isEmpty then s.setPort p { r with outbox := r.outbox ++ [x] }
  else s.setPort p { r with held := r.held ++ [⟨x, none⟩] }

/-- What the owning block makes of a request: the state it leaves, and its answer. -/
structure Reply where
  state : State
  status : Status
  result : Result
  deriving DecidableEq, Repr

/-- R186, R187: a refusal: a status and nothing else, with the state as it is. -/
def refuse (st : Status) (s : State) : Reply := ⟨s, st, .nothing⟩

/-- R186: the response to a taken request is composed. -/
def respond (r : Sender) (code : Nat) (y : Reply) : State :=
  compose r.port ⟨code, r.tag, y.status, y.result⟩ y.state

/-- R185, R186: a request that its port takes is handled by `f` and answered; one that its port does not take yet
arrives by R185. -/
def request (c : Instr) (r : Sender) (code : Nat) (f : State → Reply) (s : State) : Answer :=
  match taken c r code s with
  | some s1 => .next (respond r code (f s1))
  | none => .next (arrive r.port (waiting c r code) s)

/-! ## The loss of a port (R184) -/

/-- R184 steps 1 to 3 and 5: the record of a port that has gone DOWN. Answers made at once are not taken back. -/
def PortRecord.lost (r : PortRecord) : PortRecord := { PortRecord.initial with answers := r.answers }

/-- R184 step 2: the response of an OFFER in progress on a lost port will be discarded. -/
def OfferInProgress.lose (p : Port) (o : OfferInProgress) : OfferInProgress :=
  if o.sender.port = p then { o with discarded := true } else o

/-- R184 steps 2 and 4: the loss is handed, with the partner as it stood, to the three blocks that take it; a request in
progress runs to its end, and its response will be discarded. -/
def handLoss (l : PortLoss) (s : State) : State :=
  { s with
    calls := { s.calls with losses := s.calls.losses ++ [l], offers := s.calls.offers.map (OfferInProgress.lose l.port) }
    tariff := { s.tariff with losses := s.tariff.losses ++ [l.port] }
    service := { s.service with losses := s.service.losses ++ [l.port] } }

/-- R184: a port goes DOWN. -/
def portDown (p : Port) (cause : PortCause) (detachTag : Option Byte) (s : State) : State :=
  let r := s.port p
  notifyOthersUp p (.portState p .down cause) (handLoss ⟨p, r.partner, detachTag⟩ (s.setPort p r.lost))

end Sys2Proof.Machine
end

