-- ==== Sys2Proof/Machine/AnalysisRequests.lean ====
section
/-! DEFINITION. The meanings of chapter 3: prefixes, destinations and gaps. -/

namespace Sys2Proof.Machine

/-! ## Prefixes (R49, R50) -/

/-- The state with a prefix entry replaced. -/
def State.setPrefix (s : State) (ds : List Nat) (d : Option Nat) : State :=
  { s with analyser := { s.analyser with prefixes := s.analyser.prefixes.set (prefixKey ds) d } }

/-- R49: ADD_PREFIX when it is taken. -/
def handleAddPrefix (ds : List Nat) (d : Nat) (s : State) : Reply :=
  if !digitsOk 1 16 ds then refuse .badRequest s
  else if Config.destinations ≤ d then refuse .outOfRange s
  else if (s.prefixEntry ds).isNone && decide (Config.prefixes ≤ s.analyser.prefixes.size) then refuse .tableFull s
  else
    let s1 := s.setPrefix ds (some d)
    ⟨s1, .ok, .prefixAdded (s.prefixEntry ds) s1.analyser.prefixes.size⟩

/-- ADD_PREFIX (R49). -/
def execAddPrefix (r : Sender) (digits : List Nat) (destination : Nat) (s : State) : Answer :=
  request (.addPrefix r digits destination) r RequestKind.addPrefix.code (handleAddPrefix digits destination) s

/-- R50: REMOVE_PREFIX when it is taken. -/
def handleRemovePrefix (ds : List Nat) (s : State) : Reply :=
  if !digitsOk 1 16 ds then refuse .badRequest s
  else
    let s1 := s.setPrefix ds none
    ⟨s1, .ok, .prefixRemoved (s.prefixEntry ds) s1.analyser.prefixes.size⟩

/-- REMOVE_PREFIX (R50). -/
def execRemovePrefix (r : Sender) (digits : List Nat) (s : State) : Answer :=
  request (.removePrefix r digits) r RequestKind.removePrefix.code (handleRemovePrefix digits) s

/-! ## Destinations (R53) -/

/-- R53: the record is replaced and the destination's route-memory entry invalidated. -/
def writeDestination (d : Nat) (v : Destination) (s : State) : State :=
  invalidateDestination d
    { s with analyser := { s.analyser with destinations := s.analyser.destinations.set d v } }

/-- R53: WRITE_DEST when it is taken. -/
def handleWriteDest (d plan : Option Nat) (barred inUse : Option Bool) (s : State) : Reply :=
  match d, plan, barred, inUse with
  | some d, some plan, some barred, some inUse =>
    if Config.destinations ≤ d then refuse .outOfRange s
    else if Config.plans ≤ plan then refuse .outOfRange s
    else ⟨writeDestination d ⟨plan, barred, inUse⟩ s, .ok, .destinationBefore (s.dest d)⟩
  | _, _, _, _ => refuse .badRequest s

/-- WRITE_DEST (R53). -/
def execWriteDest (r : Sender) (destination plan : Option Nat) (barred inUse : Option Bool) (s : State) : Answer :=
  request (.writeDest r destination plan barred inUse) r RequestKind.writeDest.code (handleWriteDest destination plan barred inUse) s

/-! ## Gaps (R57 to R59, R62) -/

/-- R57: the entry that SET_GAP leaves: a new one, or the present one with a new interval and life. -/
def gapSet (s : State) (d interval life : Nat) : Gap :=
  match s.gap d with
  | none => ⟨interval, life, lifeExpiryFrom s life, s.now, 0⟩
  | some g => { g with interval := interval, life := life, lifeExpiry := lifeExpiryFrom s life }

/-- R57: SET_GAP when it is taken. -/
def handleSetGap (d : Nat) (interval life : Option Nat) (s : State) : Reply :=
  if Config.destinations ≤ d then refuse .outOfRange s
  else
    match interval, life with
    | some i, some l =>
      if (s.gap d).isNone && decide (Config.gaps ≤ s.analyser.gaps.size) then refuse .tableFull s
      else
        let s1 := s.setGap d (some (gapSet s d (clamp 1 6000 i) (clamp 0 86400 l)))
        ⟨s1, okOr (outside 1 6000 i || outside 0 86400 l),
          .gapSet (s.gap d).isNone (clamp 1 6000 i) (clamp 0 86400 l) s1.analyser.gaps.size⟩
    | _, _ => refuse .badRequest s

/-- SET_GAP (R57). -/
def execSetGap (r : Sender) (destination : Nat) (interval life : Option Nat) (s : State) : Answer :=
  request (.setGap r destination interval life) r RequestKind.setGap.code (handleSetGap destination interval life) s

/-- R58: CLEAR_GAP when it is taken. -/
def handleClearGap (d : Nat) (s : State) : Reply :=
  if Config.destinations ≤ d then refuse .outOfRange s
  else ⟨s.setGap d none, .ok, .gapCleared ((s.gap d).map (·.refused))⟩

/-- CLEAR_GAP (R58). -/
def execClearGap (r : Sender) (destination : Nat) (s : State) : Answer :=
  request (.clearGap r destination) r RequestKind.clearGap.code (handleClearGap destination) s

/-- R62: every gap entry in ascending order of destination. -/
def allGaps (s : State) : List GapView :=
  s.analyser.gaps.entries.filterMap (fun e => e.2.map (gapView s e.1))

/-- R62: QUERY_GAP when it is taken. -/
def handleQueryGap (q : GapQuery) (s : State) : Reply :=
  match q with
  | .one d =>
    if Config.destinations ≤ d then refuse .outOfRange s
    else ⟨s, .ok, .gap ((s.gap d).map (gapView s d))⟩
  | .all => ⟨s, .ok, .gaps s.analyser.gaps.size (allGaps s)⟩

/-- QUERY_GAP (R62). -/
def execQueryGap (r : Sender) (q : GapQuery) (s : State) : Answer :=
  request (.queryGap r q) r RequestKind.queryGap.code (handleQueryGap q) s

/-- R59: the life of a gap entry has been reached. -/
def gapLifeReached (s : State) (d : Nat) : Bool :=
  match s.gap d with
  | some g =>
    match g.lifeExpiry with
    | some x => decide (x ≤ s.now)
    | none => false
  | none => false

/-- GAP_LIFE_EXPIRY (R59): a life expiry that has been reached removes the entry. -/
def execGapLifeExpiry (destination : Nat) (s : State) : Answer :=
  .next (if gapLifeReached s destination then s.setGap destination none else s)

end Sys2Proof.Machine
end

