-- ==== Sys2Proof/Machine/CallRequests.lean ====
section
/-! DEFINITION. The meanings of chapter 6: OFFER to SET_ORPHAN_LIMIT, the reselection after a glare yield, drain release
lists, port loss and orphan expiry. -/

namespace Sys2Proof.Machine

/-! ## OFFER (R107 to R110) -/

/-- R108: a refusal from step 6 on: the inbound seizure is undone, and no record is kept. -/
def refuseOffer (circuit : Nat) (f : Former) (st : Status) (s : State) : Reply := refuse st (undoInbound circuit f s)

/-- R81: what the walk at OFFER starts with. -/
def offerCall (r : CallRef) (cls : CallClass) (inGroup : Nat) (t : Target) : WalkCall where
  ref := r
  cls := cls
  inGroup := inGroup
  destination := t.destination
  plan := t.plan
  start := 0
  poolTried := false
  memoryFlag := false

/-- What the checks 5 to 9 of an OFFER leave: its refusal, or the OFFER with the record that it will keep. -/
inductive OfferOutcome where
  | refused (y : Reply)
  | walked (s : State) (record : Call)
  deriving DecidableEq, Repr

/-- The state that the checks of an OFFER leave. -/
def OfferOutcome.state : OfferOutcome → State
  | .refused y => y.state
  | .walked s _ => s

/-- R81, R110: the walk at OFFER and the record it makes, or the refusal. -/
def walkOffer (p : Port) (circuit : Nat) (r : CallRef) (f : Former) (cls : CallClass) (inGroup inCarrier : Nat)
    (t : Target) (s : State) : OfferOutcome :=
  let w := walk (offerCall r cls inGroup t) (s.plan t.plan) s
  match w.leg with
  | some n => .walked w.state (newCall p circuit inGroup inCarrier t cls w n)
  | none =>
    .refused (refuseOffer circuit f (if (s.plan t.plan).isEmpty then .noRoute else .allRoutesBusy) w.state)

/-- R109: a NORMAL call whose inbound carrier is on hold is refused. -/
def heldBack (s : State) (cls : CallClass) (carrier : Nat) : Bool :=
  match cls with
  | .priority => false
  | .normal => (s.carrier carrier).hold

/-- R108 steps 6 to 9: an OFFER whose inbound seizure was accepted. -/
def routeOffer (p : Port) (circuit : Nat) (r : CallRef) (f : Former) (ds : List Nat) (cls : CallClass)
    (inGroup inCarrier : Nat) (s : State) : OfferOutcome :=
  match findTarget s ds with
  | .error st => .refused (refuseOffer circuit f st s)
  | .ok t =>
    let s1 := afterGapCheck t.destination cls s
    if !gapAdmits s t.destination cls then .refused (refuseOffer circuit f .gapped s1)
    else if heldBack s1 cls inCarrier then .refused (refuseOffer circuit f .carrierHold s1)
    else walkOffer p circuit r f cls inGroup inCarrier t s1

/-- R16: the inbound group and carrier that the seizure of a circuit hands back. -/
def inboundOf (s : State) (c : Nat) : Nat × Nat :=
  match s.circuit c with
  | none => (0, 0)
  | some e =>
    match s.group e.group with
    | none => (e.group, 0)
    | some g => (e.group, g.carrier)

/-- R107 checks 1 to 3: the first that fails, or the class. -/
def offerForm (circuit : Nat) (ds : List Nat) (cls : Arg CallClass) : Except Status CallClass :=
  if !digitsOk 1 24 ds then .error .badRequest
  else
    match cls.value? with
    | none => .error .badRequest
    | some cls => if Config.circuits ≤ circuit then .error .outOfRange else .ok cls

/-- R108 step 5: the inbound seizure of an OFFER with a held slot, and what follows it. -/
def seizeOffer (p : Port) (circuit : Nat) (ds : List Nat) (cls : CallClass) (r : CallRef) (s : State) : OfferOutcome :=
  let i := inboundOf s circuit
  match decideInbound s circuit with
  | .refused st => .refused (refuse st s)
  | .accepted f => routeOffer p circuit r f ds cls i.1 i.2 (occupyIn circuit r s)
  | .yields d => routeOffer p circuit r .yielded ds cls i.1 i.2 (displace d (occupyIn circuit r s))

/-- R107: an OFFER in progress, as its walk leaves it. -/
def offerBegun (r : Sender) (circuit : Nat) (ds : List Nat) (cls : Arg CallClass) (ref : CallRef) (record : Call) :
    OfferInProgress :=
  ⟨r, circuit, ds, cls, ref, record, false, false, false, none⟩

/-! ### Keeping the record (R110) -/

/-- R110: who the requesting port's calls go to when the record is kept. -/
inductive Keeping where
  | byPort
  | byPartner (q : Port)
  | notAtAll
  deriving DecidableEq, Repr

/-- R110: the port is no longer UP or DETACHING and the call table has taken its loss: its partner takes the call, or
nobody does. -/
def keepingOf (o : OfferInProgress) (s : State) : Keeping :=
  if (s.port o.sender.port).state ≠ .down then .byPort
  else if s.calls.losses.any (fun l => l.port == o.sender.port) then .byPort
  else
    match o.loss with
    | some (some q) => if s.isUp q then .byPartner q else .notAtAll
    | _ => .notAtAll

/-- R118: a leg that a glare yield took while the OFFER was in progress leaves the record as soon as it is kept. -/
def settleDisplaced (o : OfferInProgress) (s : State) : State := if o.displaced then displace o.ref s else s

/-- R120: the call of an OFFER noted with a list of groups is ended at once, and its owner told. -/
def settleNoted (o : OfferInProgress) (s : State) : State :=
  if o.noted then
    match s.call o.ref with
    | none => s
    | some c =>
      let s1 := endCall o.ref .drained s.now true s
      match c.owner with
      | some p => notify p (.callCleared o.ref .drained .released) s1
      | none => s1
  else s

/-- R110: the record is kept, by the rules of a port lost while the OFFER was in progress. -/
def keepRecord (o : OfferInProgress) (s : State) : State :=
  let s1 := settleDisplaced o (s.setCall o.ref.slot o.record)
  match keepingOf o s with
  | .byPort => settleNoted o s1
  | .byPartner q =>
    settleNoted o
      (notify q (.takeover o.sender.port 1) (s1.changeCall o.ref.slot (fun c => { c with owner := some q })))
  | .notAtAll => endCall o.ref .portLost s.now false s1

/-- R110: what the response to an accepted OFFER carries: the outbound leg that its walk found. -/
def offeredResult (o : OfferInProgress) : Result :=
  match o.record.leg with
  | some l => .offered o.ref l.circuit l.group
  | none => .nothing

/-- R110: an accepted OFFER keeps its record and is answered OK. -/
def acceptOffer (o : OfferInProgress) (s : State) : Reply := ⟨keepRecord o s, .ok, offeredResult o⟩

/-! ### The whole OFFER, its walk, and its end -/

/-- R107, R108: the checks of an OFFER that has been taken, up to the end of its walk. -/
def checkOffer (p : Port) (circuit : Nat) (ds : List Nat) (cls : Arg CallClass) (s : State) :
    OfferOutcome × CallRef :=
  match offerForm circuit ds cls with
  | .error st => (.refused (refuse st s), ⟨0, 0⟩)
  | .ok cls =>
    match lowestFreeSlot s with
    | none => (.refused (refuse .callTableFull s), ⟨0, 0⟩)
    | some k => (seizeOffer p circuit ds cls (s.refOf k) s, s.refOf k)

/-- R107 to R110: OFFER when it is taken and nothing comes between its walk and the keeping of its record. -/
def handleOffer (r : Sender) (circuit : Nat) (ds : List Nat) (cls : Arg CallClass) (s : State) : Reply :=
  match checkOffer r.port circuit ds cls s with
  | (.refused y, _) => y
  | (.walked s1 record, ref) => acceptOffer (offerBegun r circuit ds cls ref record) s1

/-- R103, R110, R180: an OFFER whose walk succeeded stays in progress, with its slot held. -/
def holdOffer (o : OfferInProgress) (s : State) : State :=
  let s1 : State := { s with calls := { s.calls with offers := s.calls.offers ++ [o] } }
  s1.setPort o.sender.port
    { s.port o.sender.port with
      inProgress := some (waiting (.offer ⟨o.sender, .whole⟩ o.circuit o.digits o.cls) o.sender RequestKind.offer.code) }

/-- R107, R108: OFFER when it is taken, up to the end of its walk: a refused OFFER is answered. -/
def beginOffer (r : Sender) (circuit : Nat) (ds : List Nat) (cls : Arg CallClass) (s : State) : State :=
  match checkOffer r.port circuit ds cls s with
  | (.refused y, _) => respond r RequestKind.offer.code y
  | (.walked s1 record, ref) => holdOffer (offerBegun r circuit ds cls ref record) s1

/-- The OFFER in progress is the one that a request began. -/
def OfferInProgress.is (r : Sender) (circuit : Nat) (ds : List Nat) (cls : Arg CallClass) (o : OfferInProgress) : Bool :=
  decide (o.sender = r ∧ o.circuit = circuit ∧ o.digits = ds ∧ o.cls = cls)

/-- R110, R186: the response of an OFFER that was in progress is composed; after a link loss it is discarded (R184). -/
def answerHeldOffer (o : OfferInProgress) (y : Reply) : State :=
  if o.discarded then y.state
  else
    let s1 := respond o.sender RequestKind.offer.code y
    s1.setPort o.sender.port { s1.port o.sender.port with inProgress := none }

/-- R110: an OFFER in progress keeps its record, and is answered. -/
def finishOffer (o : OfferInProgress) (s : State) : State :=
  answerHeldOffer o (acceptOffer o { s with calls := { s.calls with offers := s.calls.offers.erase o } })

/-- OFFER (R107): the whole of it, or its part (notes/assumptions/11.md). The end of an OFFER that is not in progress has
nothing to act on. -/
def execOffer (r : OfferStep) (circuit : Nat) (digits : List Nat) (cls : Arg CallClass) (s : State) : Answer :=
  match r with
  | ⟨p, .whole⟩ =>
    request (.offer ⟨p, .whole⟩ circuit digits cls) p RequestKind.offer.code (handleOffer p circuit digits cls) s
  | ⟨p, .walk⟩ =>
    .next
      (match taken (.offer ⟨p, .walk⟩ circuit digits cls) p RequestKind.offer.code s with
       | some s1 => beginOffer p circuit digits cls s1
       | none => arrive p.port (waiting (.offer ⟨p, .walk⟩ circuit digits cls) p RequestKind.offer.code) s)
  | ⟨p, .keep⟩ =>
    .next
      (match s.calls.offers.find? (OfferInProgress.is p circuit digits cls) with
       | none => s
       | some o => finishOffer o s)

/-! ## ACCEPTED and ANSWER (R111, R112) -/

/-- R111, R112, R113: ROUTED with the reselection pending mark clear. -/
def freelyRouted (c : Call) : Bool := c.state == .routed && !c.reselectionPending

/-- R111: ACCEPTED when it is taken. -/
def handleAccepted (p : Port) (call : CallRef) (s : State) : Reply :=
  match findOwned s p call with
  | .error st => refuse st s
  | .ok c =>
    if freelyRouted c then ⟨s.setCall call.slot { c with state := .proceeding }, .ok, .nothing⟩
    else refuse .wrongState s

/-- ACCEPTED (R111). -/
def execAccepted (r : Sender) (call : CallRef) (s : State) : Answer :=
  request (.accepted r call) r RequestKind.accepted.code (handleAccepted r.port call) s

/-- R112 steps 1 and 2: the answer facts of a call answered now. -/
def answerFacts (s : State) : AnswerFacts := ⟨s.now, s.tariff.weekTime, s.tariff.live.number⟩

/-- R95: an ANSWER or a REATTEMPT hands the route memory an outcome for a call carried on a POOL step with its flag. -/
def handsOutcome (c : Call) : Bool := c.stepKind == .pool && c.memoryFlag

/-- R112 steps 1 to 4. -/
def answerCall (call : CallRef) (c : Call) (s : State) : State :=
  let s1 := (bindLive s).setCall call.slot { c with state := .answered, answer := some (answerFacts s) }
  if handsOutcome c then successOutcome c.destination c.plan c.stepIndex s1 else s1

/-- R112: ANSWER when it is taken. -/
def handleAnswer (p : Port) (call : CallRef) (s : State) : Reply :=
  match findOwned s p call with
  | .error st => refuse st s
  | .ok c =>
    if freelyRouted c || c.state == .proceeding then
      ⟨answerCall call c s, .ok, .answered s.now s.tariff.live.number⟩
    else refuse .wrongState s

/-- ANSWER (R112). -/
def execAnswer (r : Sender) (call : CallRef) (s : State) : Answer :=
  request (.answer r call) r RequestKind.answer.code (handleAnswer r.port call) s

/-! ## REATTEMPT (R113, R114) -/

/-- R113 step 1: the far-end level is handed to the call's outbound group. -/
def handLevel (c : Call) (level : Option Nat) (s : State) : State :=
  match level, c.leg with
  | some n, some l => farReport l.group (clamp 0 3 n) s
  | _, _ => s

/-- R113 step 2: the failure outcome. -/
def handFailure (c : Call) (s : State) : State :=
  if handsOutcome c then failureOutcome c.destination c.plan c.stepIndex s else s

/-- R113 steps 3 and 4: the outbound leg is released and the cause recorded. -/
def dropLeg (call : CallRef) (c : Call) (cause : Cause) (s : State) : State :=
  let s1 :=
    match c.leg with
    | some l => releaseLeg l.circuit call (decide (cause = Cause.circuitFault)) s
    | none => s
  s1.setCall call.slot { c with leg := none, lastCause := some cause }

/-- R114: what the response to a REATTEMPT carries. -/
def reattemptResult (s : State) (call : CallRef) : Result :=
  match s.call call with
  | none => .nothing
  | some c =>
    match c.leg with
    | some l => .rerouted l.circuit l.group c.stepIndex c.reattempts
    | none => .unrouted c.lastCause c.reattempts

/-- R113: the steps of a REATTEMPT that passes its checks. -/
def reattemptCall (call : CallRef) (c : Call) (cause : Cause) (level : Option Nat) (s : State) : State :=
  reselect call cause (dropLeg call c cause (handFailure c (handLevel c level s)))

/-- R113, R114: REATTEMPT when it is taken. -/
def handleReattempt (p : Port) (call : CallRef) (cause : Arg Cause) (level : Option Nat) (s : State) : Reply :=
  match findOwned s p call with
  | .error st => refuse st s
  | .ok c =>
    match callCause cause with
    | none => refuse .badRequest s
    | some cause =>
      if freelyRouted c || c.state == .proceeding then
        let s1 := reattemptCall call c cause level s
        ⟨s1, okOr (outsideOpt 0 3 level), reattemptResult s1 call⟩
      else refuse .wrongState s

/-- REATTEMPT (R113). -/
def execReattempt (r : Sender) (call : CallRef) (cause : Arg Cause) (level : Option Nat) (s : State) : Answer :=
  request (.reattempt r call cause level) r RequestKind.reattempt.code (handleReattempt r.port call cause level) s

/-! ## RELEASE (R115) -/

/-- R115: the release time that the response carries for an answered call. -/
def releaseTime (c : Call) (s : State) : Option Nat := if c.state = .answered then some s.now else none

/-- R115: RELEASE when it is taken. -/
def handleRelease (p : Port) (call : CallRef) (cause : Arg Cause) (s : State) : Reply :=
  match findCall s call with
  | .error st => refuse st s
  | .ok c =>
    match callCause cause with
    | none => refuse .badRequest s
    | some cause =>
      if c.owner = some p ∨ c.owner = none then
        ⟨endCall call cause s.now false s, .ok, .released c.state (releaseTime c s)⟩
      else refuse .notOwner s

/-- RELEASE (R115). -/
def execRelease (r : Sender) (call : CallRef) (cause : Arg Cause) (s : State) : Answer :=
  request (.release r call cause) r RequestKind.release.code (handleRelease r.port call cause) s

/-! ## ADOPT (R124) -/

/-- R124: the orphans of a former owner, in ascending slot order. -/
def orphansOf (s : State) (p : Port) : List Nat :=
  s.slotsInUse.filter (fun k =>
    decide (k ∈ s.calls.orphans) &&
      (match (s.slot k).call with
       | some c => (c.former.map (·.port)) == some p
       | none => false))

/-- R124: one orphan is adopted. -/
def adoptCall (p : Port) (s : State) (k : Nat) : State :=
  leaveOrphans k (s.changeCall k (fun c => { c with owner := some p, orphanDeadline := none }))

/-- R124: ADOPT when it is taken. -/
def handleAdopt (p : Port) (former : Arg Port) (s : State) : Reply :=
  match former with
  | .absent => refuse .badRequest s
  | .undefined => refuse .outOfRange s
  | .given q => ⟨(orphansOf s q).foldl (adoptCall p) s, .ok, .adopted ((orphansOf s q).map s.refOf)⟩

/-- ADOPT (R124). -/
def execAdopt (r : Sender) (former : Arg Port) (s : State) : Answer :=
  request (.adopt r former) r RequestKind.adopt.code (handleAdopt r.port former) s

/-! ## QUERY_CALL (R126) -/

/-- R126: the call record as a query shows it. -/
def callView (s : State) (r : CallRef) (c : Call) : CallView where
  ref := r
  call := c
  remainingOrphan := c.orphanDeadline.map (fun x => (x : Int) - (s.now : Int))
  sinceAnswer := c.answer.map (fun a => s.now - a.monotonic)

/-- R126: QUERY_CALL when it is taken. -/
def handleQueryCall (call : CallRef) (s : State) : Reply :=
  match findCall s call with
  | .error st => refuse st s
  | .ok c => ⟨s, .ok, .call (callView s call c)⟩

/-- QUERY_CALL (R126). -/
def execQueryCall (r : Sender) (call : CallRef) (s : State) : Answer :=
  request (.queryCall r call) r RequestKind.queryCall.code (handleQueryCall call) s

/-! ## CLEAR_TRAFFIC (R127) -/

/-- R127: a slot holds an ANSWERED call. -/
def answeredIn (s : State) (k : Nat) : Bool :=
  match (s.slot k).call with
  | some c => c.state == .answered
  | none => false

/-- R127: CLEAR_TRAFFIC when it is taken. -/
def handleClearTraffic (s : State) : Reply :=
  ⟨clearTraffic s, .ok,
    .cleared s.slotsInUse.length (s.slotsInUse.countP (answeredIn s)) s.calls.orphans.length⟩

/-- CLEAR_TRAFFIC (R127). -/
def execClearTraffic (r : Sender) (s : State) : Answer :=
  request (.clearTraffic r) r RequestKind.clearTraffic.code handleClearTraffic s

/-! ## SET_ORPHAN_LIMIT (R125) -/

/-- R125: the new limit is stored and draws in the orphans' deadlines. -/
def drawInAll (limit : Nat) (s : State) : State :=
  s.calls.orphans.foldl (drawIn limit) { s with calls := { s.calls with orphanLimit := limit } }

/-- R125: the orphans drawn in to a deadline no later than now, in list order. -/
def expiredByLimit (limit : Nat) (s : State) : List Nat :=
  (orphanList (drawInAll limit s)).filter (fun k =>
    drawnIn s limit k && decide (deadlineOf (drawInAll limit s) k ≤ s.now))

/-- R125: SET_ORPHAN_LIMIT when it is taken. -/
def handleOrphanLimit (limit : Option Nat) (s : State) : Reply :=
  match limit with
  | none => refuse .badRequest s
  | some n =>
    let lim := clamp 0 3600 n
    ⟨(expiredByLimit lim s).foldl expireOrphan (drawInAll lim s), okOr (outside 0 3600 n),
      .orphanLimit s.calls.orphanLimit lim (s.calls.orphans.countP (drawnIn s lim)) (expiredByLimit lim s).length⟩

/-- SET_ORPHAN_LIMIT (R125). -/
def execSetOrphanLimit (r : Sender) (limit : Option Nat) (s : State) : Answer :=
  request (.setOrphanLimit r limit) r RequestKind.setOrphanLimit.code (handleOrphanLimit limit) s

/-! ## Events of the call table -/

/-- R119: the notice that the owner of a reselected call receives. -/
def reselectionNotice (call : CallRef) (c : Call) : Notice :=
  match c.leg with
  | some l => .routeChanged call l.circuit l.group c.stepIndex c.reattempts
  | none => .callCleared call (c.lastCause.getD .glareYield) .unrouted

/-- R119: the owner of a call is told what its reselection found. -/
def tellOwner (call : CallRef) (s : State) : State :=
  match s.call call with
  | none => s
  | some c =>
    match c.owner with
    | some p => notify p (reselectionNotice call c) s
    | none => s

/-- R119: the queued reselection of a call displaced at glare. -/
def reselectDisplaced (call : CallRef) (s : State) : State :=
  match s.call call with
  | none => s
  | some c =>
    tellOwner call
      (reselect call .glareYield
        (s.setCall call.slot { c with reselectionPending := false, lastCause := some .glareYield }))

/-- GLARE_RESELECTION (R119): a queued reselection is taken; a call that was ended since gives it nothing to do. -/
def execGlareReselection (call : CallRef) (s : State) : Answer :=
  .next
    (if call ∈ s.calls.reselections then
      reselectDisplaced call
        { s with calls := { s.calls with reselections := s.calls.reselections.erase call } }
     else s)

/-- R120: an OFFER in progress whose inbound leg is on a listed group is noted with the list. -/
def OfferInProgress.note (gs : List Nat) (o : OfferInProgress) : OfferInProgress :=
  if o.record.inGroup ∈ gs then { o with noted := true } else o

/-- R120: the call table takes a list of groups: it ends the calls on them, and notes the OFFERs in progress. -/
def takeReleaseList (gs : List Nat) (s : State) : State :=
  s.slotsInUse.foldl (drainCall gs)
    { s with calls := { s.calls with offers := s.calls.offers.map (OfferInProgress.note gs) } }

/-- DRAIN_RELEASE_LIST (R120): the call table takes the oldest list handed to it. -/
def execDrainReleaseList (s : State) : Answer :=
  .next
    (match s.calls.releaseLists with
     | [] => s
     | gs :: rest => takeReleaseList gs { s with calls := { s.calls with releaseLists := rest } })

/-- R183: DETACH_DONE is composed once the call table has taken the loss. -/
def sendDetachDone (l : PortLoss) (counts : Nat × Nat × Nat) (s : State) : State :=
  match l.detachTag with
  | none => s
  | some tag =>
    compose l.port ⟨RequestKind.detach.code, tag, .ok, .detachDone counts.1 counts.2.1 counts.2.2⟩ s

/-- R110: the loss of the port of an OFFER in progress has been taken, with the partner handed with it. -/
def OfferInProgress.orphan (l : PortLoss) (o : OfferInProgress) : OfferInProgress :=
  if o.sender.port = l.port then { o with loss := some l.partner } else o

/-- R121, R122, R183: the call table takes a port loss, and a DETACH is answered after it. -/
def takePortLoss (l : PortLoss) (s : State) : State :=
  let s1 : State :=
    { s with
      calls :=
        { s.calls with
          losses := s.calls.losses.erase l
          offers := s.calls.offers.map (OfferInProgress.orphan l) } }
  sendDetachDone l (lossCounts s1 l) (loseCalls l s1)

/-- CALL_TABLE_PORT_LOSS (R121): the call table takes the oldest loss of the port that was handed to it. -/
def execCallTablePortLoss (port : Port) (s : State) : Answer :=
  .next
    (match s.calls.losses.find? (fun l => l.port == port) with
     | none => s
     | some l => takePortLoss l s)

/-- ORPHAN_EXPIRY (R123): the first orphan's deadline, when monotonic time has reached it. -/
def execOrphanExpiry (s : State) : Answer :=
  .next
    (match orphanList s with
     | [] => s
     | k :: _ => if deadlineOf s k ≤ s.now then expireOrphan s k else s)

end Sys2Proof.Machine
end

