-- ==== Sys2Proof/Machine/PlantRequests.lean ====
section
/-! DEFINITION. The meanings of chapter 1: DEFINE_GROUP to UNLOCK_PLANT, and the expiry of a guard. -/

namespace Sys2Proof.Machine

/-- R3: the values of an undefined group, the defaults of a new one. -/
def Group.defaults : Group :=
  ⟨0, .both, .winAll, [], .firstUp, none, 500, 0, 4, 5, false, [], 0, 0, 0, 0, 0⟩

/-! ## DEFINE_GROUP (R5 to R7) -/

/-- R5: some optional value was clamped. -/
def definitionClamped (d : GroupDefinition) : Bool :=
  outsideOpt 0 10000 d.guardTime || outsideOpt 0 255 d.threshold || outsideOpt 1 64 d.hysteresis ||
    outsideOpt 1 60 d.decay

/-- R6, R7: the record that a definition stores over the record that stands (the defaults for a new group). The idle set
and the counts are rebuilt after it. -/
def definedRecord (d : GroupDefinition) (dir : Direction) (gl : GlareRule) (hu : HuntMode) (g : Group) : Group :=
  { g with
    carrier := d.carrier
    direction := dir
    glare := gl
    ranges := d.ranges
    hunt := hu
    lastSeized := none
    guardTime := clampOpt 0 10000 d.guardTime g.guardTime
    threshold := clampOpt 0 255 d.threshold g.threshold
    hysteresis := clampOpt 1 64 d.hysteresis g.hysteresis
    decay := clampOpt 1 60 d.decay g.decay
    drainProtected := d.drainProtected.getD g.drainProtected }

/-- R6, R7: the definition is carried out. -/
def defineGroup (d : GroupDefinition) (dir : Direction) (gl : GlareRule) (hu : HuntMode) (s : State) : State :=
  let standing := (s.group d.group).getD .defaults
  let s1 := if (s.group d.group).isSome then s else s.setSvc d.group .initial
  let s2 := equip d.group d.ranges (unequip d.group d.ranges s1)
  report [d.group] s (rebuild (s2.setGroup d.group (some (definedRecord d dir gl hu standing))) d.group)

/-- R5: the first of the ordered checks that fails. -/
def definitionRefusal (d : GroupDefinition) (s : State) : Option Status :=
  if Config.groups ≤ d.group then some .outOfRange
  else if Config.carriers ≤ d.carrier then some .outOfRange
  else if !rangesWellFormed d.ranges then some .badRequest
  else if !rangesFit d.ranges then some .outOfRange
  else if s.plant.locked then some .plantLocked
  else if (s.group d.group).isSome && groupInUse s d.group then some .groupBusy
  else if assignedElsewhere s d.group d.ranges then some .circuitAssigned
  else none

/-- R5 to R7, R186: DEFINE_GROUP when it is taken. -/
def handleDefineGroup (d : GroupDefinition) (s : State) : Reply :=
  match d.direction.value?, d.glare.value?, d.hunt.value? with
  | some dir, some gl, some hu =>
    match definitionRefusal d s with
    | some st => refuse st s
    | none =>
      ⟨defineGroup d dir gl hu s, okOr (definitionClamped d), .groupCircuits ((d.ranges.map (·.count)).sum)⟩
  | _, _, _ => refuse .badRequest s

/-- DEFINE_GROUP (R5). -/
def execDefineGroup (r : Sender) (d : GroupDefinition) (s : State) : Answer :=
  request (.defineGroup r d) r RequestKind.defineGroup.code (handleDefineGroup d) s

/-! ## SET_GROUP_PARAMS (R8) -/

/-- R8 step 3: the request carries a carrier, direction or glare rule different from the group's. -/
def changesIdentity (p : GroupChanges) (g : Group) : Bool :=
  p.carrier.getD g.carrier != g.carrier || p.direction.orElse g.direction != g.direction ||
    p.glare.orElse g.glare != g.glare

/-- R8: some value was clamped. -/
def changesClamped (p : GroupChanges) : Bool :=
  outsideOpt 0 10000 p.guardTime || outsideOpt 0 255 p.threshold || outsideOpt 1 64 p.hysteresis ||
    outsideOpt 1 60 p.decay

/-- R8 step 4: the record with the fields present stored. -/
def changedRecord (p : GroupChanges) (g : Group) : Group :=
  { g with
    carrier := p.carrier.getD g.carrier
    direction := p.direction.orElse g.direction
    glare := p.glare.orElse g.glare
    hunt := p.hunt.orElse g.hunt
    guardTime := clampOpt 0 10000 p.guardTime g.guardTime
    threshold := clampOpt 0 255 p.threshold g.threshold
    hysteresis := clampOpt 1 64 p.hysteresis g.hysteresis
    decay := clampOpt 1 60 p.decay g.decay
    drainProtected := p.drainProtected.getD g.drainProtected }

/-- R8, R28: the fields are stored; a threshold or a hysteresis present derives the congestion state again. -/
def changeGroup (gn : Nat) (p : GroupChanges) (g : Group) (s : State) : State :=
  let s1 := s.setGroup gn (some (changedRecord p g))
  if p.threshold.isSome || p.hysteresis.isSome then rederive gn s1 else s1

/-- R8, R186: SET_GROUP_PARAMS when it is taken. -/
def handleSetGroupParams (gn : Nat) (p : GroupChanges) (s : State) : Reply :=
  if p.direction.bad || p.glare.bad || p.hunt.bad then refuse .badRequest s
  else if Config.groups ≤ gn then refuse .outOfRange s
  else if Config.carriers ≤ p.carrier.getD 0 then refuse .outOfRange s
  else
    match s.group gn with
    | none => refuse .wrongState s
    | some g =>
      if s.plant.locked && changesIdentity p g then refuse .plantLocked s
      else ⟨changeGroup gn p g s, okOr (changesClamped p), .nothing⟩

/-- SET_GROUP_PARAMS (R8). -/
def execSetGroupParams (r : Sender) (group : Nat) (p : GroupChanges) (s : State) : Answer :=
  request (.setGroupParams r group p) r RequestKind.setGroupParams.code (handleSetGroupParams group p) s

/-! ## DELETE_GROUP (R9) -/

/-- R28: the level 0 of a deleted group whose source stood above 0. -/
def clearGroupLevel (before : State) (gn : Nat) (s : State) : State :=
  if (before.svc gn).congestion = .opened then s else reportLevel ⟨.groupCongestion, gn⟩ 0 s

/-- R9: the group is deleted. -/
def deleteGroup (gn : Nat) (s : State) : State :=
  let s1 := ((unequip gn [] s).setGroup gn none).setSvc gn .initial
  reevaluate [gn] s (clearGroupLevel s gn s1)

/-- R9: DELETE_GROUP when it is taken. -/
def handleDeleteGroup (gn : Nat) (s : State) : Reply :=
  if Config.groups ≤ gn then refuse .outOfRange s
  else if s.plant.locked then refuse .plantLocked s
  else if (s.group gn).isNone then ⟨s, .ok, .nothing⟩
  else if groupInUse s gn || s.service.batch.resultOf gn == some .pending then refuse .groupBusy s
  else ⟨deleteGroup gn s, .ok, .nothing⟩

/-- DELETE_GROUP (R9). -/
def execDeleteGroup (r : Sender) (group : Nat) (s : State) : Answer :=
  request (.deleteGroup r group) r RequestKind.deleteGroup.code (handleDeleteGroup group) s

/-! ## Blocking (R22, R23) -/

/-- R22, R23, R36: a block or unblock request when it is taken: it closes a forming join window whatever its answer, and
sets (`v`) or clears the flag. -/
def handleFlags (v : Bool) (first count : Nat) (kind : Arg FlagKind) (s : State) : Reply :=
  let s1 := closeWindow s
  let r : Range := ⟨first, clamp 1 2048 count⟩
  if Config.circuits ≤ first then refuse .outOfRange s1
  else if Config.circuits < first + r.count then refuse .outOfRange s1
  else
    match kind.value? with
    | none => refuse .badRequest s1
    | some k =>
      ⟨flagRange r k v s1, okOr (outside 1 2048 count),
        .flagsChanged (flagChanges s1 r k v) (r.count - (equippedIn s1 r).length)⟩

/-- BLOCK_CIRCUITS (R22). -/
def execBlockCircuits (r : Sender) (first count : Nat) (kind : Arg FlagKind) (s : State) : Answer :=
  request (.blockCircuits r first count kind) r RequestKind.blockCircuits.code (handleFlags true first count kind) s

/-- UNBLOCK_CIRCUITS (R23). -/
def execUnblockCircuits (r : Sender) (first count : Nat) (kind : Arg FlagKind) (s : State) : Answer :=
  request (.unblockCircuits r first count kind) r RequestKind.unblockCircuits.code (handleFlags false first count kind) s

/-! ## The plant lock (R10) -/

/-- R10: the plant lock is set or cleared. -/
def handleLock (v : Bool) (s : State) : Reply := ⟨{ s with plant := { s.plant with locked := v } }, .ok, .nothing⟩

/-- LOCK_PLANT (R10). -/
def execLockPlant (r : Sender) (s : State) : Answer := request (.lockPlant r) r RequestKind.lockPlant.code (handleLock true) s

/-- UNLOCK_PLANT (R10). -/
def execUnlockPlant (r : Sender) (s : State) : Answer := request (.unlockPlant r) r RequestKind.unlockPlant.code (handleLock false) s

/-! ## Queries (R24, R25) -/

/-- R24: what QUERY_GROUP shows of a defined group. -/
def groupView (s : State) (gn : Nat) (g : Group) : GroupView where
  carrier := g.carrier
  direction := g.direction
  glare := g.glare
  ranges := g.ranges
  hunt := g.hunt
  lastSeized := g.lastSeized
  guardTime := g.guardTime
  threshold := g.threshold
  hysteresis := g.hysteresis
  decay := g.decay
  drainProtected := g.drainProtected
  available := g.available
  blockedIdle := g.blockedIdle
  busyIn := g.busyIn
  busyOut := g.busyOut
  inGuard := g.inGuard
  idleCount := g.idleCount
  congestion := (s.svc gn).congestion
  farLevel := (s.svc gn).farLevel
  service := (s.svc gn).service
  membership := s.service.batch.resultOf gn

/-- R24: QUERY_GROUP when it is taken. -/
def handleQueryGroup (gn : Nat) (s : State) : Reply :=
  if Config.groups ≤ gn then refuse .outOfRange s
  else
    match s.group gn with
    | none => ⟨s, .ok, .groupUndefined⟩
    | some g => ⟨s, .ok, .group (groupView s gn g)⟩

/-- QUERY_GROUP (R24). -/
def execQueryGroup (r : Sender) (group : Nat) (s : State) : Answer :=
  request (.queryGroup r group) r RequestKind.queryGroup.code (handleQueryGroup group) s

/-- R25: what QUERY_CIRCUIT shows. The remaining guard time is the guard expiry minus the monotonic time. -/
def circuitView (s : State) (c : Nat) : CircuitView :=
  match s.circuit c with
  | none => ⟨.unequipped, false, false, none, none, none⟩
  | some e =>
    match e.occupancy with
    | .idle => ⟨.idle, e.localFlag, e.remoteFlag, some e.group, none, none⟩
    | .busyIn call => ⟨.busyIn, e.localFlag, e.remoteFlag, some e.group, some call, none⟩
    | .busyOut call => ⟨.busyOut, e.localFlag, e.remoteFlag, some e.group, some call, none⟩
    | .guard x => ⟨.guard, e.localFlag, e.remoteFlag, some e.group, none, some ((x : Int) - (s.now : Int))⟩

/-- R25: QUERY_CIRCUIT when it is taken. -/
def handleQueryCircuit (c : Nat) (s : State) : Reply :=
  if Config.circuits ≤ c then refuse .outOfRange s else ⟨s, .ok, .circuit (circuitView s c)⟩

/-- QUERY_CIRCUIT (R25). -/
def execQueryCircuit (r : Sender) (circuit : Nat) (s : State) : Answer :=
  request (.queryCircuit r circuit) r RequestKind.queryCircuit.code (handleQueryCircuit circuit) s

/-! ## Guard expiry (R21) -/

/-- GUARD_EXPIRY (R21): the expiry of a circuit's guard is taken; without one that is reached it has nothing to act on. -/
def execGuardExpiry (circuit : Nat) (s : State) : Answer := .next (expireGuard circuit s)

end Sys2Proof.Machine
end

