-- ==== Sys2Proof/Machine/Layouts.lean ====
section
/-! DEFINITION. The layouts of chapter 11 (R196, R197): frames with their check value, the settlement record, the call
record, the alarm notice body, and the codes of section 11.3. Multi-byte fields go most significant byte first. -/

namespace Sys2Proof.Machine

/-! ## Bytes and the check value (R196) -/

/-- The low `n` bytes of a number, most significant first. -/
def beBytes : Nat → Nat → List Byte
  | 0, _ => []
  | n + 1, x => BitVec.ofNat 8 (x / 256 ^ n) :: beBytes n x

/-- One bit step of the cyclic check, polynomial 0x1021. -/
def checkBit (c : CheckWord) : CheckWord := if c.msb then (c <<< 1) ^^^ 0x1021#16 else c <<< 1

/-- Eight bit steps. -/
def checkBits (c : CheckWord) : CheckWord :=
  checkBit (checkBit (checkBit (checkBit (checkBit (checkBit (checkBit (checkBit c)))))))

/-- One byte enters the check at its most significant end. PRESUMED: the order of the bits (notes/assumptions/4.md). -/
def checkByte (c : CheckWord) (b : Byte) : CheckWord := checkBits (c ^^^ (b.zeroExtend 16 <<< 8))

/-- R196: the check value over some bytes, from 0xFFFF, with nothing done to the result. -/
def checkValue (bs : List Byte) : CheckWord := bs.foldl checkByte 0xFFFF#16

/-! ## Codes (section 11.3) -/

/-- Status codes 0 to 32. -/
def Status.code : Status → Nat
  | .ok => 0 | .adjusted => 1 | .queueFull => 2 | .notAttached => 3 | .detaching => 4 | .badRequest => 5
  | .outOfRange => 6 | .notOwner => 7 | .noCall => 8 | .wrongState => 9 | .circuitBusy => 10 | .circuitBlocked => 11
  | .glare => 12 | .wrongDirection => 13 | .groupUnavailable => 14 | .noRoute => 15 | .barred => 16 | .gapped => 17
  | .carrierHold => 18 | .allRoutesBusy => 19 | .callTableFull => 20 | .tableFull => 21 | .badPlan => 22
  | .plantLocked => 23 | .circuitAssigned => 24 | .groupBusy => 25 | .batchFull => 26 | .stageBusy => 27
  | .notStageHolder => 28 | .activationPending => 29 | .clockUnset => 30 | .closedBankFull => 31 | .noFetchBlock => 32

end Sys2Proof.Machine

namespace Sys2Proof

/-- Call cause codes. -/
def Cause.code : Cause → Nat
  | .normal => 0 | .farRefused => 1 | .farCongested => 2 | .circuitFault => 3 | .glareYield => 4 | .drained => 5
  | .portLost => 6 | .orphanExpired => 7 | .trafficCleared => 8 | .reattemptsExhausted => 9

/-- Port codes. -/
def Port.code : Port → Nat
  | .a => 0 | .b => 1 | .c => 2 | .d => 3

/-- Alarm class codes. -/
def AlarmClass.code : AlarmClass → Nat
  | .groupCongestion => 0 | .planExhausted => 1 | .carrierHold => 2 | .settlementBacklog => 3

/-- Call class codes. -/
def CallClass.code : CallClass → Nat
  | .normal => 0 | .priority => 1

/-- Step kind codes. -/
def StepKind.code : StepKind → Nat
  | .primary => 0 | .pool => 1 | .final => 2

/-- Codes by place in the owning chapter's list (R3). -/
def Direction.code : Direction → Nat
  | .both => 0 | .inOnly => 1 | .outOnly => 2

/-- Codes by place in the owning chapter's list (R3). -/
def GlareRule.code : GlareRule → Nat
  | .winAll => 0 | .yieldAll => 1 | .winEven => 2 | .winOdd => 3

/-- Codes by place in the owning chapter's list (R3). -/
def HuntMode.code : HuntMode → Nat
  | .firstUp => 0 | .firstDown => 1 | .rotate => 2

/-- Codes by place in the owning chapter's list (R22). -/
def FlagKind.code : FlagKind → Nat
  | .localFlag => 0 | .remoteFlag => 1

/-- Codes by place in the owning chapter's list (R132). -/
def DayType.code : DayType → Nat
  | .workday => 0 | .restday => 1

/-- Codes by place in the owning chapter's list (R132). -/
def Band.code : Band → Nat
  | .band0 => 0 | .band1 => 1 | .band2 => 2 | .band3 => 3

/-- Codes by place in the owning chapter's list (R134). -/
def Bank.code : Bank → Nat
  | .live => 0 | .retired => 1 | .staging => 2

namespace Machine

/-- A port, or 255 for none (section 11.3). -/
def portCode (p : Option Port) : Nat :=
  match p with
  | some p => p.code
  | none => 255

/-- Call state codes. -/
def CallState.code : CallState → Nat
  | .routed => 1 | .proceeding => 2 | .answered => 3 | .unrouted => 4

/-- Port state codes. -/
def PortState.code : PortState → Nat
  | .down => 0 | .up => 1 | .detaching => 2

/-- PORT_STATE cause codes. -/
def PortCause.code : PortCause → Nat
  | .attach _ => 0 | .detach => 1 | .linkLoss => 2

/-- CALL_CLEARED disposition codes. -/
def Disposition.code : Disposition → Nat
  | .unrouted => 0 | .released => 1

/-- Codes by place in the owning chapter's list (R27). -/
def Congestion.code : Congestion → Nat
  | .opened => 0 | .reserved => 1 | .full => 2

/-- Codes by place in the owning chapter's list (R32). -/
def ServiceState.code : ServiceState → Nat
  | .inService => 0 | .draining => 1 | .drainSuspended => 2 | .outOfService => 3

/-- Codes by place in the owning chapter's list (R33). -/
def BatchState.code : BatchState → Nat
  | .none => 0 | .forming => 1 | .draining => 2 | .suspended => 3

/-- Codes by place in the owning chapter's list (R33). -/
def MemberResult.code : MemberResult → Nat
  | .pending => 0 | .drained => 1 | .isProtected => 2 | .returned => 3

/-- Codes by place in the owning chapter's list (R136). -/
def StagingState.code : StagingState → Nat
  | .none => 0 | .opened => 1 | .scheduled => 2 | .held => 3

/-- Notice kind codes. -/
def Notice.kind : Notice → Nat
  | .routeChanged _ _ _ _ _ => 1
  | .callCleared _ _ _ => 2
  | .takeover _ _ => 3
  | .drainDone _ _ => 4
  | .activationHeld _ _ _ => 5
  | .tariffActive _ _ _ _ => 6
  | .periodClosed _ _ => 7
  | .portState _ _ _ => 8
  | .noticeOverflow _ => 9
  | .alarm _ _ => 10

/-! ## Records (R197) -/

/-- A bit of a flags byte. -/
def bitAt (n : Nat) (on : Bool) : Nat := if on then 2 ^ n else 0

/-- R197: a field that is absent is sent as bytes 0. -/
def orZero (x : Option Nat) : Nat := x.getD 0

/-- R197: the flags byte of a settlement record. -/
def PriceFlags.byte (f : PriceFlags) : Nat :=
  bitAt 0 f.timeUnset + bitAt 1 f.durationClamped + bitAt 2 f.capped + bitAt 3 f.altPremium + bitAt 4 f.congPremium +
    bitAt 5 f.forced

/-- R197: an answer week time; absent under TIME_UNSET it is sent as bytes 255. -/
def weekTimeField (t : Option Nat) : Nat := t.getD 4294967295

/-- R197: the 56 bytes of a settlement record. -/
def settlementBytes (x : SettlementRecord) : List Byte :=
  let r := x.result
  beBytes 2 x.period ++ beBytes 2 r.call.slot ++ beBytes 1 r.call.generation ++ beBytes 1 r.inCarrier ++
    beBytes 1 r.outCarrier ++ beBytes 1 r.inGroup ++ beBytes 1 r.outGroup ++ beBytes 2 r.generation ++
    beBytes 1 r.tariffClass ++ beBytes 1 r.stepKind.code ++ beBytes 1 r.cause.code ++ beBytes 1 r.flags.byte ++
    beBytes 1 0 ++ beBytes 4 (weekTimeField r.answerWeekTime) ++ beBytes 4 r.duration ++ beBytes 4 r.billed ++
    beBytes 4 r.seconds0 ++ beBytes 4 r.seconds1 ++ beBytes 4 r.seconds2 ++ beBytes 4 r.seconds3 ++
    beBytes 6 r.payable ++ beBytes 6 r.receivable

/-- R172, R197: the body of an OK response to FETCH_RECORDS. -/
def fetchBytes (queueLength : Nat) (rs : List SettlementRecord) : List Byte :=
  beBytes 1 rs.length ++ beBytes 2 queueLength ++ rs.flatMap settlementBytes

/-- R103: the answer facts hold the TIME_UNSET fact. -/
def AnswerFacts.timeUnset (a : AnswerFacts) : Bool := a.weekTime.isNone

/-- R197: the presence bits of a call record. -/
def Call.presence (c : Call) : Nat :=
  bitAt 0 c.leg.isSome + bitAt 1 c.answer.isSome + bitAt 2 (c.answer.bind (·.weekTime)).isSome +
    bitAt 3 c.former.isSome + bitAt 4 c.orphanDeadline.isSome + bitAt 5 c.lastCause.isSome

/-- R197: the flags of a call record. -/
def Call.flagBits (c : Call) : Nat :=
  bitAt 0 c.poolTried + bitAt 1 c.memoryFlag + bitAt 2 (c.leg.any (·.alternatePremium)) +
    bitAt 3 (c.leg.any (·.congestionPremium)) + bitAt 4 c.reselectionPending + bitAt 5 (c.answer.any (·.timeUnset))

/-- R197: the answer week time of a call record: 255 under TIME_UNSET, 0 before the answer. -/
def Call.weekTimeBytes (c : Call) : Nat :=
  match c.answer with
  | some a => weekTimeField a.weekTime
  | none => 0

/-- R126, R197: the remaining orphan time. Past the deadline it is a free value (notes/assumptions/3.md). -/
def remainingBytes (t : Option Int) : List Byte :=
  match t with
  | none => beBytes 4 0
  | some (Int.ofNat n) => beBytes 4 n
  | some (Int.negSucc n) => beBytes 4 (Config.overdueField (n + 1)).toNat

/-- R197: the 60 bytes of a call record. -/
def callBytes (v : CallView) : List Byte :=
  let c := v.call
  beBytes 2 v.ref.slot ++ beBytes 1 v.ref.generation ++ beBytes 1 c.state.code ++ beBytes 1 (portCode c.owner) ++
    beBytes 1 c.cls.code ++ beBytes 1 c.presence ++ beBytes 1 c.flagBits ++ beBytes 2 c.inCircuit ++
    beBytes 1 c.inGroup ++ beBytes 1 c.inCarrier ++ beBytes 2 (orZero (c.leg.map (·.circuit))) ++
    beBytes 1 (orZero (c.leg.map (·.group))) ++ beBytes 1 (orZero (c.leg.map (·.carrier))) ++
    beBytes 2 c.destination ++ beBytes 2 c.plan ++ beBytes 1 c.stepIndex ++ beBytes 1 c.stepKind.code ++
    beBytes 1 c.tariffClass ++ beBytes 1 c.reattempts ++ beBytes 1 (orZero (c.lastCause.map (·.code))) ++
    beBytes 1 (portCode (c.former.map (·.port))) ++ beBytes 2 (orZero (c.answer.map (·.generation))) ++
    beBytes 6 (orZero (c.answer.map (·.monotonic))) ++ beBytes 4 c.weekTimeBytes ++
    beBytes 6 (orZero (c.former.map (·.lossTime))) ++ beBytes 6 (orZero c.orphanDeadline) ++
    remainingBytes v.remainingOrphan ++ beBytes 6 (orZero v.sinceAnswer)

/-- R197: the 4 bytes of an alarm notice body. -/
def alarmBytes (a : AlarmSource) (level : Nat) : List Byte :=
  beBytes 1 a.cls.code ++ beBytes 2 a.number ++ beBytes 1 level

/-- R196: the body of DETACH_DONE. -/
def detachDoneBytes (takenOver ended orphaned : Nat) : List Byte :=
  beBytes 2 takenOver ++ beBytes 2 ended ++ beBytes 2 orphaned

/-! ## Frames from the device (R196) -/

/-- R196: what the header of a frame holds beside the length of its body: kind, tag, code and status. -/
structure FrameHead where
  kind : Byte
  tag : Byte
  code : Byte
  status : Byte
  deriving DecidableEq, Repr

/-- R196: a frame with its check value. -/
def encodeFrame (kind tag code status : Byte) (body : List Byte) : List Byte :=
  let start := kind :: tag :: (beBytes 2 body.length ++ code :: status :: body)
  start ++ beBytes 2 (checkValue start).toNat

/-- R196: the frame of a header and a body. -/
def FrameHead.frame (h : FrameHead) (body : List Byte) : List Byte := encodeFrame h.kind h.tag h.code h.status body

/-- The body of a response, where the spec gives its bytes: an answer without results, DETACH_DONE, the call record and
fetched records. For the other results it gives the order and not the widths (notes/assumptions/6.md). -/
def Result.body (x : Result) : Option (List Byte) :=
  match x with
  | .nothing => some []
  | .detachDone t e o => some (detachDoneBytes t e o)
  | .call v => some (callBytes v)
  | .records n rs => some (fetchBytes n rs)
  | _ => none

/-- R196: the header of a response. -/
def Response.head (x : Response) : FrameHead := ⟨2, x.tag, BitVec.ofNat 8 x.code, BitVec.ofNat 8 x.status.code⟩

/-- R196: the frame of a response, where the spec gives the bytes of its body. -/
def Response.frame (x : Response) : Option (List Byte) := x.result.body.map x.head.frame

/-- R196, R197: the body of an alarm notice. Of the event notices the spec gives the order of the fields and not their
widths (notes/assumptions/6.md). -/
def Notice.body (n : Notice) : Option (List Byte) :=
  match n with
  | .alarm a level => some (alarmBytes a level)
  | _ => none

/-- R196: the header of a notice: tag and status 0, and the notice kind as its code. -/
def Notice.head (n : Notice) : FrameHead := ⟨3, 0, BitVec.ofNat 8 n.kind, 0⟩

/-- R196: the frame of a notice, where the spec gives the bytes of its body. -/
def Notice.frame (n : Notice) : Option (List Byte) := n.body.map n.head.frame

/-! ## Frames from a processor (R181, R196) -/

/-- R181: what the port interface makes of a frame. -/
inductive Judged where
  | invalid
  | fill
  | request (q : Request)
  deriving DecidableEq, Repr

/-- R181: a frame of the length its header allows, with a correct check value, by its kind. -/
def judgeKind (kind tag code : Byte) (body : List Byte) : Judged :=
  if kind = 0 then (if body.isEmpty then .fill else .invalid)
  else if kind = 1 then .request ⟨tag, code.toNat, .bytes body⟩
  else .invalid

/-- R181, R196: a frame from a processor is judged. -/
def judgeFrame (bytes : List Byte) : Judged :=
  match bytes with
  | kind :: tag :: l1 :: l0 :: code :: status :: rest =>
    let l := beNat [l1, l0]
    let body := rest.take l
    if 4096 < l ∨ rest.length ≠ l + 2 then .invalid
    else if rest.drop l ≠ beBytes 2 (checkValue (kind :: tag :: l1 :: l0 :: code :: status :: body)).toNat then .invalid
    else judgeKind kind tag code body
  | _ => .invalid

/-- R181: the frame is valid. -/
def Judged.valid : Judged → Bool
  | .invalid => false
  | .fill => true
  | .request _ => true

end Machine

end Sys2Proof
end

