-- ==== Sys2Proof/Machine/PortRequests.lean ====
section
/-! DEFINITION. The meanings of chapter 10: ATTACH to IDENTIFY, unknown requests, frames, link loss, the end of DETACH,
what leaves the link, and reset. -/

namespace Sys2Proof.Machine

/-! ## ATTACH and DETACH (R182, R183) -/

/-- R182: a port that was DOWN comes UP. -/
def comeUp (p : Port) (partner : Option Port) (s : State) : State :=
  notifyOthersUp p (.portState p .up (.attach partner))
    (s.setPort p { s.port p with state := .up, partner := partner, silence := 0 })

/-- R182: a port that is UP replaces its partner. -/
def replacePartner (p : Port) (partner : Option Port) (s : State) : State :=
  notifyOthersUp p (.portState p .up (.attach partner)) (s.setPort p { s.port p with partner := partner })

/-- R182: ATTACH with a partner that passes the checks. -/
def attachTo (p : Port) (partner : Option Port) (s : State) : Reply :=
  match (s.port p).state with
  | .up => ⟨replacePartner p partner s, .ok, .partnerChanged (s.port p).partner partner⟩
  | _ => ⟨comeUp p partner s, .ok, .attached p partner⟩

/-- R182: ATTACH when it is taken. -/
def handleAttach (p : Port) (partner : Arg Port) (s : State) : Reply :=
  match partner with
  | .undefined => refuse .outOfRange s
  | .absent => attachTo p none s
  | .given q => if q = p then refuse .badRequest s else attachTo p (some q) s

/-- ATTACH (R182). -/
def execAttach (r : Sender) (partner : Arg Port) (s : State) : Answer :=
  request (.attach r partner) r RequestKind.attach.code (handleAttach r.port partner) s

/-- R183 steps 1 to 3: DETACH is taken, and stays in progress until DETACH_DONE is composed. -/
def startDetach (r : Sender) (s : State) : State :=
  settleSync r.port
    (notifyOthersUp r.port (.portState r.port .detaching .detach)
      (s.setPort r.port
        { s.port r.port with
          state := .detaching
          requests := []
          inProgress := some (waiting (.detach r) r RequestKind.detach.code) }))

/-- DETACH (R183). -/
def execDetach (r : Sender) (s : State) : Answer :=
  .next
    (match taken (.detach r) r RequestKind.detach.code s with
     | some s1 => startDetach r s1
     | none => arrive r.port (waiting (.detach r) r RequestKind.detach.code) s)

/-! ## SUBSCRIBE and ACK_ALARM (R191, R192) -/

/-- R191: the class's bit is set; turning it on queues its pending sources. -/
def setMask (p : Port) (c : AlarmClass) (on : Bool) (s : State) : State :=
  let s1 := s.setPort p { s.port p with mask := (s.port p).mask.set c on }
  if on then rescan p s1 else settleSync p s1

/-- R191: the mask as a response carries it. -/
def Mask.result (m : Mask) : Result := .mask m.groupCongestion m.planExhausted m.carrierHold m.settlementBacklog

/-- R191: SUBSCRIBE when it is taken. -/
def handleSubscribe (p : Port) (cls : Arg AlarmClass) (on : Option Bool) (s : State) : Reply :=
  match cls.value?, on with
  | some c, some b => ⟨setMask p c b s, .ok, ((s.port p).mask.set c b).result⟩
  | _, _ => refuse .badRequest s

/-- SUBSCRIBE (R191). -/
def execSubscribe (r : Sender) (cls : Arg AlarmClass) (on : Option Bool) (s : State) : Answer :=
  request (.subscribe r cls on) r RequestKind.subscribe.code (handleSubscribe r.port cls on) s

/-- R192: the sources an ACK_ALARM names: one, or every source of the class. -/
def ackedSources (c : AlarmClass) (source : Option Nat) : List AlarmSource :=
  match source with
  | some n => [⟨c, n⟩]
  | none => sourcesOf c

/-- R192: the outstanding flag of one source is cleared. -/
def clearFlag (p : Port) (s : State) (a : AlarmSource) : State :=
  if ((s.port p).alarms.get a.index).outstanding then
    s.setPort p
      { s.port p with
        alarms := (s.port p).alarms.set a.index { (s.port p).alarms.get a.index with outstanding := false } }
  else s

/-- R192: how many of the sources have their flag set. -/
def flagsSet (s : State) (p : Port) (as : List AlarmSource) : Nat :=
  as.countP (fun a => ((s.port p).alarms.get a.index).outstanding)

/-- R192: the flags are cleared, then the sources of the class that are now pending are queued. -/
def ackSources (p : Port) (c : AlarmClass) (as : List AlarmSource) (s : State) : State :=
  scanClass p (as.foldl (clearFlag p) s) c

/-- R192: ACK_ALARM when it is taken. -/
def handleAckAlarm (p : Port) (cls : Arg AlarmClass) (source : Option Nat) (s : State) : Reply :=
  match cls.value? with
  | none => refuse .badRequest s
  | some c =>
    if source.any (fun n => decide (AlarmSource.count c ≤ n)) then refuse .outOfRange s
    else
      let s1 := ackSources p c (ackedSources c source) s
      ⟨settleSync p s1, .ok,
        .acknowledged (flagsSet s p (ackedSources c source)) ((s1.port p).notices.length - (s.port p).notices.length)⟩

/-- ACK_ALARM (R192). -/
def execAckAlarm (r : Sender) (cls : Arg AlarmClass) (source : Option Nat) (s : State) : Answer :=
  request (.ackAlarm r cls source) r RequestKind.ackAlarm.code (handleAckAlarm r.port cls source) s

/-! ## SYNC and IDENTIFY (R193, R194) -/

/-- R193: the sources pending on a port, in scan order. -/
def pendingSources (s : State) (p : Port) : List AlarmSource :=
  (allClasses.flatMap sourcesOf).filter (pendingOn s p)

/-- R193: the response to SYNC, composed at once, with what it waits for. -/
def heldSync (r : Sender) (s : State) : Held where
  response :=
    ⟨RequestKind.sync.code, r.tag, .ok, .synced (s.port r.port).notices.length (pendingSources s r.port).length⟩
  wait := some ⟨(s.port r.port).notices.length, (pendingSources s r.port).map (fun a => ⟨a, none⟩)⟩

/-- R193: SYNC when it is taken: its response is held, and goes at once when it waits for nothing. -/
def holdSync (r : Sender) (s : State) : State :=
  settleSync r.port (s.setPort r.port { s.port r.port with held := (s.port r.port).held ++ [heldSync r s] })

/-- SYNC (R193). -/
def execSync (r : Sender) (s : State) : Answer :=
  .next
    (match taken (.sync r) r RequestKind.sync.code s with
     | some s1 => holdSync r s1
     | none => arrive r.port (waiting (.sync r) r RequestKind.sync.code) s)

/-- R194: IDENTIFY when it is taken. -/
def handleIdentify (p : Port) (s : State) : Reply :=
  ⟨s, .ok, .identity Config.capacities Config.revision p (s.port p).partner (s.port p).fetchBlock⟩

/-- IDENTIFY (R194). -/
def execIdentify (r : Sender) (s : State) : Answer :=
  request (.identify r) r RequestKind.identify.code (handleIdentify r.port) s

/-- UNKNOWN_REQUEST (R186, R196): a taken request of no known kind, or without the form its kind allows. DESIGN CHOICE
(notes/assumptions/18.md): of a BLOCK_CIRCUITS, UNBLOCK_CIRCUITS or RETURN_GROUP without its form R186 says that it changes
nothing and R36 that it closes a forming join window; here it changes nothing, and the window stays open. -/
def execUnknownRequest (r : Sender) (code : Nat) (s : State) : Answer :=
  request (.unknownRequest r code) r code (refuse .badRequest) s

/-! ## The link (R181, R183, R185, R186, R188) -/

/-- R181: a valid frame restarts the link-loss count of a port that keeps one. -/
def restartCount (p : Port) (s : State) : State :=
  if (s.port p).state = .down then s else s.setPort p { s.port p with silence := 0 }

/-- R181, R185: a frame that has been judged. -/
def takeFrame (p : Port) (j : Judged) (s : State) : State :=
  match j with
  | .invalid => s
  | .fill => restartCount p s
  | .request q => arrive p q (restartCount p s)

/-- FRAME_RECEIVED (R181). While RESET_N is held asserted no frame is judged (R195). -/
def execFrameReceived (port : Port) (bytes : List Byte) (s : State) : Answer :=
  .next (if s.resetLine then s else takeFrame port (judgeFrame bytes) s)

/-- R181: 20 ms have passed without a valid frame on a port that is not DOWN. While RESET_N is held asserted the count does
not run, and no loss is declared (R195). -/
def linkSilent (s : State) (p : Port) : Bool :=
  !s.resetLine && (s.port p).state != .down && decide (Config.linkLossMs ≤ (s.port p).silence)

/-- LINK_LOSS (R181, R184): the port goes DOWN when its link has been silent for the time. -/
def execLinkLoss (port : Port) (s : State) : Answer :=
  .next (if linkSilent s port then portDown port .linkLoss none s else s)

/-- R183: every response composed before the DETACH has been sent. -/
def detachDrained (s : State) (p : Port) : Bool :=
  (s.port p).state == .detaching && (s.port p).outbox.isEmpty && (s.port p).held.isEmpty

/-- DETACH_COMPLETE (R183, R184): the detaching port goes DOWN once nothing composed is unsent. -/
def execDetachComplete (port : Port) (s : State) : Answer :=
  .next
    (if detachDrained s port then portDown port .detach ((s.port port).inProgress.map (·.tag)) s else s)

/-- R186: no response that is not held waits to be sent. -/
def linkFree (r : PortRecord) : Bool := r.answers.isEmpty && r.outbox.isEmpty

/-- NOTICE_SENT (R188): the oldest notice leaves; a response that is not held would go first (R186). While RESET_N is held
asserted nothing is sent (R195). -/
def execNoticeSent (port : Port) (s : State) : Answer :=
  .next (if !s.resetLine && linkFree (s.port port) then noticeLeft port s else s)

/-- R185, R186: the response that leaves the link next: answers made at once do not wait behind composed ones. -/
def responseLeft (r : PortRecord) : PortRecord :=
  match r.answers with
  | _ :: rest => { r with answers := rest }
  | [] => { r with outbox := r.outbox.drop 1 }

/-- RESPONSE_SENT (R186): the next response leaves the link. While RESET_N is held asserted nothing is sent (R195). -/
def execResponseSent (port : Port) (s : State) : Answer :=
  .next (if s.resetLine then s else s.setPort port (responseLeft (s.port port)))

/-- R185, R186: the frame that the link sends next, where the spec gives its bytes. -/
def nextFrame (s : State) (p : Port) : Option (List Byte) :=
  if s.resetLine then none
  else
    match (s.port p).answers, (s.port p).outbox, (s.port p).notices with
    | x :: _, _, _ => x.frame
    | [], x :: _, _ => x.frame
    | [], [], n :: _ => n.frame
    | [], [], [] => none

/-! ## Reset (R195) -/

/-- R195: device reset. The commands that wait outside the device and the count of free values drawn are not the
device's (notes/assumptions/15.md). -/
def deviceReset (s : State) : State := { State.reset with freeDrawn := s.freeDrawn, pending := s.pending }

/-- RESET_N (R195): one change of the line (notes/assumptions/38.md). It is asserted, and held so until the next RESET_N
releases it, which puts the device in device reset. -/
def execResetN (s : State) : Answer := .next (if s.resetLine then deviceReset s else { s with resetLine := true })

/-- POWER_ON (R195). -/
def execPowerOn (s : State) : Answer := .next (deviceReset s)

end Sys2Proof.Machine
end

