-- ==== Sys2Proof/Machine/RoutingRequests.lean ====
section
/-! DEFINITION. The meanings of chapters 4 and 5: route plans, the reattempt limit and the route memory. -/

namespace Sys2Proof.Machine

/-! ## WRITE_PLAN (R64, R65) -/

/-- R64: the first of the checks 3 to 6 that fails. -/
def planRefusal (steps : List PlanStep) : Option Status :=
  if steps.any (fun st => decide (Config.groups ≤ st.group)) then some .outOfRange
  else if steps.any (fun st => decide (Config.tariffClasses ≤ st.tariffClass)) then some .outOfRange
  else if !kindsInOrder steps then some .badPlan
  else if !groupsDistinct steps then some .badPlan
  else none

/-- R65 step 1: the plan leaves the sets of the groups that only the old steps name and joins those of the new. -/
def updatePlanSets (plan : Nat) (old new : List PlanStep) (t : Table (List Nat) []) : Table (List Nat) [] :=
  new.foldl (fun t st => t.set st.group (insertNumber plan (t.get st.group)))
    (old.foldl (fun t st => t.set st.group (removeNumber plan (t.get st.group))) t)

/-- R65: the plan is stored, its sets updated, its exhaustion evaluated and its route-memory entries invalidated. -/
def storePlan (plan : Nat) (steps : List PlanStep) (s : State) : State :=
  invalidatePlan plan
    (evaluatePlan
      { s with
        routes := { s.routes with plans := s.routes.plans.set plan steps }
        service :=
          { s.service with planSets := updatePlanSets plan (s.plan plan) steps s.service.planSets } }
      plan)

/-- R64, R65: WRITE_PLAN when it is taken. -/
def handleWritePlan (plan : Nat) (args : List StepArg) (s : State) : Reply :=
  if Config.plans ≤ plan then refuse .outOfRange s
  else
    match readSteps args with
    | none => refuse .badRequest s
    | some steps =>
      match planRefusal steps with
      | some st => refuse st s
      | none => ⟨storePlan plan steps s, .ok, .planWritten (s.plan plan).length steps.length⟩

/-- WRITE_PLAN (R64). -/
def execWritePlan (r : Sender) (plan : Nat) (steps : List StepArg) (s : State) : Answer :=
  request (.writePlan r plan steps) r RequestKind.writePlan.code (handleWritePlan plan steps) s

/-! ## QUERY_PLAN (R68) and SET_REATTEMPT_LIMIT (R85) -/

/-- R68: QUERY_PLAN when it is taken. -/
def handleQueryPlan (plan : Nat) (s : State) : Reply :=
  if Config.plans ≤ plan then refuse .outOfRange s
  else
    ⟨s, .ok, .plan ((s.plan plan).map (fun st => ⟨st, (s.group st.group).isSome⟩)) (s.service.exhausted.get plan)⟩

/-- QUERY_PLAN (R68). -/
def execQueryPlan (r : Sender) (plan : Nat) (s : State) : Answer :=
  request (.queryPlan r plan) r RequestKind.queryPlan.code (handleQueryPlan plan) s

/-- R85: SET_REATTEMPT_LIMIT when it is taken. -/
def handleReattemptLimit (limit : Option Nat) (s : State) : Reply :=
  match limit with
  | none => refuse .badRequest s
  | some n =>
    ⟨{ s with routes := { s.routes with reattemptLimit := clamp 0 7 n } }, okOr (outside 0 7 n),
      .limitChanged s.routes.reattemptLimit (clamp 0 7 n)⟩

/-- SET_REATTEMPT_LIMIT (R85). -/
def execSetReattemptLimit (r : Sender) (limit : Option Nat) (s : State) : Answer :=
  request (.setReattemptLimit r limit) r RequestKind.setReattemptLimit.code (handleReattemptLimit limit) s

/-! ## The route memory (R100, R101) -/

/-- R100: FLUSH_ROUTE_MEMORY when it is taken. -/
def handleFlush (s : State) : Reply := ⟨invalidateAll s, .ok, .flushed (validEntries s)⟩

/-- FLUSH_ROUTE_MEMORY (R100). -/
def execFlushRouteMemory (r : Sender) (s : State) : Answer :=
  request (.flushRouteMemory r) r RequestKind.flushRouteMemory.code handleFlush s

/-- R101: an entry as a query by destination shows it; the group is the one the member step names in the plan now. -/
def memoryView (s : State) (x : Nat × MemoryEntry) : MemoryView where
  way := x.1
  plan := x.2.plan
  member := x.2.member
  group := ((s.plan x.2.plan)[x.2.member]?).map (·.group)
  confidence := x.2.confidence

/-- R89, R101: a way as a query by set shows it. -/
def wayView (k : Nat) (e : MemoryEntry) : WayView := ⟨e.tag * Config.memorySets + k, e.plan, e.member, e.confidence⟩

/-- R101: QUERY_ROUTE_MEMORY when it is taken. -/
def handleQueryMemory (destination set : Option Nat) (s : State) : Reply :=
  match destination, set with
  | some d, none =>
    if Config.destinations ≤ d then refuse .outOfRange s
    else ⟨s, .ok, .memoryEntry (setOf d) (tagOf d) ((entryOf s d).map (memoryView s))⟩
  | none, some k =>
    if Config.memorySets ≤ k then refuse .outOfRange s
    else ⟨s, .ok, .memorySet (s.memorySet k).pointer ((s.memorySet k).ways.map (fun w => w.map (wayView k)))⟩
  | _, _ => refuse .badRequest s

/-- QUERY_ROUTE_MEMORY (R101). -/
def execQueryRouteMemory (r : Sender) (destination set : Option Nat) (s : State) : Answer :=
  request (.queryRouteMemory r destination set) r RequestKind.queryRouteMemory.code (handleQueryMemory destination set) s

end Sys2Proof.Machine
end

