-- ==== Sys2Proof/Machine/ServiceRequests.lean ====
section
/-! DEFINITION. The meanings of chapter 2: far-end reports, the drain batch, and the controller's timers. -/

namespace Sys2Proof.Machine

/-! ## REPORT_FAR_CONGESTION (R30) and DECAY_EXPIRY (R31) -/

/-- R30: REPORT_FAR_CONGESTION when it is taken. -/
def handleFarReport (gn level : Nat) (s : State) : Reply :=
  if Config.groups ≤ gn then refuse .outOfRange s
  else if (s.group gn).isNone then refuse .wrongState s
  else ⟨farReport gn (clamp 0 3 level) s, okOr (outside 0 3 level), .farLevel (clamp 0 3 level)⟩

/-- REPORT_FAR_CONGESTION (R30). -/
def execReportFarCongestion (r : Sender) (group level : Nat) (s : State) : Answer :=
  request (.reportFarCongestion r group level) r RequestKind.reportFarCongestion.code (handleFarReport group level) s

/-- R31: the level goes down by 1 and the timer restarts or stops. -/
def decayOnce (g : Group) (v : GroupService) (now : Nat) : GroupService :=
  { v with
    farLevel := v.farLevel - 1
    decayExpiry := if v.farLevel - 1 = 0 then none else some (now + g.decay * 1000) }

/-- R31: a decay expiry that has been reached is taken. -/
def expireDecay (gn : Nat) (s : State) : State :=
  match s.group gn, (s.svc gn).decayExpiry with
  | some g, some x => if x ≤ s.now then s.setSvc gn (decayOnce g (s.svc gn) s.now) else s
  | _, _ => s

/-- DECAY_EXPIRY (R31). -/
def execDecayExpiry (group : Nat) (s : State) : Answer := .next (expireDecay group s)

/-! ## DRAIN_GROUP (R34, R35) -/

/-- R34: the requesting port joins the contributors. -/
def addContributor (p : Port) (s : State) : State :=
  s.setBatch { s.service.batch with contributors := s.service.batch.contributors.set p true }

/-- R35: in batch state NONE the batch opens in FORMING with the request's deadline. -/
def openBatch (deadline : Nat) (s : State) : State :=
  if s.service.batch.state = .none then
    s.setBatch
      { DrainBatch.empty with
        state := .forming
        deadline := deadline
        windowExpiry := some (s.now + Config.joinWindow) }
  else s

/-- R35: the service state that an unprotected group takes as it joins. -/
def joinedService (b : BatchState) : ServiceState := if b = .suspended then .drainSuspended else .draining

/-- R35: the group becomes the last member; its entry and service state follow from its drain-protected flag. -/
def addMember (gn : Nat) (g : Group) (s : State) : State :=
  let b := s.service.batch
  if g.drainProtected then s.setBatch { b with members := b.members ++ [⟨gn, .isProtected⟩] }
  else
    reevaluate [gn] s
      (setService gn (joinedService b.state) (s.setBatch { b with members := b.members ++ [⟨gn, .pending⟩] }))

/-- R35, R42: the call table is asked to release every call with a leg on some groups. -/
def askRelease (gs : List Nat) (s : State) : State :=
  { s with calls := { s.calls with releaseLists := s.calls.releaseLists ++ [gs] } }

/-- R35: an unprotected group that joins a DRAINING batch is tested at once, and its calls are released at once when the
deadline has passed. -/
def joinDraining (gn : Nat) (g : Group) (s : State) : State :=
  if s.service.batch.state = .draining ∧ g.drainProtected = false then
    memberTest (if s.service.batch.deadlinePassed then askRelease [gn] s else s) gn
  else s

/-- R35: the group joins the batch. -/
def joinBatch (p : Port) (gn : Nat) (g : Group) (deadline : Nat) (s : State) : State :=
  joinDraining gn g (addMember gn g (addContributor p (openBatch deadline s)))

/-- R34: what the response to DRAIN_GROUP carries. -/
def drainReply (gn : Nat) (adjusted : Bool) (s : State) : Reply :=
  ⟨s, okOr adjusted, .drainJoined s.service.batch.state (s.service.batch.resultOf gn) s.service.batch.deadline⟩

/-- R34, R35: DRAIN_GROUP when it is taken. -/
def handleDrainGroup (p : Port) (gn deadline : Nat) (s : State) : Reply :=
  if Config.groups ≤ gn then refuse .outOfRange s
  else
    match s.group gn with
    | none => refuse .wrongState s
    | some g =>
      if (s.service.batch.resultOf gn).isSome then
        drainReply gn (outside 0 3600 deadline) (addContributor p s)
      else if (s.svc gn).service = .outOfService then refuse .wrongState s
      else if s.service.batch.state ≠ .none ∧ Config.batchMembers ≤ s.service.batch.members.length then
        refuse .batchFull s
      else drainReply gn (outside 0 3600 deadline) (joinBatch p gn g (clamp 0 3600 deadline) s)

/-- DRAIN_GROUP (R34). -/
def execDrainGroup (r : Sender) (group deadline : Nat) (s : State) : Answer :=
  request (.drainGroup r group deadline) r RequestKind.drainGroup.code (handleDrainGroup r.port group deadline) s

/-! ## DRAIN_SUSPEND and DRAIN_RESUME (R39, R40) -/

/-- R39, R40: the groups of the PENDING members take a service state, and the plans that name them are re-evaluated. -/
def movePending (gs : List Nat) (v : ServiceState) (before s : State) : State :=
  reevaluate gs before (gs.foldl (fun s g => setService g v s) s)

/-- R39: the batch goes SUSPENDED with a remaining deadline. -/
def suspendBatch (remaining : Option Nat) (s : State) : State :=
  let b := s.service.batch
  movePending b.pendingGroups .drainSuspended s
    (s.setBatch
      { b with state := .suspended, windowExpiry := none, deadlineExpiry := none, remaining := remaining })

/-- R39: what the response to DRAIN_SUSPEND carries. -/
def suspendReply (s : State) : Reply :=
  ⟨s, .ok, .drainSuspended s.service.batch.state s.service.batch.remaining⟩

/-- R36, R39: DRAIN_SUSPEND when it is taken. -/
def handleDrainSuspend (s : State) : Reply :=
  let b := s.service.batch
  match b.state with
  | .forming =>
    if b.allProtected then suspendReply (completeBatch s)
    else suspendReply (suspendBatch (if b.deadline = 0 then none else some (b.deadline * 1000)) s)
  | .draining =>
    if b.deadlinePassed then refuse .wrongState s
    else suspendReply (suspendBatch (b.deadlineExpiry.map (fun x => x - s.now)) s)
  | _ => refuse .wrongState s

/-- DRAIN_SUSPEND (R39). -/
def execDrainSuspend (r : Sender) (s : State) : Answer :=
  request (.drainSuspend r) r RequestKind.drainSuspend.code handleDrainSuspend s

/-- R40: a suspended batch resumes. -/
def resumeBatch (s : State) : State :=
  let b := s.service.batch
  completeIfDone
    (b.pendingGroups.foldl memberTest
      (movePending b.pendingGroups .draining s
        (s.setBatch
          { b with
            state := .draining
            deadlineExpiry := b.remaining.map (fun x => s.now + x)
            remaining := none })))

/-- R40: what the response to DRAIN_RESUME carries. -/
def resumeReply (s : State) : Reply :=
  ⟨s, .ok, .drainResumed s.service.batch.state (s.service.batch.deadlineExpiry.map (fun x => x - s.now))⟩

/-- R40: DRAIN_RESUME when it is taken. -/
def handleDrainResume (s : State) : Reply :=
  if s.service.batch.state = .suspended then resumeReply (resumeBatch s) else refuse .wrongState s

/-- DRAIN_RESUME (R40). -/
def execDrainResume (r : Sender) (s : State) : Answer :=
  request (.drainResume r) r RequestKind.drainResume.code handleDrainResume s

/-! ## RETURN_GROUP (R41) -/

/-- R41: a group goes back to IN_SERVICE. -/
def toService (gn : Nat) (s : State) : State := reevaluate [gn] s (setService gn .inService s)

/-- R41: what the request does to the group. -/
def returnGroup (gn : Nat) (s : State) : State :=
  if s.service.batch.resultOf gn = some .pending then completeIfDone (toService gn (setResult gn .returned s))
  else if (s.svc gn).service = .outOfService then toService gn s
  else s

/-- R36, R41: RETURN_GROUP when it is taken; whatever its answer, it closes a forming join window after it has acted. -/
def handleReturnGroup (gn : Nat) (s : State) : Reply :=
  if Config.groups ≤ gn then refuse .outOfRange (closeWindow s)
  else if (s.group gn).isNone then refuse .wrongState (closeWindow s)
  else
    let s1 := closeWindow (returnGroup gn s)
    ⟨s1, .ok, .service (s1.svc gn).service⟩

/-- RETURN_GROUP (R41). -/
def execReturnGroup (r : Sender) (group : Nat) (s : State) : Answer :=
  request (.returnGroup r group) r RequestKind.returnGroup.code (handleReturnGroup group) s

/-! ## QUERY_DRAIN (R44) -/

/-- The time until an expiry, in ms. -/
def untilExpiry (s : State) (x : Option Nat) : Option Int := x.map (fun x => (x : Int) - (s.now : Int))

/-- R44: the service state of a member's group, while the group is defined. -/
def serviceShown (s : State) (g : Nat) : Option ServiceState := (s.group g).map (fun _ => (s.svc g).service)

/-- R44: what QUERY_DRAIN shows. -/
def drainView (s : State) : DrainView :=
  let b := s.service.batch
  { state := b.state
    members := b.members.map (fun m => ⟨m.group, m.result, serviceShown s m.group⟩)
    contributors := b.contributors
    deadline := b.deadline
    deadlinePassed := b.deadlinePassed
    untilWindow := untilExpiry s b.windowExpiry
    untilDeadline := untilExpiry s b.deadlineExpiry
    remaining := b.remaining }

/-- R44: QUERY_DRAIN when it is taken. -/
def handleQueryDrain (s : State) : Reply := ⟨s, .ok, .drain (drainView s)⟩

/-- QUERY_DRAIN (R44). -/
def execQueryDrain (r : Sender) (s : State) : Answer := request (.queryDrain r) r RequestKind.queryDrain.code handleQueryDrain s

/-! ## Timers and port loss (R36, R42, R43) -/

/-- An expiry is present and monotonic time has reached it. -/
def reached (s : State) (x : Option Nat) : Bool :=
  match x with
  | some x => decide (x ≤ s.now)
  | none => false

/-- WINDOW_EXPIRY (R36): a window expiry that has been reached closes the join window. -/
def execWindowExpiry (s : State) : Answer :=
  .next (if reached s s.service.batch.windowExpiry then closeWindow s else s)

/-- R42 steps 1 and 2: the deadline passes. -/
def passDeadline (s : State) : State :=
  askRelease s.service.batch.pendingGroups
    (s.setBatch { s.service.batch with deadlineExpiry := none, deadlinePassed := true })

/-- DEADLINE_EXPIRY (R42): a deadline expiry that has been reached by a DRAINING batch is taken. -/
def execDeadlineExpiry (s : State) : Answer :=
  .next (if s.service.batch.state = .draining ∧ reached s s.service.batch.deadlineExpiry then passDeadline s else s)

/-- R43: a port that went DOWN is removed from the contributors. -/
def dropContributor (p : Port) (s : State) : State :=
  let s1 := s.setBatch { s.service.batch with contributors := s.service.batch.contributors.set p false }
  { s1 with service := { s1.service with losses := s1.service.losses.erase p } }

/-- DRAIN_CONTRIBUTOR_LOSS (R43): the controller takes a port loss that was handed to it. -/
def execDrainContributorLoss (port : Port) (s : State) : Answer :=
  .next (if port ∈ s.service.losses then dropContributor port s else s)

end Sys2Proof.Machine
end

