-- ==== Sys2Proof/Machine/SettlementRequests.lean ====
section
/-! DEFINITION. The meanings of chapter 9: fetching, exposure limits, period close, and accumulation. -/

namespace Sys2Proof.Machine

/-! ## Fetching (R171, R172) -/

/-- R171: the block size that a code means: 0 means 64, a code above 64 is clamped to 64. -/
def blockOf (code : Nat) : Nat := if code = 0 then Config.fetchBlock else min code Config.fetchBlock

/-- R171: SET_FETCH_BLOCK when it is taken. -/
def handleFetchBlock (p : Port) (code : Option Nat) (s : State) : Reply :=
  match code with
  | none => refuse .badRequest s
  | some c =>
    ⟨s.setPort p { s.port p with fetchBlock := some (blockOf c) }, okOr (decide (Config.fetchBlock < c)),
      .fetchBlock (blockOf c)⟩

/-- SET_FETCH_BLOCK (R171). -/
def execSetFetchBlock (r : Sender) (code : Option Nat) (s : State) : Answer :=
  request (.setFetchBlock r code) r RequestKind.setFetchBlock.code (handleFetchBlock r.port code) s

/-- R172: the oldest records leave the queue and the backlog level is judged. -/
def removeRecords (n : Nat) (s : State) : State :=
  judgeBacklog { s with settlement := { s.settlement with queue := s.settlement.queue.drop n } }

/-- R172: FETCH_RECORDS when it is taken. -/
def handleFetch (p : Port) (s : State) : Reply :=
  match (s.port p).fetchBlock with
  | none => refuse .noFetchBlock s
  | some n =>
    ⟨if s.settlement.queue.isEmpty then s else removeRecords n s, .ok,
      .records (s.settlement.queue.drop n).length (s.settlement.queue.take n)⟩

/-- FETCH_RECORDS (R172). -/
def execFetchRecords (r : Sender) (s : State) : Answer :=
  request (.fetchRecords r) r RequestKind.fetchRecords.code (handleFetch r.port) s

/-! ## SET_EXPOSURE_LIMIT (R174) -/

/-- R174: the limit is stored and the carrier's hold evaluated. -/
def storeLimit (c limit : Nat) (s : State) : State := evaluateHold (s.setCarrier c { s.carrier c with limit := limit }) c

/-- R174: SET_EXPOSURE_LIMIT when it is taken. -/
def handleExposureLimit (c : Nat) (limit : Option Nat) (s : State) : Reply :=
  if Config.carriers ≤ c then refuse .outOfRange s
  else
    match limit with
    | none => refuse .badRequest s
    | some n =>
      let s1 := storeLimit c (clamp 0 Config.capMax n) s
      ⟨s1, okOr (outside 0 Config.capMax n),
        .exposure (s.carrier c).limit (clamp 0 Config.capMax n) (s1.carrier c).total (s1.carrier c).hold⟩

/-- SET_EXPOSURE_LIMIT (R174). -/
def execSetExposureLimit (r : Sender) (carrier : Nat) (limit : Option Nat) (s : State) : Answer :=
  request (.setExposureLimit r carrier limit) r RequestKind.setExposureLimit.code (handleExposureLimit carrier limit) s

/-! ## Period close (R175 to R177) -/

/-- R175: CLOSE_PERIOD when it is taken. -/
def handleClosePeriod (s : State) : Reply :=
  if s.settlement.closed.isSome then refuse .closedBankFull s
  else ⟨closePeriod s, .ok, .closed s.settlement.period (nextNumber s.settlement.period)⟩

/-- CLOSE_PERIOD (R175). -/
def execClosePeriod (r : Sender) (s : State) : Answer := request (.closePeriod r) r RequestKind.closePeriod.code handleClosePeriod s

/-- R176: how many pairs are shown: the clamped count, shortened to end at pair 4,095. -/
def pairsShown (first count : Nat) : Nat := min (clamp 1 64 count) (Config.pairs - first)

/-- R176: a closed pair with its inbound and outbound carrier. -/
def closedPair (b : ClosedBank) (k : Nat) : Nat × Nat × PairTotals :=
  (k / Config.carriers, k % Config.carriers, b.pairs.get k)

/-- R176: READ_CLOSED for a range of pairs. DESIGN CHOICE (notes/assumptions/37.md): the rule gives no order for a first
pair above 4,095 while the closed bank is free; OUT_OF_RANGE comes first here. -/
def readPairs (first count : Nat) (s : State) : Reply :=
  if Config.pairs ≤ first then refuse .outOfRange s
  else
    match s.settlement.closed with
    | none => refuse .wrongState s
    | some b =>
      ⟨s, okOr (decide (pairsShown first count ≠ count)),
        .closedPairs b.period ((List.range' first (pairsShown first count)).map (closedPair b))⟩

/-- R176: READ_CLOSED for the carrier totals. -/
def readCarriers (s : State) : Reply :=
  match s.settlement.closed with
  | none => refuse .wrongState s
  | some b => ⟨s, .ok, .closedCarriers b.period ((List.range Config.carriers).map b.totals.get)⟩

/-- R176: READ_CLOSED when it is taken. -/
def handleReadClosed (item : Arg ClosedItem) (s : State) : Reply :=
  match item.value? with
  | none => refuse .badRequest s
  | some (.pairs first count) => readPairs first count s
  | some .carriers => readCarriers s

/-- READ_CLOSED (R176). -/
def execReadClosed (r : Sender) (item : Arg ClosedItem) (s : State) : Answer :=
  request (.readClosed r item) r RequestKind.readClosed.code (handleReadClosed item) s

/-- R177: RELEASE_CLOSED when it is taken. -/
def handleReleaseClosed (period : Option Nat) (s : State) : Reply :=
  match period with
  | none => refuse .badRequest s
  | some n =>
    match s.settlement.closed with
    | none => ⟨s, .ok, .alreadyFree⟩
    | some b =>
      if b.period = n then
        ⟨{ s with settlement := { s.settlement with closed := none } }, .ok, .periodReleased n⟩
      else ⟨s, .wrongState, .closedPeriodIs b.period⟩

/-- RELEASE_CLOSED (R177). -/
def execReleaseClosed (r : Sender) (period : Option Nat) (s : State) : Answer :=
  request (.releaseClosed r period) r RequestKind.releaseClosed.code (handleReleaseClosed period) s

/-! ## QUERY_PAIR (R178) -/

/-- R178: what QUERY_PAIR shows. -/
def pairView (s : State) (i o : Nat) : PairView where
  totals := s.pair (pairKey i o)
  carrier := s.carrier i
  period := s.settlement.period
  queueLength := s.settlement.queue.length
  backlog := s.settlement.backlog
  closedPeriod := s.settlement.closed.map (·.period)

/-- R178: QUERY_PAIR when it is taken. -/
def handleQueryPair (i o : Nat) (s : State) : Reply :=
  if Config.carriers ≤ i ∨ Config.carriers ≤ o then refuse .outOfRange s else ⟨s, .ok, .pair (pairView s i o)⟩

/-- QUERY_PAIR (R178). -/
def execQueryPair (r : Sender) (inbound outbound : Nat) (s : State) : Answer :=
  request (.queryPair r inbound outbound) r RequestKind.queryPair.code (handleQueryPair inbound outbound) s

/-! ## Accumulation (R167) -/

/-- ACCUMULATION (R167): the settlement unit takes the oldest priced result handed to it. -/
def execAccumulation (s : State) : Answer :=
  .next
    (match s.settlement.handed with
     | [] => s
     | x :: rest => accumulate x { s with settlement := { s.settlement with handed := rest } })

end Sys2Proof.Machine
end

