-- ==== Sys2Proof/Machine/TariffRequests.lean ====
section
/-! DEFINITION. The meanings of chapter 7: the clock, staging, activation and QUERY_TARIFF, the tick, the due activation and
the loss of the holder. -/

namespace Sys2Proof.Machine

/-! ## SET_CLOCK (R131, R142) -/

/-- R131: SET_CLOCK when it is taken. -/
def handleSetClock (d ms : Option Nat) (s : State) : Reply :=
  match d, ms with
  | some d, some ms =>
    if 7 ≤ d ∨ Config.day ≤ ms then refuse .outOfRange s
    else ⟨setWeekClock (d * Config.day + ms) s, .ok, .clock s.tariff.weekTime (d * Config.day + ms)⟩
  | _, _ => refuse .badRequest s

/-- SET_CLOCK (R131). -/
def execSetClock (r : Sender) (day msOfDay : Option Nat) (s : State) : Answer :=
  request (.setClock r day msOfDay) r RequestKind.setClock.code (handleSetClock day msOfDay) s

/-! ## STAGE_OPEN (R137) -/

/-- R137: STAGE_OPEN when it is taken. -/
def handleStageOpen (p : Port) (s : State) : Reply :=
  if s.tariff.staging.state = .none then
    ⟨s.setStaging ⟨.opened, some p, some ⟨nextNumber s.tariff.live.number, s.tariff.live.tariffs⟩, none, none⟩, .ok,
      .staged (nextNumber s.tariff.live.number) s.tariff.live.number⟩
  else ⟨s, .stageBusy, .stageBusy s.tariff.staging.state s.tariff.staging.holder⟩

/-- STAGE_OPEN (R137). -/
def execStageOpen (r : Sender) (s : State) : Answer := request (.stageOpen r) r RequestKind.stageOpen.code (handleStageOpen r.port) s

/-! ## The four writing requests (R138 to R140) -/

/-- R139: STAGE_WRITE_TARIFF when it is taken. -/
def handleWriteTariff (p : Port) (c k : Nat) (f : TariffFields) (s : State) : Reply :=
  if Config.carriers ≤ c ∨ Config.tariffClasses ≤ k then refuse .outOfRange s
  else if !f.any then refuse .badRequest s
  else
    match writeRefusal s p with
    | some st => refuse st s
    | none =>
      let e := applyFields f ((stagedTariffs s).entry c k)
      ⟨changeStaged (fun t => { t with entries := t.entries.set (entryKey c k) e }) s, okOr (fieldsClamped f),
        .tariffEntry e⟩

/-- STAGE_WRITE_TARIFF (R139). -/
def execStageWriteTariff (r : Sender) (carrier tariffClass : Nat) (f : TariffFields) (s : State) : Answer :=
  request (.stageWriteTariff r carrier tariffClass f) r RequestKind.stageWriteTariff.code (handleWriteTariff r.port carrier tariffClass f) s

/-- R139: STAGE_WRITE_MARGIN when it is taken. -/
def handleWriteMargin (p : Port) (c : Nat) (margin : Option Nat) (s : State) : Reply :=
  if Config.carriers ≤ c then refuse .outOfRange s
  else
    match margin with
    | none => refuse .badRequest s
    | some m =>
      match writeRefusal s p with
      | some st => refuse st s
      | none =>
        ⟨changeStaged (fun t => { t with margins := t.margins.set c (clamp 0 2000 m) }) s, okOr (outside 0 2000 m),
          .margin (clamp 0 2000 m)⟩

/-- STAGE_WRITE_MARGIN (R139). -/
def execStageWriteMargin (r : Sender) (carrier : Nat) (margin : Option Nat) (s : State) : Answer :=
  request (.stageWriteMargin r carrier margin) r RequestKind.stageWriteMargin.code (handleWriteMargin r.port carrier margin) s

/-- R140: STAGE_WRITE_SCHEDULE when it is taken. -/
def handleWriteSchedule (p : Port) (d : Arg DayType) (first : Nat) (bands : List (Arg Band)) (s : State) : Reply :=
  match d.value?, readAll Arg.value? bands with
  | some d, some bs =>
    if bs.length = 0 ∨ 48 < bs.length then refuse .badRequest s
    else if 48 ≤ first ∨ 48 < first + bs.length then refuse .outOfRange s
    else
      match writeRefusal s p with
      | some st => refuse st s
      | none =>
        let v := writeBands ((stagedTariffs s).schedule d) first bs
        ⟨changeStaged (fun t => t.setSchedule d v) s, .ok, .schedule (bandsOf v)⟩
  | _, _ => refuse .badRequest s

/-- STAGE_WRITE_SCHEDULE (R140). -/
def execStageWriteSchedule (r : Sender) (day : Arg DayType) (first : Nat) (bands : List (Arg Band)) (s : State) :
    Answer :=
  request (.stageWriteSchedule r day first bands) r RequestKind.stageWriteSchedule.code (handleWriteSchedule r.port day first bands) s

/-- R140: a pair with a defined day type. -/
def readDay (x : Nat × Arg DayType) : Option (Nat × DayType) := x.2.value?.map (fun v => (x.1, v))

/-- R140: STAGE_WRITE_WEEK when it is taken. DESIGN CHOICE (notes/assumptions/37.md): the rule numbers no order for this
request; BAD_REQUEST comes before OUT_OF_RANGE here, as in the list of STAGE_WRITE_SCHEDULE. -/
def handleWriteWeek (p : Port) (days : List (Nat × Arg DayType)) (s : State) : Reply :=
  match readAll readDay days with
  | none => refuse .badRequest s
  | some ds =>
    if ds.length = 0 ∨ 7 < ds.length ∨ noRepeat (ds.map Prod.fst) = false then refuse .badRequest s
    else if ds.any (fun x => decide (7 ≤ x.1)) then refuse .outOfRange s
    else
      match writeRefusal s p with
      | some st => refuse st s
      | none =>
        let v := writeDays (stagedTariffs s).weekMap ds
        ⟨changeStaged (fun t => { t with weekMap := v }) s, .ok, .weekMap (daysOf v)⟩

/-- STAGE_WRITE_WEEK (R140). -/
def execStageWriteWeek (r : Sender) (days : List (Nat × Arg DayType)) (s : State) : Answer :=
  request (.stageWriteWeek r days) r RequestKind.stageWriteWeek.code (handleWriteWeek r.port days) s

/-! ## STAGE_ACTIVATE (R141) -/

/-- R141: the first of the checks 2 to 5 that fails. -/
def activationRefusal (s : State) (p : Port) (t : ActivationTarget) : Option Status :=
  match t with
  | .now => writeRefusal s p
  | .at w =>
    if Config.week ≤ w then some .outOfRange
    else
      match writeRefusal s p with
      | some st => some st
      | none => if s.tariff.weekTime = none then some .clockUnset else none

/-- R141: the activation is due, or scheduled for a week time. -/
def startActivation (t : ActivationTarget) (s : State) : State :=
  match t, s.tariff.weekTime with
  | .at target, some w =>
    if target = w then takeDue s
    else
      s.setStaging
        { s.tariff.staging with
          state := .scheduled, target := some target, advance := some (forwardDistance w target) }
  | _, _ => takeDue s

/-- R141: what the response to STAGE_ACTIVATE carries. -/
def activationResult (s : State) : Result :=
  match s.tariff.staging.state with
  | .scheduled => .scheduledActivation (s.tariff.staging.advance.getD 0)
  | .held => .heldActivation (retiredNumber s) (retiredReferences s)
  | _ => .activated s.tariff.live.number

/-- R141: STAGE_ACTIVATE when it is taken. -/
def handleStageActivate (p : Port) (target : Option ActivationTarget) (s : State) : Reply :=
  match target with
  | none => refuse .badRequest s
  | some t =>
    match activationRefusal s p t with
    | some st => refuse st s
    | none => ⟨startActivation t s, .ok, activationResult (startActivation t s)⟩

/-- STAGE_ACTIVATE (R141). -/
def execStageActivate (r : Sender) (target : Option ActivationTarget) (s : State) : Answer :=
  request (.stageActivate r target) r RequestKind.stageActivate.code (handleStageActivate r.port target) s

/-! ## STAGE_ABORT (R145) -/

/-- R145: STAGE_ABORT when it is taken. -/
def handleStageAbort (p : Port) (s : State) : Reply :=
  let t := s.tariff.staging
  if t.state = .none then refuse .wrongState s
  else if t.holder ≠ none ∧ t.holder ≠ some p then refuse .notStageHolder s
  else ⟨s.setStaging .empty, .ok, .aborted t.state (t.generation.map (·.number))⟩

/-- STAGE_ABORT (R145). -/
def execStageAbort (r : Sender) (s : State) : Answer :=
  request (.stageAbort r) r RequestKind.stageAbort.code (handleStageAbort r.port) s

/-! ## QUERY_TARIFF (R147) -/

/-- R147: a bank as a query sees it: its number, its count (none for staging) and its contents. -/
def bankView (s : State) : Bank → Option (Nat × Option Nat × Tariffs)
  | .live => some (s.tariff.live.number, some s.tariff.live.references, s.tariff.live.tariffs)
  | .retired => s.tariff.retired.map (fun b => (b.number, some b.references, b.tariffs))
  | .staging =>
    if s.tariff.staging.state = .none then none
    else s.tariff.staging.generation.map (fun g => (g.number, none, g.tariffs))

/-- R147: the first check of an item that fails. -/
def itemRefusal : TariffItem → Option Status
  | .entry c k => if Config.carriers ≤ c ∨ Config.tariffClasses ≤ k then some .outOfRange else none
  | .margin c => if Config.carriers ≤ c then some .outOfRange else none
  | .schedule d => if d.value?.isNone then some .badRequest else none
  | .weekMap => none
  | .summary => none

/-- R147: the SUMMARY item of a bank. -/
def summaryOf (s : State) (number : Nat) (references : Option Nat) : TariffSummary where
  number := number
  references := references
  state := s.tariff.staging.state
  holder := s.tariff.staging.holder
  target := s.tariff.staging.target
  advance := s.tariff.staging.advance
  monotonic := s.now
  weekTime := s.tariff.weekTime
  band := bandInForce s

/-- R147: what an item of a bank returns. -/
def itemResult (s : State) (b : Nat × Option Nat × Tariffs) : TariffItem → Result
  | .entry c k => .tariffEntry (b.2.2.entry c k)
  | .margin c => .margin (b.2.2.margins.get c)
  | .schedule d =>
    match d.value? with
    | some d => .schedule (bandsOf (b.2.2.schedule d))
    | none => .nothing
  | .weekMap => .weekMap (daysOf b.2.2.weekMap)
  | .summary => .summary (summaryOf s b.1 b.2.1)

/-- R147: QUERY_TARIFF when it is taken. DESIGN CHOICE (notes/assumptions/37.md): the rule lists its checks without an order;
they are made here as it lists them, so OUT_OF_RANGE comes before WRONG_STATE. -/
def handleQueryTariff (bank : Arg Bank) (item : Arg TariffItem) (s : State) : Reply :=
  match bank.value?, item.value? with
  | some b, some i =>
    match itemRefusal i with
    | some st => refuse st s
    | none =>
      match bankView s b with
      | none => refuse .wrongState s
      | some v => ⟨s, .ok, itemResult s v i⟩
  | _, _ => refuse .badRequest s

/-- QUERY_TARIFF (R147). -/
def execQueryTariff (r : Sender) (bank : Arg Bank) (item : Arg TariffItem) (s : State) : Answer :=
  request (.queryTariff r bank item) r RequestKind.queryTariff.code (handleQueryTariff bank item) s

/-! ## Events -/

/-- R181: a tick adds 1 ms to the time since the last valid frame of a port that is UP or DETACHING. While RESET_N is held
asserted the count does not run (R195). -/
def tickPort (resetLine : Bool) (r : PortRecord) : PortRecord :=
  if resetLine then r
  else
    match r.state with
    | .down => r
    | _ => { r with silence := r.silence + 1 }

/-- R142: a tick lowers the remaining advance of a SCHEDULED activation. -/
def tickStaging (t : Staging) : Staging :=
  if t.state = .scheduled then { t with advance := t.advance.map (· - 1) } else t

/-- TICK (R129, R130): monotonic time, week time when set, and the progress of the timers. -/
def execTick (s : State) : Answer :=
  .next
    { s with
      tariff :=
        { s.tariff with
          monotonic := nextMonotonic s
          weekTime := s.tariff.weekTime.map nextWeekTime
          staging := tickStaging s.tariff.staging }
      ports :=
        ⟨tickPort s.resetLine s.ports.a, tickPort s.resetLine s.ports.b, tickPort s.resetLine s.ports.c,
          tickPort s.resetLine s.ports.d⟩
      freeDrawn := s.freeDrawn + drawnByTick s }

/-- ACTIVATION_DUE (R142): the remaining advance of a SCHEDULED activation has reached 0. -/
def execActivationDue (s : State) : Answer :=
  .next (if s.tariff.staging.state = .scheduled ∧ s.tariff.staging.advance = some 0 then takeDue s else s)

/-- R146: what the loss of its holder does to the staging record. -/
def loseHolder (p : Port) (t : Staging) : Staging :=
  if t.holder = some p then
    match t.state with
    | .scheduled => { t with holder := none }
    | .held => { t with holder := none }
    | _ => .empty
  else t

/-- TARIFF_HOLDER_LOSS (R146): the tariff store takes a port loss that was handed to it. -/
def execTariffHolderLoss (port : Port) (s : State) : Answer :=
  .next
    (if port ∈ s.tariff.losses then
      { s with
        tariff :=
          { s.tariff with staging := loseHolder port s.tariff.staging, losses := s.tariff.losses.erase port } }
     else s)

end Sys2Proof.Machine
end

