-- ==== Sys2Proof/Machine/Dispatch.lean ====
section
/-! DEFINITION. The dispatch of a command to its meaning: one arm for each row of spec/opcode_table.json. -/

namespace Sys2Proof.Machine

/-- The effect of a command on everything but the queue of commands. -/
def exec (i : Instr) (s : State) : Host.Outcome State Fault Refusal :=
  match i with
  | .defineGroup r d => Sys2Proof.Machine.execDefineGroup r d s
  | .setGroupParams r group p => Sys2Proof.Machine.execSetGroupParams r group p s
  | .deleteGroup r group => Sys2Proof.Machine.execDeleteGroup r group s
  | .blockCircuits r first count kind => Sys2Proof.Machine.execBlockCircuits r first count kind s
  | .unblockCircuits r first count kind => Sys2Proof.Machine.execUnblockCircuits r first count kind s
  | .lockPlant r => Sys2Proof.Machine.execLockPlant r s
  | .queryGroup r group => Sys2Proof.Machine.execQueryGroup r group s
  | .queryCircuit r circuit => Sys2Proof.Machine.execQueryCircuit r circuit s
  | .unlockPlant r => Sys2Proof.Machine.execUnlockPlant r s
  | .reportFarCongestion r group level => Sys2Proof.Machine.execReportFarCongestion r group level s
  | .drainGroup r group deadline => Sys2Proof.Machine.execDrainGroup r group deadline s
  | .drainSuspend r => Sys2Proof.Machine.execDrainSuspend r s
  | .drainResume r => Sys2Proof.Machine.execDrainResume r s
  | .returnGroup r group => Sys2Proof.Machine.execReturnGroup r group s
  | .queryDrain r => Sys2Proof.Machine.execQueryDrain r s
  | .addPrefix r digits destination => Sys2Proof.Machine.execAddPrefix r digits destination s
  | .removePrefix r digits => Sys2Proof.Machine.execRemovePrefix r digits s
  | .writeDest r destination plan barred inUse => Sys2Proof.Machine.execWriteDest r destination plan barred inUse s
  | .setGap r destination interval life => Sys2Proof.Machine.execSetGap r destination interval life s
  | .clearGap r destination => Sys2Proof.Machine.execClearGap r destination s
  | .queryGap r q => Sys2Proof.Machine.execQueryGap r q s
  | .writePlan r plan steps => Sys2Proof.Machine.execWritePlan r plan steps s
  | .queryPlan r plan => Sys2Proof.Machine.execQueryPlan r plan s
  | .setReattemptLimit r limit => Sys2Proof.Machine.execSetReattemptLimit r limit s
  | .flushRouteMemory r => Sys2Proof.Machine.execFlushRouteMemory r s
  | .queryRouteMemory r destination set => Sys2Proof.Machine.execQueryRouteMemory r destination set s
  | .offer r circuit digits cls => Sys2Proof.Machine.execOffer r circuit digits cls s
  | .accepted r call => Sys2Proof.Machine.execAccepted r call s
  | .answer r call => Sys2Proof.Machine.execAnswer r call s
  | .reattempt r call cause level => Sys2Proof.Machine.execReattempt r call cause level s
  | .release r call cause => Sys2Proof.Machine.execRelease r call cause s
  | .adopt r former => Sys2Proof.Machine.execAdopt r former s
  | .queryCall r call => Sys2Proof.Machine.execQueryCall r call s
  | .clearTraffic r => Sys2Proof.Machine.execClearTraffic r s
  | .setOrphanLimit r limit => Sys2Proof.Machine.execSetOrphanLimit r limit s
  | .setClock r day msOfDay => Sys2Proof.Machine.execSetClock r day msOfDay s
  | .stageOpen r => Sys2Proof.Machine.execStageOpen r s
  | .stageWriteTariff r carrier tariffClass f => Sys2Proof.Machine.execStageWriteTariff r carrier tariffClass f s
  | .stageWriteMargin r carrier margin => Sys2Proof.Machine.execStageWriteMargin r carrier margin s
  | .stageWriteSchedule r day first bands => Sys2Proof.Machine.execStageWriteSchedule r day first bands s
  | .stageWriteWeek r days => Sys2Proof.Machine.execStageWriteWeek r days s
  | .stageActivate r target => Sys2Proof.Machine.execStageActivate r target s
  | .stageAbort r => Sys2Proof.Machine.execStageAbort r s
  | .queryTariff r bank item => Sys2Proof.Machine.execQueryTariff r bank item s
  | .setFetchBlock r code => Sys2Proof.Machine.execSetFetchBlock r code s
  | .fetchRecords r => Sys2Proof.Machine.execFetchRecords r s
  | .setExposureLimit r carrier limit => Sys2Proof.Machine.execSetExposureLimit r carrier limit s
  | .closePeriod r => Sys2Proof.Machine.execClosePeriod r s
  | .readClosed r item => Sys2Proof.Machine.execReadClosed r item s
  | .releaseClosed r period => Sys2Proof.Machine.execReleaseClosed r period s
  | .queryPair r inbound outbound => Sys2Proof.Machine.execQueryPair r inbound outbound s
  | .attach r partner => Sys2Proof.Machine.execAttach r partner s
  | .detach r => Sys2Proof.Machine.execDetach r s
  | .subscribe r cls on => Sys2Proof.Machine.execSubscribe r cls on s
  | .ackAlarm r cls source => Sys2Proof.Machine.execAckAlarm r cls source s
  | .sync r => Sys2Proof.Machine.execSync r s
  | .identify r => Sys2Proof.Machine.execIdentify r s
  | .unknownRequest r code => Sys2Proof.Machine.execUnknownRequest r code s
  | .frameReceived port bytes => Sys2Proof.Machine.execFrameReceived port bytes s
  | .linkLoss port => Sys2Proof.Machine.execLinkLoss port s
  | .detachComplete port => Sys2Proof.Machine.execDetachComplete port s
  | .callTablePortLoss port => Sys2Proof.Machine.execCallTablePortLoss port s
  | .tariffHolderLoss port => Sys2Proof.Machine.execTariffHolderLoss port s
  | .drainContributorLoss port => Sys2Proof.Machine.execDrainContributorLoss port s
  | .noticeSent port => Sys2Proof.Machine.execNoticeSent port s
  | .tick => Sys2Proof.Machine.execTick s
  | .guardExpiry circuit => Sys2Proof.Machine.execGuardExpiry circuit s
  | .decayExpiry group => Sys2Proof.Machine.execDecayExpiry group s
  | .windowExpiry => Sys2Proof.Machine.execWindowExpiry s
  | .deadlineExpiry => Sys2Proof.Machine.execDeadlineExpiry s
  | .drainReleaseList => Sys2Proof.Machine.execDrainReleaseList s
  | .gapLifeExpiry destination => Sys2Proof.Machine.execGapLifeExpiry destination s
  | .orphanExpiry => Sys2Proof.Machine.execOrphanExpiry s
  | .activationDue => Sys2Proof.Machine.execActivationDue s
  | .glareReselection call => Sys2Proof.Machine.execGlareReselection call s
  | .accumulation => Sys2Proof.Machine.execAccumulation s
  | .resetN => Sys2Proof.Machine.execResetN s
  | .powerOn => Sys2Proof.Machine.execPowerOn s
  | .responseSent port => Sys2Proof.Machine.execResponseSent port s

end Sys2Proof.Machine
end

