-- ==== Sys2Proof/Safety.lean ====
section
/-! DEFINITION. What the statements about this machine are said in: which commands are requests and of what code, the
frames of the blocks, and the invariants of the port records, the tariff store and the settlement unit. -/

namespace Sys2Proof.Machine

/-! ## What a command leaves as it was -/

/-- The blocks other than the port interface are as they were: the plant store, the controller, the analyser, the route
selector, the route memory, the call table, the tariff store, the settlement unit and the alarm levels. -/
def SameBlocks (s t : State) : Prop :=
  t.plant = s.plant ∧ t.service = s.service ∧ t.analyser = s.analyser ∧ t.routes = s.routes ∧ t.memory = s.memory ∧
    t.calls = s.calls ∧ t.tariff = s.tariff ∧ t.settlement = s.settlement ∧ t.levels = s.levels

/-- R190, R193: what the notice engine may change in a port's record when a level is reported or a notice made: the notice
queue, the drop count, the alarm records and the responses that a SYNC holds. The rest is as it was. -/
def SamePortFacts (r q : PortRecord) : Prop :=
  q.state = r.state ∧ q.partner = r.partner ∧ q.requests = r.requests ∧ q.inProgress = r.inProgress ∧
    q.answers = r.answers ∧ q.fetchBlock = r.fetchBlock ∧ q.mask = r.mask ∧ q.silence = r.silence

/-- The port records but for what the notice engine may change. -/
def SamePorts (s t : State) : Prop := ∀ p, SamePortFacts (s.port p) (t.port p)

/-- The analyser, the route selector, the route memory, the tariff store and the settlement unit are as they were, and so
are the port records but for what the notice engine may change. -/
def SameElsewhere (s t : State) : Prop :=
  SamePorts s t ∧ t.analyser = s.analyser ∧ t.routes = s.routes ∧ t.memory = s.memory ∧ t.tariff = s.tariff ∧
    t.settlement = s.settlement ∧ t.resetLine = s.resetLine ∧ t.freeDrawn = s.freeDrawn ∧ t.pending = s.pending

/-- The request of a sender has been answered: its port's record is as it was in `s` but for one response more, which
goes to the link, or stands behind the held ones (R186, R193). -/
def AnsweredWith (r : Sender) (code : Nat) (st : Status) (x : Result) (s t : State) : Prop :=
  t.port r.port =
      (if (s.port r.port).held = [] then
        { s.port r.port with outbox := (s.port r.port).outbox ++ [⟨code, r.tag, st, x⟩] }
       else { s.port r.port with held := (s.port r.port).held ++ [⟨⟨code, r.tag, st, x⟩, none⟩] }) ∧
    (∀ p, p ≠ r.port → t.port p = s.port p) ∧ t.resetLine = s.resetLine ∧ t.freeDrawn = s.freeDrawn ∧
    t.pending = s.pending

/-- R186: the command is a request that its port takes in `s`, and `u` is the state in which the owning block starts to
handle it: `s` with the request gone from the front of its port's queue. -/
def Takes (c : Instr) (s u : State) : Prop :=
  match requestOf c with
  | some (r, code) => taken c r code s = some u
  | none => False

/-- R186: run in `s`, the command answers a next state, in which the blocks are those of `v` and its sender's port has
been given a response of this status and result, and nothing else differs from `v`. -/
def Answers (c : Instr) (s : State) (st : Status) (x : Result) (v : State) : Prop :=
  match requestOf c with
  | some (r, code) => ∃ t, exec c s = .next t ∧ SameBlocks v t ∧ AnsweredWith r code st x v t
  | none => False

/-- R186, R187: a refused request answers a status alone and changes nothing. -/
def Refuses (c : Instr) (s : State) (st : Status) (u : State) : Prop := Answers c s st .nothing u

/-- A rule's table of ordered checks, each with the condition on which it fails: the first that fails gives the
status. -/
def FirstOf : List (Prop × Status) → Status → Prop
  | [], _ => False
  | (fails, st) :: rest, x => (fails ∧ x = st) ∨ (¬fails ∧ FirstOf rest x)

/-- Every check of a table passes. -/
def AllPass (checks : List (Prop × Status)) : Prop := ∀ k ∈ checks, ¬k.1

/-! ## What the rules name of a change -/

/-- R4, R28: between two states the group's service record has changed by nothing but the derivation of its congestion
state, which its report makes when its idle count or its busy total has moved. -/
def Derived (s t : State) (n : Nat) : Prop :=
  t.svc n =
    match t.group n with
    | none => s.svc n
    | some g =>
      if t.idleCount n = s.idleCount n ∧ t.busyTotal n = s.busyTotal n then s.svc n
      else { s.svc n with congestion := nextCongestion (s.svc n).congestion g.available g.threshold g.hysteresis }

/-- R190: how many alarms the notice queue of a port can take: its free places, none while the drop count is above 0. -/
def alarmPlaces (r : PortRecord) : Nat := if r.drops = 0 then 64 - r.notices.length else 0

/-- R190: the sources that a scan of a port queues, in scan order: those pending, as far as the places go. -/
def scanQueues (s : State) (p : Port) : List AlarmSource :=
  ((allClasses.flatMap sourcesOf).filter (pendingOn s p)).take (alarmPlaces (s.port p))

/-- R193: what a held response waits for after a scan that has queued some sources behind `n` notices: a noted source that
was queued has left when its notice has, and one that is neither queued nor pending any more is not waited for. -/
def heldAfterScan (queued : List AlarmSource) (n : Nat) (pends : AlarmSource → Bool) (h : Held) : Held :=
  { h with
    wait :=
      h.wait.map (fun w =>
        { w with
          sources :=
            w.sources.filterMap (fun x =>
              if x.sends.isSome = true then some x
              else if x.source ∈ queued then some { x with sends := some (n + queued.idxOf x.source + 1) }
              else if pends x.source = true then some x
              else none) }) }

/-- R193: what a held response waits for when one more notice has left. -/
def heldAfterSend (h : Held) : Held :=
  { h with
    wait :=
      h.wait.map (fun w =>
        { unsent := w.unsent - 1
          sources :=
            w.sources.filterMap (fun x =>
              match x.sends with
              | none => some x
              | some k => if k ≤ 1 then none else some { x with sends := some (k - 1) }) }) }

/-- R193: a held response waits for something. -/
def Waits (h : Held) : Prop := ∃ w, h.wait = some w ∧ (w.unsent ≠ 0 ∨ w.sources ≠ [])

/-- R193: with the held responses of a record `r` waiting as in the list, those before the first that waits for something
have gone to the link, in order, and the others are still held. -/
def Released (waiting : List Held) (r q : PortRecord) : Prop :=
  ∃ gone kept, waiting = gone ++ kept ∧ (∀ h ∈ gone, ¬Waits h) ∧ (∀ h, kept.head? = some h → Waits h) ∧
    q.outbox = r.outbox ++ gone.map (·.response) ∧ q.held = kept

/-- R190, R193: between two states a port has queued the alarms of some sources, each with its level now, its alarm records
are those of the queued sources, its held responses have been looked at again, and nothing else has changed. -/
def Scanned (queued : List AlarmSource) (s t : State) (p : Port) : Prop :=
  (t.port p).notices = (s.port p).notices ++ queued.map (fun a => .alarm a (s.level a)) ∧
    (∀ a ∈ queued, (t.port p).alarms.get a.index = ⟨s.level a, true⟩) ∧
    (∀ i, i ∉ queued.map AlarmSource.index → (t.port p).alarms.get i = (s.port p).alarms.get i) ∧
    Released ((s.port p).held.map (heldAfterScan queued (s.port p).notices.length (pendingOn t p))) (s.port p)
      (t.port p) ∧
    (t.port p).drops = (s.port p).drops ∧ SamePortFacts (s.port p) (t.port p) ∧ (∀ q, q ≠ p → t.port q = s.port q) ∧
    t = { s with ports := t.ports }

/-- R73, R74, R77: no step of a kind, at or above the start index, is eligible. -/
def NoneEligible (s : State) (c : WalkCall) (kind : StepKind) : Prop :=
  ∀ (i : Nat) (st : PlanStep), c.start ≤ i → (s.plan c.plan)[i]? = some st → st.kind = kind → eligible s c st = false

/-- R73, R74, R77: the step at an index is the first eligible one of a kind, at or above the start index. -/
def FirstEligible (s : State) (c : WalkCall) (kind : StepKind) (i : Nat) (st : PlanStep) : Prop :=
  c.start ≤ i ∧ (s.plan c.plan)[i]? = some st ∧ st.kind = kind ∧ eligible s c st = true ∧
    ∀ (j : Nat) (x : PlanStep), c.start ≤ j → j < i → (s.plan c.plan)[j]? = some x → x.kind = kind →
      eligible s c x = false

/-- R78, R79: the walk ends with the leg that the step at an index seizes in the state `w`, and with these two flags. -/
def EndsAt (s w : State) (c : WalkCall) (i : Nat) (st : PlanStep) (tried flag : Bool) : Prop :=
  ∃ z, outboundPick s st.group c.cls st.kind = some z ∧
    walk c (s.plan c.plan) s =
      ⟨occupyOut st.group z.circuit c.ref w,
        some ⟨z.circuit, st.group, z.carrier, i, st.kind, st.tariffClass, z.congestion⟩, tried, flag⟩

/-- R75: how the pool try of a walk is made: the step index, the memory flag, and the state that the choice leaves. -/
def PoolTry (s w : State) (c : WalkCall) (m : Nat) (flag : Bool) : Prop :=
  ((s.dest c.destination).plan = c.plan ∧
      (lookup s c.destination c.plan = .hit m ∨ lookup s c.destination c.plan = .allocated m) ∧ flag = true ∧
      w = afterLookup c.destination c.plan s) ∨
    (((s.dest c.destination).plan ≠ c.plan ∨ lookup s c.destination c.plan = .gapped ∨
        lookup s c.destination c.plan = .plansDiffer) ∧
      flag = false ∧ w = s ∧ (∃ st, (s.plan c.plan)[m]? = some st ∧ st.kind = .pool) ∧
      ∀ (j : Nat) (x : PlanStep), (s.plan c.plan)[j]? = some x → x.kind = .pool → m ≤ j)

/-- R116 step 1, R127, R162, R163: the priced result that CLEAR_TRAFFIC hands on for the call in a slot: that of an
ANSWERED call whose two carriers are not both 0. -/
def clearedPrice (s : State) (k : Nat) : Option PricedResult :=
  match (s.slot k).call with
  | none => none
  | some c =>
    match c.state, c.answer, c.leg with
    | .answered, some a, some l =>
      if c.inCarrier = 0 ∧ l.carrier = 0 then none
      else
        (tariffsOf s a.generation).map
          (fun t =>
            price t
              { call := ⟨k, (s.slot k).generation⟩
                inCarrier := c.inCarrier
                outCarrier := l.carrier
                inGroup := c.inGroup
                outGroup := l.group
                generation := a.generation
                tariffClass := c.tariffClass
                stepKind := c.stepKind
                answered := a.monotonic
                answerWeekTime := a.weekTime
                released := s.now
                altPremium := l.alternatePremium
                congPremium := l.congestionPremium
                cause := .trafficCleared
                forced := true })
    | _, _, _ => none

/-! ## Invariants -/

/-- R2, R3: the record of a defined group holds what its circuits are: the idle set is its available circuits in
circuit-number order, each count is the number of its circuits in that condition, and its circuits are those of its
ranges. -/
def GroupSound (s : State) (n : Nat) (g : Group) : Prop :=
  g.idleSet = (inCondition .available (groupCircuits s n)).map Prod.fst ∧
    g.available = (inCondition .available (groupCircuits s n)).length ∧
    g.blockedIdle = (inCondition .blockedIdle (groupCircuits s n)).length ∧
    g.busyIn = (inCondition .busyIn (groupCircuits s n)).length ∧
    g.busyOut = (inCondition .busyOut (groupCircuits s n)).length ∧
    g.inGuard = (inCondition .inGuard (groupCircuits s n)).length ∧
    ∀ c, inRanges g.ranges c = true ↔ ∃ e, s.circuit c = some e ∧ e.group = n

/-- R1 to R3: the circuit table is in its canonical form, every circuit that is not UNEQUIPPED is one of the 16,384 and
belongs to a defined group, and every defined group is sound. -/
def PlantSound (s : State) : Prop :=
  s.plant.circuits.wf = true ∧
    (∀ c e, s.circuit c = some e → c < Config.circuits ∧ (s.group e.group).isSome = true) ∧
    ∀ n g, s.group n = some g → GroupSound s n g

/-- R180, R188, R189: the record of one port: its queues within their lengths, a drop count only while the notice queue
is full, a block size 1 to 64, and in DOWN the values of R180. -/
def PortRecord.Sound (r : PortRecord) : Prop :=
  r.requests.length ≤ Config.requestQueue ∧ r.notices.length ≤ Config.noticeQueue ∧ r.drops ≤ Config.dropMax ∧
    (0 < r.drops → r.notices.length = Config.noticeQueue) ∧
    (∀ n, r.fetchBlock = some n → 1 ≤ n ∧ n ≤ Config.fetchBlock) ∧
    (r.state = .down →
      r.partner = none ∧ r.inProgress = none ∧ r.held = [] ∧ r.notices = [] ∧ r.drops = 0 ∧ r.fetchBlock = none ∧
        r.mask = ⟨false, false, false, false⟩ ∧ r.alarms = .empty)

/-- Every port record is sound. -/
def PortsSound (s : State) : Prop := ∀ p, (s.port p).Sound

/-- R129, R130, R134, R136, R141: the clocks, the numbers of the three banks, and the fields of the staging record that
each staging state holds. -/
def TariffSound (s : State) : Prop :=
  s.tariff.monotonic < Config.timeLimit ∧ (∀ w, s.tariff.weekTime = some w → w < Config.week) ∧
    s.tariff.live.number < 65536 ∧
    (∀ b, s.tariff.retired = some b → b.number < 65536 ∧ s.tariff.live.number = nextNumber b.number) ∧
    (∀ g, s.tariff.staging.generation = some g → g.number = nextNumber s.tariff.live.number) ∧
    (s.tariff.staging.generation = none ↔ s.tariff.staging.state = .none) ∧
    (s.tariff.staging.state = .none → s.tariff.staging.holder = none) ∧
    (s.tariff.staging.target.isSome ↔ s.tariff.staging.state = .scheduled) ∧
    (s.tariff.staging.advance.isSome ↔ s.tariff.staging.state = .scheduled)

/-- R103, R104, R122: the call table: its slots in canonical form, records in slots 0 to 8,191, generations of 8 bits, the
orphan list holding each record whose owner is NONE once, an orphan deadline exactly while the owner is NONE, and then a
former owner; and each OFFER in progress has a FREE slot of its own, held under its present generation, and a record owned
by its port. -/
def CallsSound (s : State) : Prop :=
  s.calls.slots.wf = true ∧ s.calls.orphanLimit ≤ 3600 ∧ s.calls.orphans.Nodup ∧
    (∀ k, (s.slot k).generation < 256) ∧
    (∀ k, k ∈ s.calls.orphans ↔ ∃ c, (s.slot k).call = some c ∧ c.owner = none) ∧
    (∀ k c, (s.slot k).call = some c →
      k < Config.slots ∧ (c.owner = none ↔ c.orphanDeadline.isSome = true) ∧ (c.owner = none → c.former.isSome = true)) ∧
    (s.calls.offers.map (fun o => o.ref.slot)).Nodup ∧
    ∀ o ∈ s.calls.offers,
      o.ref.slot < Config.slots ∧ (s.slot o.ref.slot).call = none ∧ (s.slot o.ref.slot).generation = o.ref.generation ∧
        o.record.owner = some o.sender.port ∧ o.record.orphanDeadline = none

/-- R28, R45, R46, R170, R173: what the blocks derive from one another: the group table is in canonical form, a defined
group is FULL exactly while no circuit of
it is available, an undefined one holds the values of R28, R29 and R32, the exhaustion of each plan is as its groups stand,
and the level of each alarm source is that of its own block. -/
def LevelsSound (s : State) : Prop :=
  s.plant.groups.wf = true ∧
    (∀ n g, s.group n = some g →
      n < Config.groups ∧ ((s.svc n).congestion = .full ↔ g.available = 0)) ∧
    (∀ n, s.group n = none → s.svc n = .initial) ∧
    (∀ p, Config.plans ≤ p → s.plan p = []) ∧ (∀ p, s.service.exhausted.get p = planExhausted s p) ∧
    (∀ c, Config.carriers ≤ c → (s.carrier c).limit = 0 ∧ (s.carrier c).hold = false) ∧
    (∀ n, n < Config.groups → s.level ⟨.groupCongestion, n⟩ = (s.svc n).congestion.level) ∧
    (∀ p, p < Config.plans → s.level ⟨.planExhausted, p⟩ = levelOf (s.service.exhausted.get p)) ∧
    (∀ c, c < Config.carriers → s.level ⟨.carrierHold, c⟩ = levelOf (s.carrier c).hold) ∧
    s.level ⟨.settlementBacklog, 0⟩ = levelOf s.settlement.backlog

/-- R104: a record, or that of an OFFER in progress whose walk has been made, has its inbound leg: the circuit is BUSY_IN
with its reference, in its inbound group. -/
def HoldsInbound (s : State) (r : CallRef) (c : Call) : Prop :=
  ∃ e, s.circuit c.inCircuit = some e ∧ e.occupancy = .busyIn r ∧ e.group = c.inGroup

/-- R104: it has its outbound leg, if it names one: the circuit is BUSY_OUT with its reference, in its outbound group. -/
def HoldsOutbound (s : State) (r : CallRef) (c : Call) : Prop :=
  ∀ l, c.leg = some l → ∃ e, s.circuit l.circuit = some e ∧ e.occupancy = .busyOut r ∧ e.group = l.group

/-- R104: the fields of a record in use go with its state: an outbound leg always in PROCEEDING and ANSWERED, never in
UNROUTED, and in ROUTED unless the reselection pending mark is set, which is set in ROUTED only; answer facts exactly in
ANSWERED; and an owner of NONE in ANSWERED only (R106). -/
def FieldsFit (c : Call) : Prop :=
  (c.state = .answered ∨ c.state = .proceeding → c.leg.isSome = true) ∧ (c.state = .unrouted → c.leg = none) ∧
    (c.state = .routed → (c.leg.isSome = true ↔ c.reselectionPending = false)) ∧
    (c.reselectionPending = true → c.state = .routed) ∧ (c.answer.isSome = true ↔ c.state = .answered) ∧
    (c.owner = none → c.state = .answered)

/-- R104, R118: every circuit in BUSY_IN or BUSY_OUT is a leg of the call that its reference names, or of an OFFER in
progress, and every leg of a record, and of an OFFER in progress, names such a circuit; the fields of each record fit its
state; and the queued reselections are those of the calls with the reselection pending mark, each once. -/
def LegsSound (s : State) : Prop :=
  (∀ c e r, s.circuit c = some e → e.occupancy = .busyIn r →
      (∃ x, s.call r = some x ∧ x.inCircuit = c) ∨ ∃ o ∈ s.calls.offers, o.ref = r ∧ o.record.inCircuit = c) ∧
    (∀ c e r, s.circuit c = some e → e.occupancy = .busyOut r →
      (∃ x l, s.call r = some x ∧ x.leg = some l ∧ l.circuit = c) ∨
        ∃ o l, o ∈ s.calls.offers ∧ o.ref = r ∧ o.displaced = false ∧ o.record.leg = some l ∧ l.circuit = c) ∧
    (∀ k x, (s.slot k).call = some x →
      HoldsInbound s (s.refOf k) x ∧ HoldsOutbound s (s.refOf k) x ∧ FieldsFit x) ∧
    (∀ o ∈ s.calls.offers,
      HoldsInbound s o.ref o.record ∧ (o.displaced = false → HoldsOutbound s o.ref o.record) ∧ FieldsFit o.record ∧
        o.record.state = .routed ∧ o.record.reselectionPending = false) ∧
    s.calls.reselections.Nodup ∧
    ∀ r, r ∈ s.calls.reselections ↔ ∃ x, s.call r = some x ∧ x.reselectionPending = true

/-- R135: the call in a slot is ANSWERED and bound to the generation of a number. -/
def boundTo (s : State) (number k : Nat) : Bool :=
  match (s.slot k).call with
  | some c => c.state == .answered && c.answer.any (fun a => a.generation == number)
  | none => false

/-- R135: the reference count of the live bank, and that of a retired one, is the number of ANSWERED records bound to its
generation, and every ANSWERED record is bound to one of the two. -/
def ReferencesSound (s : State) : Prop :=
  s.tariff.live.references = s.slotsInUse.countP (boundTo s s.tariff.live.number) ∧
    (∀ b, s.tariff.retired = some b → b.references = s.slotsInUse.countP (boundTo s b.number)) ∧
    ∀ k c a, (s.slot k).call = some c → c.answer = some a →
      a.generation = s.tariff.live.number ∨ ∃ b, s.tariff.retired = some b ∧ a.generation = b.number

/-- R164, R168: every numeric field of an accumulator lies within 48 bits. -/
def PairTotals.Within (t : PairTotals) : Prop :=
  t.payable ≤ Config.fieldMax ∧ t.receivable ≤ Config.fieldMax ∧ t.calls ≤ Config.fieldMax ∧ t.billed ≤ Config.fieldMax ∧
    t.unitemizedPayable ≤ Config.fieldMax ∧ t.unitemizedReceivable ≤ Config.fieldMax ∧
    t.unitemizedCalls ≤ Config.fieldMax

/-- R164, R165, R168, R170, R173: the accumulators and totals within 48 bits, the queue within its length, the backlog
level as its length asks outside the span where it stays, the period number 16 bits, and every carrier's hold flag as its
limit and total say. -/
def SettlementSound (s : State) : Prop :=
  (∀ k, (s.pair k).Within) ∧ (∀ c, (s.carrier c).total ≤ Config.fieldMax) ∧
    (∀ c, (s.carrier c).limit ≤ Config.capMax) ∧
    s.settlement.queue.length ≤ Config.settlementQueue ∧
    (Config.backlogRise ≤ s.settlement.queue.length → s.settlement.backlog = true) ∧
    (s.settlement.queue.length ≤ Config.backlogFall → s.settlement.backlog = false) ∧ s.settlement.period < 65536 ∧
    ∀ c, c < Config.carriers → (s.carrier c).hold = holdOf (s.carrier c).limit (s.carrier c).total

/-- R164, R165: the tables of the settlement unit are in canonical form. -/
def LedgerSound (s : State) : Prop := s.settlement.pairs.wf = true ∧ s.settlement.carriers.wf = true

/-- R32, R33: the drain batch: at most 32 members of different groups, each expiry and remaining time present exactly in
the states that R33 says, the members of a forming batch PENDING or PROTECTED, a running batch has a pending member, a
pending member's group is defined and drains as the batch does, and a group that is DRAINING or DRAIN_SUSPENDED is a pending
member. -/
def BatchSound (s : State) : Prop :=
  s.service.batch.members.length ≤ Config.batchMembers ∧ (s.service.batch.members.map (·.group)).Nodup ∧
    s.service.batch.deadline ≤ 3600 ∧
    (s.service.batch.state = .none → s.service.batch = .empty) ∧
    (s.service.batch.windowExpiry.isSome = true ↔ s.service.batch.state = .forming) ∧
    (s.service.batch.deadlineExpiry.isSome = true ↔
      s.service.batch.state = .draining ∧ s.service.batch.deadline ≠ 0 ∧ s.service.batch.deadlinePassed = false) ∧
    (s.service.batch.remaining.isSome = true ↔
      s.service.batch.state = .suspended ∧ s.service.batch.deadline ≠ 0) ∧
    (s.service.batch.deadlinePassed = true → s.service.batch.state = .draining) ∧
    (s.service.batch.state = .forming →
      ∀ m ∈ s.service.batch.members, m.result = .pending ∨ m.result = .isProtected) ∧
    (s.service.batch.state = .draining ∨ s.service.batch.state = .suspended →
      ∃ m ∈ s.service.batch.members, m.result = .pending) ∧
    ∀ n,
      (⟨n, .pending⟩ ∈ s.service.batch.members →
        (s.group n).isSome = true ∧
          (s.svc n).service = if s.service.batch.state = .suspended then .drainSuspended else .draining) ∧
      ((s.svc n).service = .draining ∨ (s.svc n).service = .drainSuspended → ⟨n, .pending⟩ ∈ s.service.batch.members)

/-- R37: every pending member of a DRAINING batch has a busy circuit: one that has none is DRAINED by its test. -/
def PendingBusy (s : State) : Prop :=
  s.service.batch.state = .draining → ∀ n, ⟨n, .pending⟩ ∈ s.service.batch.members → 0 < s.busyTotal n

/-- R48, R52, R56: the analyser's tables: the prefix and gap tables in canonical form and within their sizes, the fields of
every gap within their ranges with a life expiry exactly when the life is not 0, and every destination naming a plan. -/
def AnalyserSound (s : State) : Prop :=
  s.analyser.prefixes.wf = true ∧ s.analyser.prefixes.size ≤ Config.prefixes ∧ s.analyser.gaps.wf = true ∧
    s.analyser.gaps.size ≤ Config.gaps ∧
    (∀ d g, s.gap d = some g →
      d < Config.destinations ∧ 1 ≤ g.interval ∧ g.interval ≤ 6000 ∧ g.life ≤ 86400 ∧
        (g.lifeExpiry.isSome = true ↔ g.life ≠ 0) ∧ g.refused ≤ Config.refusedMax) ∧
    ∀ d, (s.dest d).plan < Config.plans

/-- R45, R63, R85: every plan holds at most 8 steps, their kinds in order and their groups different; the set of a group
holds exactly the plans with a step naming it; and the reattempt limit is 0 to 7. -/
def RoutesSound (s : State) : Prop :=
  s.routes.reattemptLimit ≤ 7 ∧ (∀ p n, p ∈ s.service.planSets.get n ↔ ∃ st ∈ s.plan p, st.group = n) ∧
    ∀ p, (s.plan p).length ≤ 8 ∧ ((s.plan p).map (·.kind.rank)).Pairwise (· ≤ ·) ∧
      ((s.plan p).map (·.group)).Nodup ∧ ∀ st ∈ s.plan p, st.group < Config.groups ∧ st.tariffClass < Config.tariffClasses

/-- R88, R89: every set has 4 ways, a pointer 0 to 3, confidences 0 to 4, and at most one valid entry for each tag; a valid
entry lies in one of the 256 sets, its plan is the one that its destination's record names, and its member is a POOL step of
that plan. -/
def MemorySound (s : State) : Prop :=
  s.memory.sets.wf = true ∧
    ∀ k, (s.memorySet k).ways.length = 4 ∧ (s.memorySet k).pointer < 4 ∧
      (∀ e, some e ∈ (s.memorySet k).ways →
        e.confidence ≤ 4 ∧ k < Config.memorySets ∧ (s.dest (e.tag * Config.memorySets + k)).plan = e.plan ∧
          ∃ st, (s.plan e.plan)[e.member]? = some st ∧ st.kind = .pool) ∧
      ∀ (i j : Nat) (e f : MemoryEntry), (s.memorySet k).ways[i]? = some (some e) →
        (s.memorySet k).ways[j]? = some (some f) → e.tag = f.tag → i = j

/-- A run of `n` steps is safe from a state when each of them answers a next state: the device has no rule that stops
it. -/
def SafeRun : Nat → State → Prop
  | 0, _ => True
  | n + 1, s =>
    match step s with
    | .next t => SafeRun n t
    | .fault _ => False
    | .refused _ => False

end Sys2Proof.Machine
end

