-- ==== Sys2Proof/Certificates/Slice0/Obligations.lean ====
section
/-! DEFINITION. The statements about the TG4816 that are to be proved. Each cites what of spec/ it says (OBLIGATIONS.json). -/

open Sys2Proof Sys2Proof.Machine

/-! ## Circuits and trunk groups (chapter 1) -/

/-- R10, R24, R25: LOCK_PLANT sets the plant lock and UNLOCK_PLANT clears it, whatever it was; both answer OK and change
nothing else. The two plant queries answer what the stores hold when they are taken, and change nothing. (That a guard
expiry that has been reached and not been taken shows as a time below 0 is the model's choice, notes/assumptions/16.md.) -/
def Obligations.PlantLockAndQueries : Prop :=
  ∀ (r : Sender) (n : Nat) (s u : State),
    (Takes (.lockPlant r) s u →
      Answers (.lockPlant r) s .ok .nothing { u with plant := { u.plant with locked := true } }) ∧
    (Takes (.unlockPlant r) s u →
      Answers (.unlockPlant r) s .ok .nothing { u with plant := { u.plant with locked := false } }) ∧
    (Takes (.queryGroup r n) s u →
      (255 < n → Refuses (.queryGroup r n) s .outOfRange u) ∧
      (n ≤ 255 → u.group n = none → Answers (.queryGroup r n) s .ok .groupUndefined u) ∧
      ∀ g, n ≤ 255 → u.group n = some g →
        Answers (.queryGroup r n) s .ok
          (.group
            { carrier := g.carrier
              direction := g.direction
              glare := g.glare
              ranges := g.ranges
              hunt := g.hunt
              lastSeized := g.lastSeized
              guardTime := g.guardTime
              threshold := g.threshold
              hysteresis := g.hysteresis
              decay := g.decay
              drainProtected := g.drainProtected
              available := g.available
              blockedIdle := g.blockedIdle
              busyIn := g.busyIn
              busyOut := g.busyOut
              inGuard := g.inGuard
              idleCount := g.available
              congestion := (u.svc n).congestion
              farLevel := (u.svc n).farLevel
              service := (u.svc n).service
              membership := u.service.batch.resultOf n })
          u) ∧
    (Takes (.queryCircuit r n) s u →
      (16383 < n → Refuses (.queryCircuit r n) s .outOfRange u) ∧
      (n ≤ 16383 → u.circuit n = none →
        Answers (.queryCircuit r n) s .ok (.circuit ⟨.unequipped, false, false, none, none, none⟩) u) ∧
      ∀ e, n ≤ 16383 → u.circuit n = some e →
        Answers (.queryCircuit r n) s .ok
          (.circuit
            { state :=
                match e.occupancy with
                | .idle => .idle
                | .busyIn _ => .busyIn
                | .busyOut _ => .busyOut
                | .guard _ => .guard
              localFlag := e.localFlag
              remoteFlag := e.remoteFlag
              group := some e.group
              call :=
                match e.occupancy with
                | .busyIn d => some d
                | .busyOut d => some d
                | _ => none
              remainingGuard :=
                match e.occupancy with
                | .guard x => some ((x : Int) - (u.now : Int))
                | _ => none })
          u)

/-- R5: the ordered checks of DEFINE_GROUP: the first that fails gives the status and nothing changes. A request without
a defined direction, glare rule or hunt mode is refused BAD_REQUEST (R186) before them (notes/assumptions/17.md). -/
def Obligations.DefineGroupChecks : Prop :=
  ∀ (r : Sender) (d : GroupDefinition) (s u : State), PlantSound s → Takes (.defineGroup r d) s u →
    (d.direction.value? = none ∨ d.glare.value? = none ∨ d.hunt.value? = none →
      Refuses (.defineGroup r d) s .badRequest u) ∧
    (∀ dir gl hu st, d.direction = .given dir → d.glare = .given gl → d.hunt = .given hu →
      FirstOf
        [(¬d.group ≤ 255, .outOfRange),
          (¬d.carrier ≤ 63, .outOfRange),
          (¬(1 ≤ d.ranges.length ∧ d.ranges.length ≤ 4 ∧ (∀ x ∈ d.ranges, x.count ≠ 0) ∧
              d.ranges.Pairwise (fun x y => ∀ c, ¬(rangeHas x c = true ∧ rangeHas y c = true))), .badRequest),
          (∃ x ∈ d.ranges, 16384 < x.first + x.count, .outOfRange),
          (u.plant.locked = true, .plantLocked),
          ((u.group d.group).isSome = true ∧ ∃ c e, u.circuit c = some e ∧ e.group = d.group ∧ e.occupancy ≠ .idle,
            .groupBusy),
          (∃ c e, inRanges d.ranges c = true ∧ u.circuit c = some e ∧ e.group ≠ d.group, .circuitAssigned)] st →
      Refuses (.defineGroup r d) s st u)

/-- R5, R6: DEFINE_GROUP, its checks passed, on an undefined group: the record with the defaults of R3 for what is absent
and the values present clamped, every circuit of its ranges IDLE and available, the controller's values at their start, the
congestion state derived from OPEN; the drain batch, the plan sets, other circuits, groups and blocks as they were. -/
def Obligations.DefineGroupNew : Prop :=
  ∀ (r : Sender) (d : GroupDefinition) (dir : Direction) (gl : GlareRule) (hu : HuntMode) (s u : State), PlantSound s →
    BatchSound s → Takes (.defineGroup r d) s u → d.direction = .given dir → d.glare = .given gl → d.hunt = .given hu →
    d.group ≤ 255 → d.carrier ≤ 63 → rangesWellFormed d.ranges = true → rangesFit d.ranges = true →
    u.plant.locked = false → u.group d.group = none → (∀ c, inRanges d.ranges c = true → u.circuit c = none) →
    ∃ v g,
      Answers (.defineGroup r d) s
        (okOr (outsideOpt 0 10000 d.guardTime || outsideOpt 0 255 d.threshold || outsideOpt 1 64 d.hysteresis ||
          outsideOpt 1 60 d.decay))
        (.groupCircuits ((d.ranges.map (·.count)).sum)) v ∧
      v.group d.group = some g ∧
      g =
        { carrier := d.carrier
          direction := dir
          glare := gl
          ranges := d.ranges
          hunt := hu
          lastSeized := none
          guardTime := clampOpt 0 10000 d.guardTime 500
          threshold := clampOpt 0 255 d.threshold 0
          hysteresis := clampOpt 1 64 d.hysteresis 4
          decay := clampOpt 1 60 d.decay 5
          drainProtected := d.drainProtected.getD false
          idleSet := g.idleSet
          available := (d.ranges.map (·.count)).sum
          blockedIdle := 0
          busyIn := 0
          busyOut := 0
          inGuard := 0 } ∧
      rising g.idleSet = true ∧ (∀ c, c ∈ g.idleSet ↔ inRanges d.ranges c = true) ∧
      (∀ c, v.circuit c =
        if inRanges d.ranges c = true then some ⟨d.group, false, false, .idle⟩ else u.circuit c) ∧
      (∀ n, n ≠ d.group → v.group n = u.group n ∧ v.svc n = u.svc n) ∧ v.plant.locked = false ∧
      v.svc d.group = ⟨nextCongestion .opened g.available g.threshold g.hysteresis, 0, none, .inService⟩ ∧
      v.service.batch = u.service.batch ∧ v.service.planSets = u.service.planSets ∧
      v.service.losses = u.service.losses ∧ SameElsewhere u v ∧ v.calls = u.calls

/-- R5, R7: DEFINE_GROUP, its checks passed, on a defined group whose circuits are all IDLE: the new fields stored, absent
values kept, old circuits of the new ranges kept with their flags, new ones IDLE, the others UNEQUIPPED, and the idle set and
counts rebuilt; the service state, the far-end level and its timer and the batch as they were, the congestion state derived
when the group's counts have moved (R28), and other circuits, groups and blocks as they were. -/
def Obligations.DefineGroupAgain : Prop :=
  ∀ (r : Sender) (d : GroupDefinition) (dir : Direction) (gl : GlareRule) (hu : HuntMode) (s u : State) (g0 : Group),
    PlantSound s → BatchSound s → PendingBusy s → Takes (.defineGroup r d) s u → d.direction = .given dir →
    d.glare = .given gl → d.hunt = .given hu → d.group ≤ 255 → d.carrier ≤ 63 → rangesWellFormed d.ranges = true →
    rangesFit d.ranges = true → u.plant.locked = false → u.group d.group = some g0 →
    (∀ c e, u.circuit c = some e → e.group = d.group → e.occupancy = .idle) →
    (∀ c e, inRanges d.ranges c = true → u.circuit c = some e → e.group = d.group) →
    ∃ v g,
      Answers (.defineGroup r d) s
        (okOr (outsideOpt 0 10000 d.guardTime || outsideOpt 0 255 d.threshold || outsideOpt 1 64 d.hysteresis ||
          outsideOpt 1 60 d.decay))
        (.groupCircuits ((d.ranges.map (·.count)).sum)) v ∧
      v.group d.group = some g ∧ GroupSound v d.group g ∧ g.busyIn = 0 ∧ g.busyOut = 0 ∧ g.inGuard = 0 ∧
      g =
        { g with
          carrier := d.carrier
          direction := dir
          glare := gl
          ranges := d.ranges
          hunt := hu
          lastSeized := none
          guardTime := clampOpt 0 10000 d.guardTime g0.guardTime
          threshold := clampOpt 0 255 d.threshold g0.threshold
          hysteresis := clampOpt 1 64 d.hysteresis g0.hysteresis
          decay := clampOpt 1 60 d.decay g0.decay
          drainProtected := d.drainProtected.getD g0.drainProtected } ∧
      (∀ c, v.circuit c =
        if inRanges d.ranges c = true then some ((u.circuit c).getD ⟨d.group, false, false, .idle⟩)
        else if inRanges g0.ranges c = true then none
        else u.circuit c) ∧
      (∀ n, n ≠ d.group → v.group n = u.group n ∧ v.svc n = u.svc n) ∧ v.plant.locked = false ∧
      (v.svc d.group).farLevel = (u.svc d.group).farLevel ∧
      (v.svc d.group).decayExpiry = (u.svc d.group).decayExpiry ∧
      (v.svc d.group).service = (u.svc d.group).service ∧ Derived u v d.group ∧
      v.service = { u.service with groups := v.service.groups, exhausted := v.service.exhausted } ∧
      SameElsewhere u v ∧ v.calls = u.calls

/-- R8: SET_GROUP_PARAMS: its ordered checks, and when they pass the fields present are clamped and stored, the rest kept;
a threshold or hysteresis present makes the controller derive the congestion state again. A value that is no direction,
glare rule or hunt mode is refused BAD_REQUEST (R186) before the checks (notes/assumptions/17.md). -/
def Obligations.SetGroupParamsStores : Prop :=
  ∀ (r : Sender) (n : Nat) (p : GroupChanges) (s u : State), Takes (.setGroupParams r n p) s u →
    (∀ st,
      FirstOf
        [(p.direction = .undefined ∨ p.glare = .undefined ∨ p.hunt = .undefined, .badRequest),
          (255 < n, .outOfRange), (63 < p.carrier.getD 0, .outOfRange), (u.group n = none, .wrongState),
          (u.plant.locked = true ∧ ∃ g, u.group n = some g ∧
            (p.carrier.getD g.carrier ≠ g.carrier ∨ p.direction.orElse g.direction ≠ g.direction ∨
              p.glare.orElse g.glare ≠ g.glare), .plantLocked)] st →
      Refuses (.setGroupParams r n p) s st u) ∧
    ∀ g, p.direction ≠ .undefined → p.glare ≠ .undefined → p.hunt ≠ .undefined → n ≤ 255 → p.carrier.getD 0 ≤ 63 →
      u.group n = some g →
      (u.plant.locked = false ∨
        (p.carrier.getD g.carrier = g.carrier ∧ p.direction.orElse g.direction = g.direction ∧
          p.glare.orElse g.glare = g.glare)) →
      ∀ w, w = u.setGroup n
            (some
              { g with
                carrier := p.carrier.getD g.carrier
                direction := p.direction.orElse g.direction
                glare := p.glare.orElse g.glare
                hunt := p.hunt.orElse g.hunt
                guardTime := clampOpt 0 10000 p.guardTime g.guardTime
                threshold := clampOpt 0 255 p.threshold g.threshold
                hysteresis := clampOpt 1 64 p.hysteresis g.hysteresis
                decay := clampOpt 1 60 p.decay g.decay
                drainProtected := p.drainProtected.getD g.drainProtected }) →
        Answers (.setGroupParams r n p) s
          (okOr (outsideOpt 0 10000 p.guardTime || outsideOpt 0 255 p.threshold || outsideOpt 1 64 p.hysteresis ||
            outsideOpt 1 60 p.decay))
          .nothing (if p.threshold.isSome = true ∨ p.hysteresis.isSome = true then rederive n w else w)

/-- R9: DELETE_GROUP: its ordered checks, OK without a change for an undefined group, and when it is carried out the
circuits of the group UNEQUIPPED, the group undefined, its service record at its start; the drain batch, the plans, other
circuits, groups and blocks as they were. -/
def Obligations.DeleteGroupRemoves : Prop :=
  ∀ (r : Sender) (n : Nat) (s u : State), PlantSound s → Takes (.deleteGroup r n) s u →
    (255 < n → Refuses (.deleteGroup r n) s .outOfRange u) ∧
    (n ≤ 255 → u.plant.locked = true → Refuses (.deleteGroup r n) s .plantLocked u) ∧
    (n ≤ 255 → u.plant.locked = false → u.group n = none → Answers (.deleteGroup r n) s .ok .nothing u) ∧
    (n ≤ 255 → u.plant.locked = false → (u.group n).isSome = true →
      ((∃ c e, u.circuit c = some e ∧ e.group = n ∧ e.occupancy ≠ .idle) ∨
        u.service.batch.resultOf n = some .pending) →
      Refuses (.deleteGroup r n) s .groupBusy u) ∧
    (n ≤ 255 → u.plant.locked = false → (u.group n).isSome = true →
      (∀ c e, u.circuit c = some e → e.group = n → e.occupancy = .idle) →
      u.service.batch.resultOf n ≠ some .pending →
      ∃ v,
        Answers (.deleteGroup r n) s .ok .nothing v ∧ v.group n = none ∧ v.svc n = .initial ∧
        (∀ m, m ≠ n → v.group m = u.group m ∧ v.svc m = u.svc m) ∧
        (∀ c, (∃ e, u.circuit c = some e ∧ e.group = n) → v.circuit c = none) ∧
        (∀ c, (∀ e, u.circuit c = some e → e.group ≠ n) → v.circuit c = u.circuit c) ∧
        v.plant.locked = false ∧ v.service.batch = u.service.batch ∧ SameElsewhere u v ∧ v.calls = u.calls)

/-- R22, R23, R36: BLOCK_CIRCUITS sets and UNBLOCK_CIRCUITS clears a flag on every circuit of the clamped range that is not
UNEQUIPPED, and changes no other field of a circuit; whatever its answer, the request closes a forming join window first
(notes/assumptions/18.md). It answers how many flags it changed and how many circuits it skipped; each group whose idle
count it moved derives its congestion state (R28), and nothing else of the controller but the exhaustion of plans has
changed since the window closed. -/
def Obligations.BlockAndUnblock : Prop :=
  ∀ (r : Sender) (first count : Nat) (kind : Arg FlagKind) (on : Bool) (c : Instr) (s u : State), PlantSound s →
    BatchSound s → PendingBusy s →
    c = (if on = true then .blockCircuits r first count kind else .unblockCircuits r first count kind) →
    Takes c s u →
    (∀ st,
      FirstOf
        [(16383 < first, .outOfRange), (16384 < first + clamp 1 2048 count, .outOfRange),
          (kind.value? = none, .badRequest)] st →
      Answers c s st .nothing (closeWindow u)) ∧
    ∀ k, first ≤ 16383 → first + clamp 1 2048 count ≤ 16384 → kind = .given k →
      ∃ v,
        Answers c s (okOr (outside 1 2048 count))
          (.flagsChanged
            ((List.range' first (clamp 1 2048 count)).countP
              (fun i => (u.circuit i).any (fun e => decide (withFlag k on e ≠ e))))
            ((List.range' first (clamp 1 2048 count)).countP (fun i => (u.circuit i).isNone))) v ∧
        (∀ i, v.circuit i =
          if first ≤ i ∧ i < first + clamp 1 2048 count then (u.circuit i).map (withFlag k on) else u.circuit i) ∧
        PlantSound v ∧ (∀ n, v.busyTotal n = u.busyTotal n) ∧
        (∀ n g, u.group n = some g →
          ∃ i a b, v.group n = some { g with idleSet := i, available := a, blockedIdle := b }) ∧
        (∀ n, u.group n = none → v.group n = none) ∧
        (∀ n, Derived (closeWindow u) v n) ∧
        v.service =
          { (closeWindow u).service with groups := v.service.groups, exhausted := v.service.exhausted } ∧
        v.plant.locked = u.plant.locked ∧ SameElsewhere u v ∧ v.calls = u.calls

/-- R13: the circuit an outbound seizure picks from an idle set in circuit-number order, by the group's hunt mode. -/
def Obligations.HuntModePicks : Prop :=
  ∀ (g : Group) (c : Nat), rising g.idleSet = true →
    (pickCircuit g = some c ↔
      c ∈ g.idleSet ∧
        (g.hunt = .firstUp → ∀ x ∈ g.idleSet, c ≤ x) ∧
        (g.hunt = .firstDown → ∀ x ∈ g.idleSet, x ≤ c) ∧
        (g.hunt = .rotate → g.lastSeized = none → ∀ x ∈ g.idleSet, c ≤ x) ∧
        ∀ m, g.hunt = .rotate → g.lastSeized = some m →
          ((∃ x ∈ g.idleSet, m < x) → m < c ∧ ∀ x ∈ g.idleSet, m < x → c ≤ x) ∧
          ((∀ x ∈ g.idleSet, x ≤ m) → ∀ x ∈ g.idleSet, c ≤ x))

/-- R12, R14: an outbound seizure from a defined group: it succeeds exactly under the checks, on the circuit the hunt mode
picks, with the carrier and the congestion state before it; then the circuit is BUSY_OUT with the call's reference, has left
the idle set, is the last seized, and the counts have moved; no other circuit or group has changed. -/
def Obligations.OutboundSeizure : Prop :=
  ∀ (s : State) (n : Nat) (g : Group) (cls : CallClass) (kind : StepKind) (call : CallRef), PlantSound s →
    s.group n = some g →
    ((outboundPick s n cls kind).isSome = true ↔
      g.direction ≠ .inOnly ∧ ((s.svc n).service = .inService ∨ (s.svc n).service = .drainSuspended) ∧
        g.idleSet ≠ [] ∧
        (cls = .normal →
          (kind = .primary → (s.svc n).farLevel ≤ 1 ∨ ((s.svc n).farLevel = 2 ∧ g.threshold < g.available)) ∧
          (kind ≠ .primary → (s.svc n).farLevel = 0 ∧ g.threshold < g.available))) ∧
    ∀ z, outboundPick s n cls kind = some z →
      pickCircuit g = some z.circuit ∧ z.carrier = g.carrier ∧ z.congestion = (s.svc n).congestion ∧
      (∃ e, s.circuit z.circuit = some e ∧ (occupyOut n z.circuit call s).circuit z.circuit =
        some { e with occupancy := .busyOut call }) ∧
      (occupyOut n z.circuit call s).group n =
        some
          { g with
            lastSeized := some z.circuit
            idleSet := removeNumber z.circuit g.idleSet
            available := g.available - 1
            busyOut := g.busyOut + 1 } ∧
      (∀ c, c ≠ z.circuit → (occupyOut n z.circuit call s).circuit c = s.circuit c) ∧
      (∀ m, m ≠ n → (occupyOut n z.circuit call s).group m = s.group m)

/-- R20: a released leg: with a flag set, or set by a circuit fault, or a guard time of 0 the circuit becomes IDLE, and else
GUARD for the group's guard time; the flags stay, but a circuit fault sets the local one; a circuit that the call does not
hold is left alone. R21: GUARD_EXPIRY: a guard whose expiry has been reached ends: the circuit is IDLE, available or by its
flags blocked-idle, guard goes down by 1, and the group makes its report when its idle count has moved: the congestion state
is derived (R28) and the plans that name the group are re-evaluated (R45). (That GUARD_EXPIRY with no guard that has been
reached changes nothing is the model's choice, notes/assumptions/8.md.) -/
def Obligations.LegReleaseAndGuardExpiry : Prop :=
  (∀ (s : State) (c : Nat) (call : CallRef) (fault : Bool) (e : Equipped) (g : Group), PlantSound s →
     s.circuit c = some e → s.group e.group = some g →
     (e.occupancy ≠ .busyIn call → e.occupancy ≠ .busyOut call → releaseLeg c call fault s = s) ∧
     (e.occupancy = .busyIn call ∨ e.occupancy = .busyOut call →
       (releaseLeg c call fault s).circuit c =
         some
           { e with
             localFlag := e.localFlag || fault
             occupancy :=
               if (e.localFlag || fault || e.remoteFlag) = true ∨ g.guardTime = 0 then .idle
               else .guard (s.now + g.guardTime) } ∧
       (∀ i, i ≠ c → (releaseLeg c call fault s).circuit i = s.circuit i) ∧
       (∀ m, m ≠ e.group → (releaseLeg c call fault s).group m = s.group m) ∧ PlantSound (releaseLeg c call fault s))) ∧
  ∀ (s : State) (c : Nat), PlantSound s →
    ((∀ e y, s.circuit c = some e → e.occupancy = .guard y → s.now < y) → exec (.guardExpiry c) s = .next s) ∧
    (∀ e g x, s.circuit c = some e → s.group e.group = some g → e.occupancy = .guard x → x ≤ s.now →
      ∃ v, exec (.guardExpiry c) s = .next v ∧ v.circuit c = some { e with occupancy := .idle } ∧
        v.group e.group =
          some
            (if (e.localFlag || e.remoteFlag) = true then
              { g with inGuard := g.inGuard - 1, blockedIdle := g.blockedIdle + 1 }
             else
              { g with
                inGuard := g.inGuard - 1
                available := g.available + 1
                idleSet := insertNumber c g.idleSet }) ∧
        (∀ i, i ≠ c → v.circuit i = s.circuit i) ∧
        (∀ m, m ≠ e.group → v.group m = s.group m ∧ v.svc m = s.svc m) ∧
        v.plant.locked = s.plant.locked ∧ SameElsewhere s v ∧ v.calls = s.calls ∧
        ((e.localFlag || e.remoteFlag) = true → v.service = s.service ∧ v.levels = s.levels ∧ v.ports = s.ports) ∧
        (BatchSound s → PendingBusy s →
          ((e.localFlag || e.remoteFlag) = false →
            v.svc e.group =
              { s.svc e.group with
                congestion := nextCongestion (s.svc e.group).congestion (g.available + 1) g.threshold g.hysteresis }) ∧
          v.service = { s.service with groups := v.service.groups, exhausted := v.service.exhausted }) ∧
        (RoutesSound s → LevelsSound s →
          LevelsSound v ∧ (∀ p, v.service.exhausted.get p = planExhausted v p) ∧
            (e.group < 256 → v.level ⟨.groupCongestion, e.group⟩ = (v.svc e.group).congestion.level)))

/-! ## Congestion and group service (chapter 2) -/

/-- R27, R28: the congestion state that a group's idle count, threshold and hysteresis give by the state before, and what a
derivation does: nothing when the state stays, and else the new state and a report of its level 0, 1 or 2. -/
def Obligations.CongestionDerivation : Prop :=
  (∀ before idle r h, 1 ≤ h →
    (idle = 0 → nextCongestion before idle r h = .full) ∧
    (1 ≤ idle → idle ≤ r → nextCongestion .opened idle r h = .reserved) ∧
    (1 ≤ idle → r < idle → nextCongestion .opened idle r h = .opened) ∧
    (r + h ≤ idle → nextCongestion .reserved idle r h = .opened) ∧
    (1 ≤ idle → idle ≤ r + h - 1 → nextCongestion .reserved idle r h = .reserved) ∧
    (1 ≤ idle → idle ≤ r + h - 1 → nextCongestion .full idle r h = .reserved) ∧
    (r + h ≤ idle → nextCongestion .full idle r h = .opened)) ∧
  ∀ (s : State) (n : Nat) (g : Group) (c : Congestion), s.group n = some g →
    c = nextCongestion (s.svc n).congestion g.available g.threshold g.hysteresis →
    (c = (s.svc n).congestion → deriveCongestion s n = s) ∧
    (c ≠ (s.svc n).congestion →
      deriveCongestion s n =
        reportLevel ⟨.groupCongestion, n⟩ (if c = .opened then 0 else if c = .reserved then 1 else 2)
          (s.setSvc n { s.svc n with congestion := c }))

/-- R30, R31: REPORT_FAR_CONGESTION sets the far-end level of a defined group to the level carried, at most 3, and starts
or stops its decay timer (R29), whatever the group's service state; it answers the level in force. DECAY_EXPIRY of a defined
group whose running timer has been reached lowers the level by 1, and the timer restarts while the level is above 0.
(That DECAY_EXPIRY with a timer that is stopped or not reached changes nothing is the model's choice,
notes/assumptions/8.md.) -/
def Obligations.FarEndLevel : Prop :=
  (∀ (r : Sender) (n level : Nat) (s u : State), Takes (.reportFarCongestion r n level) s u →
    (∀ st, FirstOf [(255 < n, .outOfRange), (u.group n = none, .wrongState)] st →
      Refuses (.reportFarCongestion r n level) s st u) ∧
    ∀ g, n ≤ 255 → u.group n = some g →
      Answers (.reportFarCongestion r n level) s (if 3 < level then .adjusted else .ok) (.farLevel (min level 3))
        (u.setSvc n
          { u.svc n with
            farLevel := min level 3
            decayExpiry := if level = 0 then none else some (u.now + g.decay * 1000) })) ∧
  ∀ (s : State) (n : Nat),
    (∀ g x, s.group n = some g → (s.svc n).decayExpiry = some x → x ≤ s.now →
      exec (.decayExpiry n) s =
        .next
          (s.setSvc n
            { s.svc n with
              farLevel := (s.svc n).farLevel - 1
              decayExpiry :=
                if 1 < (s.svc n).farLevel then some (s.now + g.decay * 1000) else none })) ∧
    ((s.group n = none ∨ ∀ x, (s.svc n).decayExpiry = some x → s.now < x) → exec (.decayExpiry n) s = .next s)

/-- R34, R35: DRAIN_GROUP: its ordered checks, the group that is in the batch already, and how a group joins: protected,
into a batch that is not DRAINING, into a DRAINING one while it is busy, and into a DRAINING one when it is empty. (A clamped
deadline is answered ADJUSTED also for a group that is in the batch already: notes/assumptions/19.md.) -/
def Obligations.DrainGroupJoins : Prop :=
  ∀ (r : Sender) (n d : Nat) (s u : State) (c : Instr) (st : Status) (old b : DrainBatch), c = .drainGroup r n d →
    Takes c s u → st = (if 3600 < d then .adjusted else .ok) → old = u.service.batch →
    b =
      { (if old.state = .none then
          { DrainBatch.empty with state := .forming, deadline := min d 3600, windowExpiry := some (u.now + 2000) }
        else old) with
        contributors :=
          (if old.state = .none then PerPort.all false else old.contributors).set r.port true } →
    (∀ x,
      FirstOf
        [(255 < n, .outOfRange), (u.group n = none, .wrongState), ((old.resultOf n).isSome = true, .ok),
          ((u.svc n).service = .outOfService, .wrongState),
          (¬(old.state = .none ∨ old.members.length < 32), .batchFull)] x →
      x ≠ .ok → Refuses c s x u) ∧
    (∀ x, n ≤ 255 → (u.group n).isSome = true → old.resultOf n = some x →
      Answers c s st (.drainJoined old.state (some x) old.deadline)
        (u.setBatch { old with contributors := old.contributors.set r.port true })) ∧
    ∀ g, n ≤ 255 → u.group n = some g → old.resultOf n = none → b.resultOf n = none →
      (u.svc n).service ≠ .outOfService → (old.state = .none ∨ old.members.length < 32) →
      (g.drainProtected = true →
        Answers c s st (.drainJoined b.state (some .isProtected) b.deadline)
          (u.setBatch { b with members := b.members ++ [⟨n, .isProtected⟩] })) ∧
      (g.drainProtected = false → b.state ≠ .draining →
        ∃ v, Answers c s st (.drainJoined b.state (some .pending) b.deadline) v ∧
          v.service.batch = { b with members := b.members ++ [⟨n, .pending⟩] } ∧
          v.svc n =
            { u.svc n with service := if b.state = .suspended then .drainSuspended else .draining } ∧
          (∀ m, m ≠ n → v.svc m = u.svc m) ∧ v.plant = u.plant ∧ SameElsewhere u v ∧ v.calls = u.calls) ∧
      (g.drainProtected = false → b.state = .draining → 0 < u.busyTotal n →
        ∃ v, Answers c s st (.drainJoined .draining (some .pending) b.deadline) v ∧
          v.service.batch = { b with members := b.members ++ [⟨n, .pending⟩] } ∧
          v.svc n = { u.svc n with service := .draining } ∧ (∀ m, m ≠ n → v.svc m = u.svc m) ∧ v.plant = u.plant ∧
          SameElsewhere u v ∧
          v.calls =
            (if b.deadlinePassed = true then { u.calls with releaseLists := u.calls.releaseLists ++ [[n]] }
             else u.calls)) ∧
      (g.drainProtected = false → b.state = .draining → u.busyTotal n = 0 →
        ∃ v, Answers c s st (.drainJoined v.service.batch.state (v.service.batch.resultOf n) v.service.batch.deadline) v ∧
          v.service.batch =
            (if b.members.any (fun m => m.result == .pending) = true then
              { b with members := b.members ++ [⟨n, .drained⟩] }
             else .empty) ∧
          v.svc n = { u.svc n with service := .outOfService } ∧ (∀ m, m ≠ n → v.svc m = u.svc m) ∧
          v.plant = u.plant ∧ SameElsewhere u v ∧
          v.calls =
            (if b.deadlinePassed = true then { u.calls with releaseLists := u.calls.releaseLists ++ [[n]] }
             else u.calls))

/-- R36, R39: DRAIN_SUSPEND is refused in NONE, in SUSPENDED and once the deadline has passed; a FORMING batch whose members
are all PROTECTED completes; any other FORMING or DRAINING batch goes SUSPENDED with what is left of its deadline, its
pending members' groups DRAIN_SUSPENDED. (Of a deadline that has been reached and not been taken 0 is left: the model's
choice, notes/assumptions/16.md.) -/
def Obligations.DrainSuspend : Prop :=
  ∀ (r : Sender) (s u : State) (b : DrainBatch), Takes (.drainSuspend r) s u → b = u.service.batch →
    (b.state = .none ∨ b.state = .suspended ∨ (b.state = .draining ∧ b.deadlinePassed = true) →
      Refuses (.drainSuspend r) s .wrongState u) ∧
    (b.state = .forming → (∀ m ∈ b.members, m.result = .isProtected) →
      ∃ v, Answers (.drainSuspend r) s .ok (.drainSuspended .none none) v ∧ v.service = { u.service with batch := .empty } ∧
        v.plant = u.plant ∧ v.calls = u.calls ∧ SameElsewhere u v) ∧
    ∀ left,
      (b.state = .forming ∧ (∃ m ∈ b.members, m.result ≠ .isProtected) ∧
          left = (if b.deadline = 0 then none else some (b.deadline * 1000))) ∨
        (b.state = .draining ∧ b.deadlinePassed = false ∧ left = b.deadlineExpiry.map (· - u.now)) →
      ∃ v, Answers (.drainSuspend r) s .ok (.drainSuspended .suspended left) v ∧
        v.service.batch =
          { b with state := .suspended, windowExpiry := none, deadlineExpiry := none, remaining := left } ∧
        (∀ n, v.svc n =
          if n ∈ b.pendingGroups then { u.svc n with service := .drainSuspended } else u.svc n) ∧
        v.plant = u.plant ∧ v.calls = u.calls ∧ SameElsewhere u v

/-- R40: DRAIN_RESUME of a SUSPENDED batch: it goes DRAINING with what is left of its deadline, its pending members with no
busy circuit become DRAINED and the others drain on, and the batch completes when none is left; in any other batch state the
request is refused. -/
def Obligations.DrainResume : Prop :=
  ∀ (r : Sender) (s u : State) (b : DrainBatch) (ms : List Member), Takes (.drainResume r) s u → BatchSound s →
    b = u.service.batch →
    ms =
      b.members.map
        (fun m => if m.result = .pending ∧ u.busyTotal m.group = 0 then { m with result := .drained } else m) →
    (b.state ≠ .suspended → Refuses (.drainResume r) s .wrongState u) ∧
    (b.state = .suspended →
      ∃ v,
        Answers (.drainResume r) s .ok
          (.drainResumed v.service.batch.state (v.service.batch.deadlineExpiry.map (· - u.now))) v ∧
        v.service.batch =
          (if ms.any (fun m => m.result == .pending) = true then
            { b with
              state := .draining
              members := ms
              deadlineExpiry := b.remaining.map (u.now + ·)
              remaining := none }
           else .empty) ∧
        (∀ n, v.svc n =
          if n ∈ b.pendingGroups then
            { u.svc n with service := if u.busyTotal n = 0 then .outOfService else .draining }
          else u.svc n) ∧
        v.plant = u.plant ∧ v.calls = u.calls ∧ SameElsewhere u v)

/-- R36, R41: RETURN_GROUP: its checks; a pending member becomes RETURNED and its group goes back to service, with a DRAINING
or SUSPENDED batch complete when no member is pending any more; an OUT_OF_SERVICE group goes back to service; another group
stays as it is. Whatever its answer, the request then closes a forming join window. -/
def Obligations.ReturnGroup : Prop :=
  ∀ (r : Sender) (n : Nat) (s u : State) (b : DrainBatch) (ms : List Member), Takes (.returnGroup r n) s u →
    b = u.service.batch →
    ms = b.members.map (fun m => if m.group = n then { m with result := .returned } else m) →
    (∀ st, FirstOf [(255 < n, .outOfRange), (u.group n = none, .wrongState)] st →
      Answers (.returnGroup r n) s st .nothing (closeWindow u)) ∧
    (n ≤ 255 → (u.group n).isSome = true →
      ∃ w, Answers (.returnGroup r n) s .ok (.service ((closeWindow w).svc n).service) (closeWindow w) ∧
        (b.resultOf n = some .pending →
          w.service.batch =
            (if (b.state = .draining ∨ b.state = .suspended) ∧ ∀ m ∈ ms, m.result ≠ .pending then .empty
             else { b with members := ms }) ∧
          w.svc n = { u.svc n with service := .inService } ∧ ((closeWindow w).svc n).service = .inService ∧
          (∀ m, m ≠ n → w.svc m = u.svc m) ∧ w.plant = u.plant ∧ w.calls = u.calls ∧ SameElsewhere u w) ∧
        (b.resultOf n ≠ some .pending → (u.svc n).service = .outOfService →
          w.service.batch = b ∧ w.svc n = { u.svc n with service := .inService } ∧
          (∀ m, m ≠ n → w.svc m = u.svc m) ∧ w.plant = u.plant ∧ w.calls = u.calls ∧ SameElsewhere u w) ∧
        (b.resultOf n ≠ some .pending → (u.svc n).service ≠ .outOfService → w = u) ∧
        (b.state ≠ .forming → closeWindow u = u ∧ closeWindow w = w))

/-- R36: the close of a FORMING batch's join window: with every member PROTECTED the batch completes, and else it goes
DRAINING with its deadline started, its pending members with no busy circuit become DRAINED, and it completes when none is
pending. WINDOW_EXPIRY closes it when the window's time has been reached. (That it changes nothing before that is the model's
choice, notes/assumptions/8.md.) -/
def Obligations.WindowCloses : Prop :=
  ∀ (s : State) (b : DrainBatch) (ms : List Member), BatchSound s → b = s.service.batch →
    ms =
      b.members.map
        (fun m => if m.result = .pending ∧ s.busyTotal m.group = 0 then { m with result := .drained } else m) →
    (∀ x, b.windowExpiry = some x → x ≤ s.now → exec .windowExpiry s = .next (closeWindow s)) ∧
    ((∀ x, b.windowExpiry = some x → s.now < x) → exec .windowExpiry s = .next s) ∧
    (b.state ≠ .forming → closeWindow s = s) ∧
    (b.state = .forming → (∀ m ∈ b.members, m.result = .isProtected) →
      (closeWindow s).service = { s.service with batch := .empty } ∧ (closeWindow s).plant = s.plant ∧
        (closeWindow s).calls = s.calls ∧ SameElsewhere s (closeWindow s)) ∧
    (b.state = .forming → (∃ m ∈ b.members, m.result ≠ .isProtected) →
      (closeWindow s).service.batch =
          (if ms.any (fun m => m.result == .pending) = true then
            { b with
              state := .draining
              members := ms
              windowExpiry := none
              deadlineExpiry := if b.deadline = 0 then none else some (s.now + b.deadline * 1000) }
           else .empty) ∧
        (∀ n, (closeWindow s).svc n =
          if n ∈ b.pendingGroups ∧ s.busyTotal n = 0 then { s.svc n with service := .outOfService } else s.svc n) ∧
        (closeWindow s).plant = s.plant ∧ (closeWindow s).calls = s.calls ∧ SameElsewhere s (closeWindow s))

/-- R188: a notice made for a port joins its queue, is dropped and counted when the queue is full, or is discarded while
the port is DOWN; one to all UP ports is made once for each. R38: the completion of the batch: the contributors that are UP
are each given one DRAIN_DONE with the members in their order and the number of those DRAINED, and the record returns to its
NONE values; nothing else changes. R42 steps 1 and 2,
R43: DEADLINE_EXPIRY of a DRAINING batch whose deadline has been reached removes the expiry, sets the mark and hands the call
table the groups of the pending members, and in any other case has nothing to act on. DRAIN_CONTRIBUTOR_LOSS takes a port's
loss that was handed to the controller: the port leaves the contributors and the batch goes on. (That an event without
anything to act on changes nothing is the model's choice, notes/assumptions/8.md, and that a loss is taken by a command of
its own, notes/assumptions/10.md.) -/
def Obligations.BatchEnds : Prop :=
  (∀ (s : State) (p : Port),
    completeBatch s =
        { s with
          service := { s.service with batch := .empty }
          ports := (completeBatch s).ports } ∧
      (completeBatch s).port p =
        if s.service.batch.contributors.get p = true ∧ (s.port p).state = .up then
          (if (s.port p).notices.length < 64 then
            { s.port p with
              notices :=
                (s.port p).notices ++
                  [.drainDone s.service.batch.members
                    (s.service.batch.members.filter (fun m => m.result == .drained)).length] }
           else { s.port p with drops := min ((s.port p).drops + 1) 65535 })
        else s.port p) ∧
  ∀ (s : State) (b : DrainBatch) (p : Port), b = s.service.batch →
    (∀ x, b.state = .draining → b.deadlineExpiry = some x → x ≤ s.now →
      exec .deadlineExpiry s =
        .next
          { s with
            service := { s.service with batch := { b with deadlineExpiry := none, deadlinePassed := true } }
            calls :=
              { s.calls with
                releaseLists :=
                  s.calls.releaseLists ++
                    [(b.members.filter (fun m => m.result == .pending)).map (·.group)] } }) ∧
    ((b.state ≠ .draining ∨ ∀ x, b.deadlineExpiry = some x → s.now < x) → exec .deadlineExpiry s = .next s) ∧
    (p ∈ s.service.losses →
      exec (.drainContributorLoss p) s =
        .next
          { s with
            service :=
              { s.service with
                batch := { b with contributors := b.contributors.set p false }
                losses := s.service.losses.erase p } }) ∧
    (p ∉ s.service.losses → exec (.drainContributorLoss p) s = .next s) ∧
    ∀ n : Notice,
      notify p n s =
          (if (s.port p).state = .down then s
           else if (s.port p).notices.length < 64 then
            s.setPort p { s.port p with notices := (s.port p).notices ++ [n] }
           else s.setPort p { s.port p with drops := min ((s.port p).drops + 1) 65535 }) ∧
        (notifyAllUp n s).port p = (if (s.port p).state = .up then (notify p n s).port p else s.port p) ∧
        notifyAllUp n s = { s with ports := (notifyAllUp n s).ports }

/-- R45, R46: a plan is exhausted when it holds a step and no step of it names a group with room; a re-evaluation stores
that, reports the level when it has changed, and does nothing when it has not. -/
def Obligations.PlanReevaluation : Prop :=
  ∀ (s : State) (p : Nat),
    (planExhausted s p = true ↔
      s.plan p ≠ [] ∧
        ∀ st ∈ s.plan p,
          ¬((s.group st.group).isSome = true ∧
            ((s.svc st.group).congestion = .opened ∨ (s.svc st.group).congestion = .reserved) ∧
            ((s.svc st.group).service = .inService ∨ (s.svc st.group).service = .drainSuspended))) ∧
    (planExhausted s p = s.service.exhausted.get p → evaluatePlan s p = s) ∧
    (planExhausted s p ≠ s.service.exhausted.get p →
      evaluatePlan s p =
        reportLevel ⟨.planExhausted, p⟩ (if planExhausted s p = true then 1 else 0)
          { s with service := { s.service with exhausted := s.service.exhausted.set p (planExhausted s p) } })

/-! ## Number analysis and call gapping (chapter 3) -/

/-- R49, R50: ADD_PREFIX and REMOVE_PREFIX: their checks in order; then the entry with exactly that prefix names the new
destination, or is gone, every other prefix keeps its entry, and the answer carries the former destination and the number of
entries. -/
def Obligations.PrefixTable : Prop :=
  ∀ (r : Sender) (ds : List Nat) (d n : Nat) (s u : State) (ok : Prop), AnalyserSound s →
    n = u.analyser.prefixes.size → ok = (1 ≤ ds.length ∧ ds.length ≤ 16 ∧ ∀ x ∈ ds, x ≤ 9) →
    (Takes (.addPrefix r ds d) s u →
      (∀ st,
        FirstOf
          [(¬ok, .badRequest), (2047 < d, .outOfRange), (u.prefixEntry ds = none ∧ ¬n < 4096, .tableFull)] st →
        Refuses (.addPrefix r ds d) s st u) ∧
      (ok → d ≤ 2047 → (u.prefixEntry ds = none → n < 4096) →
        ∃ v,
          Answers (.addPrefix r ds d) s .ok
            (.prefixAdded (u.prefixEntry ds) (if u.prefixEntry ds = none then n + 1 else n)) v ∧
          v = { u with analyser := { u.analyser with prefixes := v.analyser.prefixes } } ∧
          v.prefixEntry ds = some d ∧
          ∀ xs, xs ≠ ds → (∀ x ∈ xs, x ≤ 9) → v.prefixEntry xs = u.prefixEntry xs)) ∧
    (Takes (.removePrefix r ds) s u →
      (¬ok → Refuses (.removePrefix r ds) s .badRequest u) ∧
      (ok →
        ∃ v,
          Answers (.removePrefix r ds) s .ok
            (.prefixRemoved (u.prefixEntry ds) (if u.prefixEntry ds = none then n else n - 1)) v ∧
          v = { u with analyser := { u.analyser with prefixes := v.analyser.prefixes } } ∧
          v.prefixEntry ds = none ∧
          ∀ xs, xs ≠ ds → (∀ x ∈ xs, x ≤ 9) → v.prefixEntry xs = u.prefixEntry xs))

/-- R51, R54: the longest prefix that equals the first digits of the called digits gives the destination; with none analysis
ends with NO_ROUTE, and at a destination that is barred or not in use with BARRED. -/
def Obligations.LongestPrefixMatch : Prop :=
  ∀ (s : State) (ds : List Nat),
    (∀ n d,
      longestMatch s ds = some (n, d) ↔
        1 ≤ n ∧ n ≤ 16 ∧ n ≤ ds.length ∧ s.prefixEntry (ds.take n) = some d ∧
          ∀ m, n < m → m ≤ 16 → m ≤ ds.length → s.prefixEntry (ds.take m) = none) ∧
    ((∀ m, 1 ≤ m → m ≤ 16 → m ≤ ds.length → s.prefixEntry (ds.take m) = none) → findTarget s ds = .error .noRoute) ∧
    ∀ n d, longestMatch s ds = some (n, d) →
      ((s.dest d).inUse = false ∨ (s.dest d).barred = true → findTarget s ds = .error .barred) ∧
      ((s.dest d).inUse = true → (s.dest d).barred = false → findTarget s ds = .ok ⟨d, (s.dest d).plan, n⟩)

/-- R57, R58, R59: SET_GAP adds or changes the gap of a destination, CLEAR_GAP and a life expiry that has been reached remove
it; every other gap stays as it is. (That GAP_LIFE_EXPIRY with no life that has been reached changes nothing is the model's
choice, notes/assumptions/8.md.) -/
def Obligations.GapTable : Prop :=
  ∀ (r : Sender) (d k : Nat) (interval life : Option Nat) (s u : State), AnalyserSound s → k = u.analyser.gaps.size →
    (Takes (.setGap r d interval life) s u →
      (∀ st,
        FirstOf
          [(2047 < d, .outOfRange), (interval = none ∨ life = none, .badRequest),
            (u.gap d = none ∧ ¬k < 64, .tableFull)] st →
        Refuses (.setGap r d interval life) s st u) ∧
      ∀ i l, d ≤ 2047 → interval = some i → life = some l → (u.gap d = none → k < 64) →
        ∃ v g,
          Answers (.setGap r d interval life) s (if i < 1 ∨ 6000 < i ∨ 86400 < l then .adjusted else .ok)
            (.gapSet (u.gap d).isNone (max 1 (min i 6000)) (min l 86400) (if u.gap d = none then k + 1 else k)) v ∧
          v = { u with analyser := { u.analyser with gaps := v.analyser.gaps } } ∧ v.gap d = some g ∧
          g.interval = max 1 (min i 6000) ∧ g.life = min l 86400 ∧
          g.lifeExpiry = (if l = 0 then none else some (u.now + min l 86400 * 1000)) ∧
          (u.gap d = none → g.nextAdmit = u.now ∧ g.refused = 0) ∧
          (∀ old, u.gap d = some old → g.nextAdmit = old.nextAdmit ∧ g.refused = old.refused) ∧
          ∀ e, e ≠ d → v.gap e = u.gap e) ∧
    (Takes (.clearGap r d) s u →
      (2047 < d → Refuses (.clearGap r d) s .outOfRange u) ∧
      (d ≤ 2047 →
        ∃ v, Answers (.clearGap r d) s .ok (.gapCleared ((u.gap d).map (·.refused))) v ∧
          v = { u with analyser := { u.analyser with gaps := v.analyser.gaps } } ∧ v.gap d = none ∧
          ∀ e, e ≠ d → v.gap e = u.gap e)) ∧
    (∀ g x, s.gap d = some g → g.lifeExpiry = some x → x ≤ s.now →
      ∃ v, exec (.gapLifeExpiry d) s = .next v ∧
        v = { s with analyser := { s.analyser with gaps := v.analyser.gaps } } ∧ v.gap d = none ∧
        ∀ e, e ≠ d → v.gap e = s.gap e) ∧
    ((∀ g x, s.gap d = some g → g.lifeExpiry = some x → s.now < x) → exec (.gapLifeExpiry d) s = .next s)

/-- R60: the gap check: a PRIORITY call and a destination without a gap pass and change nothing; at or after the next-admit
time a NORMAL call is admitted and the next-admit time becomes now + interval x 100 ms; before it the call is not admitted
and the refused count goes up by 1, to 4,294,967,295 at most. -/
def Obligations.GapCheck : Prop :=
  ∀ (s : State) (d : Nat),
    gapAdmits s d .priority = true ∧ afterGapCheck d .priority s = s ∧
    (s.gap d = none → gapAdmits s d .normal = true ∧ afterGapCheck d .normal s = s) ∧
    ∀ g, s.gap d = some g →
      (gapAdmits s d .normal = true ↔ g.nextAdmit ≤ s.now) ∧
      (g.nextAdmit ≤ s.now →
        (afterGapCheck d .normal s).gap d = some { g with nextAdmit := s.now + g.interval * 100 }) ∧
      (s.now < g.nextAdmit →
        (afterGapCheck d .normal s).gap d = some { g with refused := min (g.refused + 1) 4294967295 }) ∧
      (∀ e, e ≠ d → (afterGapCheck d .normal s).gap e = s.gap e) ∧
      afterGapCheck d .normal s =
        { s with analyser := { s.analyser with gaps := (afterGapCheck d .normal s).analyser.gaps } }

/-! ## Route plans, route selection and the route memory (chapters 4 and 5) -/

/-- R53, R85, R99, R100: WRITE_DEST replaces a destination's record and invalidates its route-memory entry alone;
SET_REATTEMPT_LIMIT stores the limit, at most 7; FLUSH_ROUTE_MEMORY invalidates every entry and leaves the pointers. -/
def Obligations.DestinationsLimitAndFlush : Prop :=
  ∀ (r : Sender) (dest plan limit : Option Nat) (barred inUse : Option Bool) (s u : State), MemorySound s →
    (Takes (.writeDest r dest plan barred inUse) s u →
      (dest = none ∨ plan = none ∨ barred = none ∨ inUse = none →
        Refuses (.writeDest r dest plan barred inUse) s .badRequest u) ∧
      ∀ d p x y, dest = some d → plan = some p → barred = some x → inUse = some y →
        (2047 < d ∨ 1023 < p → Refuses (.writeDest r dest plan barred inUse) s .outOfRange u) ∧
        (d ≤ 2047 → p ≤ 1023 →
          ∃ v, Answers (.writeDest r dest plan barred inUse) s .ok (.destinationBefore (u.dest d)) v ∧
            v.dest d = ⟨p, x, y⟩ ∧ (∀ e, e ≠ d → v.dest e = u.dest e) ∧
            v =
              { u with
                analyser := { u.analyser with destinations := v.analyser.destinations }
                memory := v.memory } ∧
            (∀ k, (v.memorySet k).pointer = (u.memorySet k).pointer) ∧
            ∀ (k i : Nat) (e : MemoryEntry),
              (v.memorySet k).ways[i]? = some (some e) ↔
                (u.memorySet k).ways[i]? = some (some e) ∧ ¬(k = d % 256 ∧ e.tag = d / 256))) ∧
    (Takes (.setReattemptLimit r limit) s u →
      (limit = none → Refuses (.setReattemptLimit r limit) s .badRequest u) ∧
      ∀ n, limit = some n →
        Answers (.setReattemptLimit r limit) s (if 7 < n then .adjusted else .ok)
          (.limitChanged u.routes.reattemptLimit (min n 7))
          { u with routes := { u.routes with reattemptLimit := min n 7 } }) ∧
    (Takes (.flushRouteMemory r) s u →
      ∃ v, Answers (.flushRouteMemory r) s .ok
          (.flushed
            ((u.memory.sets.entries.map (fun e => (e.2.ways.filter Option.isSome).length)).sum)) v ∧
        v = { u with memory := v.memory } ∧ (∀ k, (v.memorySet k).pointer = (u.memorySet k).pointer) ∧
        ∀ (k i : Nat) (e : MemoryEntry), (v.memorySet k).ways[i]? ≠ some (some e))

/-- R64, R65: WRITE_PLAN: its checks in order; then the plan holds the new steps alone, its exhaustion is what they give, the
plan stands in the sets of exactly the groups they name, and every route-memory entry of the plan is invalid; other plans,
entries and pointers stay. -/
def Obligations.WritePlan : Prop :=
  ∀ (r : Sender) (p : Nat) (args : List StepArg) (s u : State), MemorySound s → RoutesSound s →
    Takes (.writePlan r p args) s u →
    (1023 < p → Refuses (.writePlan r p args) s .outOfRange u) ∧
    (p ≤ 1023 → (args.length < 1 ∨ 8 < args.length ∨ ∃ a ∈ args, readStep a = none) →
      Refuses (.writePlan r p args) s .badRequest u) ∧
    ∀ steps, p ≤ 1023 → 1 ≤ args.length → args.length ≤ 8 → args.map readStep = steps.map some →
      (∀ st,
        FirstOf
          [(∃ x ∈ steps, 255 < x.group, .outOfRange), (∃ x ∈ steps, 7 < x.tariffClass, .outOfRange),
            (¬(steps.map (·.kind.rank)).Pairwise (· ≤ ·), .badPlan), (¬(steps.map (·.group)).Nodup, .badPlan)] st →
        Refuses (.writePlan r p args) s st u) ∧
      ((∀ x ∈ steps, x.group ≤ 255 ∧ x.tariffClass ≤ 7) → (steps.map (·.kind.rank)).Pairwise (· ≤ ·) →
        (steps.map (·.group)).Nodup →
        ∃ v, Answers (.writePlan r p args) s .ok (.planWritten (u.plan p).length steps.length) v ∧
          v.plan p = steps ∧ (∀ q, q ≠ p → v.plan q = u.plan q) ∧
          v.service.exhausted.get p = planExhausted v p ∧
          (∀ q, q ≠ p → v.service.exhausted.get q = u.service.exhausted.get q) ∧
          (∀ n q, q ∈ v.service.planSets.get n ↔ ∃ st ∈ v.plan q, st.group = n) ∧
          (∀ n, v.svc n = u.svc n) ∧ v.service.batch = u.service.batch ∧
          (∀ k, (v.memorySet k).pointer = (u.memorySet k).pointer) ∧
          (∀ (k i : Nat) (e : MemoryEntry),
            (v.memorySet k).ways[i]? = some (some e) ↔ (u.memorySet k).ways[i]? = some (some e) ∧ e.plan ≠ p) ∧
          v.plant = u.plant ∧ v.analyser = u.analyser ∧ v.calls = u.calls ∧ v.tariff = u.tariff ∧
          v.settlement = u.settlement ∧ v.routes.reattemptLimit = u.routes.reattemptLimit ∧ SamePorts u v)

/-- R69 to R71: when a step is eligible for a call. R73 to R77, R79, R80: a walk over a plan ends at its first eligible
PRIMARY step from the start; with none, and with the pool-tried flag clear and a POOL step from the start on, it tries the
one POOL step that the route memory answers, or the first of the plan, and the memory flag says which; when that step is not
eligible the route memory is handed a failure outcome if the flag is set, and the walk ends at its first eligible FINAL
step, or without a leg. The pool-tried flag is set from the pool try on. -/
def Obligations.EligibleStepsAndTheWalk : Prop :=
  (∀ (s : State) (c : WalkCall) (st : PlanStep),
    eligible s c st = true ↔
      ∃ g, s.group st.group = some g ∧ st.group ≠ c.inGroup ∧ (g.direction = .both ∨ g.direction = .outOnly) ∧
        ((s.svc st.group).service = .inService ∨ (s.svc st.group).service = .drainSuspended) ∧ 0 < g.available ∧
        (c.cls = .normal →
          (st.kind = .primary →
            (s.svc st.group).farLevel ≤ 1 ∨ ((s.svc st.group).farLevel = 2 ∧ g.threshold < g.available)) ∧
          (st.kind ≠ .primary → (s.svc st.group).farLevel = 0 ∧ g.threshold < g.available))) ∧
  ∀ (s : State) (c : WalkCall) (steps : List PlanStep), PlantSound s → MemorySound s → steps = s.plan c.plan →
    (∀ n, (walk c steps s).leg = some n →
      ∃ st, steps[n.stepIndex]? = some st ∧ n.group = st.group ∧ n.stepKind = st.kind ∧
        n.tariffClass = st.tariffClass ∧ n.group ≠ c.inGroup ∧ (st.kind ≠ .pool → c.start ≤ n.stepIndex) ∧
        (st.kind = .pool → c.poolTried = false ∧ (walk c steps s).poolTried = true) ∧
        ∃ e, (walk c steps s).state.circuit n.circuit = some e ∧ e.group = n.group ∧ e.occupancy = .busyOut c.ref) ∧
    (c.poolTried = true → (walk c steps s).poolTried = true) ∧
    (∀ i st, FirstEligible s c .primary i st → EndsAt s s c i st c.poolTried c.memoryFlag) ∧
    (NoneEligible s c .primary →
      (c.poolTried = true ∨ ∀ (i : Nat) (st : PlanStep), c.start ≤ i → steps[i]? = some st → st.kind ≠ .pool) →
      (∀ i st, FirstEligible s c .final i st → EndsAt s s c i st c.poolTried c.memoryFlag) ∧
      (NoneEligible s c .final → walk c steps s = ⟨s, none, c.poolTried, c.memoryFlag⟩)) ∧
    (NoneEligible s c .primary → c.poolTried = false →
      (∃ (i : Nat) (st : PlanStep), c.start ≤ i ∧ steps[i]? = some st ∧ st.kind = .pool) →
      (∃ m flag w, PoolTry s w c m flag) ∧
      ∀ m flag w, PoolTry s w c m flag →
        ∃ st, steps[m]? = some st ∧ st.kind = .pool ∧
          (eligible s c st = true → EndsAt s w c m st true flag) ∧
          (eligible s c st = false →
            ∀ x, x = (if flag = true then failureOutcome c.destination c.plan m w else w) →
              (∀ j y, FirstEligible s c .final j y → EndsAt s x c j y true flag) ∧
              (NoneEligible s c .final → walk c steps s = ⟨x, none, true, flag⟩))) ∧
    ((∀ st ∈ steps, st.kind ≠ .pool) → (steps.map (·.kind.rank)).Pairwise (· ≤ ·) →
      ((∀ (i : Nat) (st : PlanStep), c.start ≤ i → steps[i]? = some st → eligible s c st = false) →
        walk c steps s = ⟨s, none, c.poolTried, c.memoryFlag⟩) ∧
      ∀ (i : Nat) (st : PlanStep), c.start ≤ i → steps[i]? = some st → eligible s c st = true →
        (∀ (j : Nat) (x : PlanStep), c.start ≤ j → j < i → steps[j]? = some x → eligible s c x = false) →
        ∃ z, outboundPick s st.group c.cls st.kind = some z ∧
          walk c steps s =
            ⟨occupyOut st.group z.circuit c.ref s,
              some ⟨z.circuit, st.group, z.carrier, i, st.kind, st.tariffClass, z.congestion⟩, c.poolTried,
              c.memoryFlag⟩)

/-- R91, R92, R93: a lookup of the route memory: hit, plans differ, gapped or allocation, and what it leaves: an allocation
puts the new entry in the lowest invalid way, or in the way at the pointer, which then steps; nothing else changes. R94: its
member is the POOL step with the lowest rate of the live generation for the carrier of its group, its class and the band in
force, the lowest step index among equals; POOL steps of undefined groups are passed over, and when all are undefined it is
the first POOL step. -/
def Obligations.LookupAndAllocation : Prop :=
  (∀ (s : State) (d p : Nat) (m : MemorySet), MemorySound s → m = s.memorySet (d % 256) →
    (∀ (i : Nat) (e : MemoryEntry), m.ways[i]? = some (some e) → e.tag = d / 256 →
      lookup s d p = (if e.plan = p then .hit e.member else .plansDiffer) ∧ afterLookup d p s = s) ∧
    ((∀ e, some e ∈ m.ways → e.tag ≠ d / 256) →
      ((s.dest d).plan ≠ p → lookup s d p = .plansDiffer ∧ afterLookup d p s = s) ∧
      ((s.dest d).plan = p → (s.gap d).isSome = true → lookup s d p = .gapped ∧ afterLookup d p s = s) ∧
      ((s.dest d).plan = p → s.gap d = none →
        lookup s d p = .allocated (chooseMember s p) ∧
        (∀ k, k ≠ d % 256 → (afterLookup d p s).memorySet k = s.memorySet k) ∧
        afterLookup d p s = { s with memory := (afterLookup d p s).memory } ∧
        (∀ i, m.ways[i]? = some none → (∀ j, j < i → m.ways[j]? ≠ some none) →
          (afterLookup d p s).memorySet (d % 256) =
            ⟨m.ways.set i (some ⟨d / 256, p, chooseMember s p, 2⟩), m.pointer⟩) ∧
        (none ∉ m.ways →
          (afterLookup d p s).memorySet (d % 256) =
            ⟨m.ways.set m.pointer (some ⟨d / 256, p, chooseMember s p, 2⟩), (m.pointer + 1) % 4⟩)))) ∧
  ∀ (s : State) (p : Nat),
    (∀ (i : Nat) (st : PlanStep) (g : Group), (s.plan p)[i]? = some st → st.kind = .pool →
      s.group st.group = some g →
      (∀ (j : Nat) (x : PlanStep) (h : Group), (s.plan p)[j]? = some x → x.kind = .pool → s.group x.group = some h →
        (s.tariff.live.tariffs.entry g.carrier st.tariffClass).rate (bandInForce s) ≤
            (s.tariff.live.tariffs.entry h.carrier x.tariffClass).rate (bandInForce s) ∧
          ((s.tariff.live.tariffs.entry g.carrier st.tariffClass).rate (bandInForce s) =
            (s.tariff.live.tariffs.entry h.carrier x.tariffClass).rate (bandInForce s) → i ≤ j)) →
      chooseMember s p = i) ∧
    ∀ (i : Nat) (st : PlanStep), (s.plan p)[i]? = some st → st.kind = .pool →
      (∀ (j : Nat) (x : PlanStep), (s.plan p)[j]? = some x → x.kind = .pool → i ≤ j ∧ s.group x.group = none) →
      chooseMember s p = i

/-- R96, R97, R98: an outcome acts on the valid entry of its destination whose plan and member it names, and on nothing else:
a failure lowers the confidence by 1, and at 0 moves the member to the next POOL step of the plan, from the last back to the
first, with confidence 2; a success raises the confidence by 1, to 4 at most. An outcome that finds no such entry is
dropped. -/
def Obligations.MemoryOutcomes : Prop :=
  ∀ (s : State) (d p i : Nat) (m : MemorySet), MemorySound s → m = s.memorySet (d % 256) →
    ((∀ e, some e ∈ m.ways → e.tag = d / 256 → ¬(e.plan = p ∧ e.member = i)) →
      failureOutcome d p i s = s ∧ successOutcome d p i s = s) ∧
    ∀ (w : Nat) (e : MemoryEntry), m.ways[w]? = some (some e) → e.tag = d / 256 → e.plan = p → e.member = i →
      successOutcome d p i s =
        s.setMemorySet (d % 256) ⟨m.ways.set w (some { e with confidence := min (e.confidence + 1) 4 }), m.pointer⟩ ∧
      (0 < e.confidence →
        failureOutcome d p i s =
          s.setMemorySet (d % 256) ⟨m.ways.set w (some { e with confidence := e.confidence - 1 }), m.pointer⟩) ∧
      (e.confidence = 0 →
        ∀ (j : Nat) (st : PlanStep), (s.plan p)[j]? = some st → st.kind = .pool →
          ((i < j ∧ ∀ (k : Nat) (x : PlanStep), i < k → (s.plan p)[k]? = some x → x.kind = .pool → j ≤ k) ∨
            ((∀ (k : Nat) (x : PlanStep), (s.plan p)[k]? = some x → x.kind = .pool → j ≤ k ∧ k ≤ i))) →
          failureOutcome d p i s =
            s.setMemorySet (d % 256) ⟨m.ways.set w (some { e with member := j, confidence := 2 }), m.pointer⟩)

/-- R44, R62, R68, R101, R126: five queries answer what the stores hold when they are taken, and change nothing. (It is the
model's choice that QUERY_DRAIN shows no service state for a member whose group has been deleted, notes/assumptions/29.md,
that an expiry that has been reached and not been taken shows as a time below 0, notes/assumptions/16.md, and that a gap is
shown with its destination, notes/assumptions/41.md.) -/
def Obligations.QueriesOfRoutingAndCalls : Prop :=
  ∀ (r : Sender) (n : Nat) (call : CallRef) (s u : State),
    (Takes (.queryDrain r) s u →
      Answers (.queryDrain r) s .ok
        (.drain
          { state := u.service.batch.state
            members :=
              u.service.batch.members.map
                (fun m =>
                  ⟨m.group, m.result,
                    if (u.group m.group).isSome = true then some (u.svc m.group).service else none⟩)
            contributors := u.service.batch.contributors
            deadline := u.service.batch.deadline
            deadlinePassed := u.service.batch.deadlinePassed
            untilWindow := u.service.batch.windowExpiry.map (fun x => (x : Int) - (u.now : Int))
            untilDeadline := u.service.batch.deadlineExpiry.map (fun x => (x : Int) - (u.now : Int))
            remaining := u.service.batch.remaining })
        u) ∧
    (Takes (.queryGap r (.one n)) s u →
      (2047 < n → Refuses (.queryGap r (.one n)) s .outOfRange u) ∧
      (n ≤ 2047 →
        Answers (.queryGap r (.one n)) s .ok
          (.gap
            ((u.gap n).map
              (fun g =>
                ⟨n, g.interval, g.life, g.lifeExpiry.map (fun x => (x : Int) - (u.now : Int)), g.nextAdmit - u.now,
                  g.refused⟩)))
          u)) ∧
    (Takes (.queryGap r .all) s u →
      Answers (.queryGap r .all) s .ok
        (.gaps u.analyser.gaps.size
          (u.analyser.gaps.entries.filterMap
            (fun e =>
              e.2.map
                (fun g =>
                  ⟨e.1, g.interval, g.life, g.lifeExpiry.map (fun x => (x : Int) - (u.now : Int)), g.nextAdmit - u.now,
                    g.refused⟩))))
        u) ∧
    (Takes (.queryPlan r n) s u →
      (1023 < n → Refuses (.queryPlan r n) s .outOfRange u) ∧
      (n ≤ 1023 →
        Answers (.queryPlan r n) s .ok
          (.plan ((u.plan n).map (fun st => ⟨st, (u.group st.group).isSome⟩)) (u.service.exhausted.get n)) u)) ∧
    (∀ x y, (x = none ∧ y = none) ∨ (x.isSome = true ∧ y.isSome = true) → Takes (.queryRouteMemory r x y) s u →
      Refuses (.queryRouteMemory r x y) s .badRequest u) ∧
    (Takes (.queryRouteMemory r (some n) none) s u →
      (2047 < n → Refuses (.queryRouteMemory r (some n) none) s .outOfRange u) ∧
      (n ≤ 2047 →
        Answers (.queryRouteMemory r (some n) none) s .ok
          (.memoryEntry (n % 256) (n / 256)
            ((entryOf u n).map
              (fun x =>
                ⟨x.1, x.2.plan, x.2.member, ((u.plan x.2.plan)[x.2.member]?).map (·.group), x.2.confidence⟩)))
          u)) ∧
    (Takes (.queryRouteMemory r none (some n)) s u →
      (255 < n → Refuses (.queryRouteMemory r none (some n)) s .outOfRange u) ∧
      (n ≤ 255 →
        Answers (.queryRouteMemory r none (some n)) s .ok
          (.memorySet (u.memorySet n).pointer
            ((u.memorySet n).ways.map
              (fun w => w.map (fun e => ⟨e.tag * 256 + n, e.plan, e.member, e.confidence⟩))))
          u)) ∧
    (Takes (.queryCall r call) s u →
      (8191 < call.slot → Refuses (.queryCall r call) s .outOfRange u) ∧
      (call.slot ≤ 8191 → u.call call = none → Refuses (.queryCall r call) s .noCall u) ∧
      ∀ c, call.slot ≤ 8191 → u.call call = some c →
        Answers (.queryCall r call) s .ok
          (.call
            { ref := call
              call := c
              remainingOrphan := c.orphanDeadline.map (fun x => (x : Int) - (u.now : Int))
              sinceAnswer := c.answer.map (fun a => u.now - a.monotonic) })
          u)

/-! ## The call table (chapter 6) -/

/-- R107, R108 step 5, R15, R17: the checks of OFFER up to the inbound seizure, in their order: the first that fails gives
the status and nothing changes, whether the OFFER is taken whole or up to the end of its walk (notes/assumptions/11.md). -/
def Obligations.OfferChecks : Prop :=
  ∀ (r : Sender) (c : Nat) (ds : List Nat) (cls : Arg CallClass) (part : OfferPart) (s u : State) (st : Status),
    PlantSound s → part ≠ .keep → Takes (.offer ⟨r, part⟩ c ds cls) s u →
    FirstOf
      [(¬(1 ≤ ds.length ∧ ds.length ≤ 24 ∧ ∀ x ∈ ds, x ≤ 9), .badRequest), (cls.value? = none, .badRequest),
        (16383 < c, .outOfRange),
        (∀ k, k < 8192 → (u.slot k).call.isSome = true ∨ ∃ o ∈ u.calls.offers, o.ref.slot = k, .callTableFull),
        (u.circuit c = none, .groupUnavailable),
        (∃ e g, u.circuit c = some e ∧ u.group e.group = some g ∧ g.direction = .outOnly, .wrongDirection),
        (∃ e, u.circuit c = some e ∧
          ((u.svc e.group).service = .draining ∨ (u.svc e.group).service = .outOfService), .groupUnavailable),
        (∃ e, u.circuit c = some e ∧ (e.localFlag || e.remoteFlag) = true, .circuitBlocked),
        (∃ e d, u.circuit c = some e ∧ e.occupancy = .busyIn d, .circuitBusy),
        (∃ e d x, u.circuit c = some e ∧ e.occupancy = .busyOut d ∧ u.call d = some x ∧
          (x.state = .proceeding ∨ x.state = .answered), .circuitBusy),
        (∃ e g d, u.circuit c = some e ∧ u.group e.group = some g ∧ e.occupancy = .busyOut d ∧
          (g.glare = .winAll ∨ (g.glare = .winEven ∧ c % 2 = 0) ∨ (g.glare = .winOdd ∧ c % 2 = 1)), .glare)] st →
    Refuses (.offer ⟨r, part⟩ c ds cls) s st u

/-- R16, R18, R107 to R110: an OFFER whose inbound seizure is accepted, or is yielded at glare, is refused by the analysis,
the gap check, the carrier hold or the walk, with the seizure undone (R19), or is accepted with the record of R110 in the
lowest FREE slot. Taken up to the end of its walk it stays in progress with that slot held; its end then keeps the record,
and by R110, R118 and R120 the call goes to the partner of a lost port, ends PORT_LOST, loses a leg that was yielded, or ends
DRAINED (the split into commands is the model's choice, notes/assumptions/11.md). -/
def Obligations.OfferRoutes : Prop :=
  (∀ (r : Sender) (c k : Nat) (ds : List Nat) (cls : CallClass) (part : OfferPart) (s u w : State) (e : Equipped)
    (g : Group) (f : Former) (call : CallRef), PlantSound s → part ≠ .keep →
    Takes (.offer ⟨r, part⟩ c ds (.given cls)) s u →
    1 ≤ ds.length → ds.length ≤ 24 → (∀ x ∈ ds, x ≤ 9) → k < 8192 → (u.slot k).call = none →
    (∀ o ∈ u.calls.offers, o.ref.slot ≠ k) →
    (∀ j, j < k → (u.slot j).call.isSome = true ∨ ∃ o ∈ u.calls.offers, o.ref.slot = j) →
    call = ⟨k, (u.slot k).generation⟩ → u.circuit c = some e →
    u.group e.group = some g → g.direction ≠ .outOnly →
    ((u.svc e.group).service = .inService ∨ (u.svc e.group).service = .drainSuspended) → e.localFlag = false →
    e.remoteFlag = false →
    (e.occupancy = .idle ∧ f = .wasIdle ∧ w = occupyIn c call u ∨
      (∃ x, e.occupancy = .guard x ∧ f = .wasGuard x ∧ w = occupyIn c call u) ∨
      ∃ d, e.occupancy = .busyOut d ∧ f = .yielded ∧ w = displace d (occupyIn c call u) ∧
        (∀ x, u.call d = some x → x.state ≠ .proceeding ∧ x.state ≠ .answered) ∧
        (g.glare = .yieldAll ∨ (g.glare = .winEven ∧ c % 2 = 1) ∨ (g.glare = .winOdd ∧ c % 2 = 0))) →
    (∀ st, findTarget u ds = .error st → Refuses (.offer ⟨r, part⟩ c ds (.given cls)) s st (undoInbound c f w)) ∧
    ∀ t w1 z, findTarget u ds = .ok t → w1 = afterGapCheck t.destination cls w →
      z = walk
            { ref := call, cls := cls, inGroup := e.group, destination := t.destination, plan := t.plan, start := 0,
              poolTried := false, memoryFlag := false }
            (u.plan t.plan) w1 →
      (gapAdmits u t.destination cls = false →
        Refuses (.offer ⟨r, part⟩ c ds (.given cls)) s .gapped (undoInbound c f w1)) ∧
      (gapAdmits u t.destination cls = true → cls = .normal → (u.carrier g.carrier).hold = true →
        Refuses (.offer ⟨r, part⟩ c ds (.given cls)) s .carrierHold (undoInbound c f w1)) ∧
      (gapAdmits u t.destination cls = true → (cls = .normal → (u.carrier g.carrier).hold = false) →
        (z.leg = none →
          Refuses (.offer ⟨r, part⟩ c ds (.given cls)) s (if u.plan t.plan = [] then .noRoute else .allRoutesBusy)
            (undoInbound c f z.state)) ∧
        ∀ n record, z.leg = some n →
          record =
            { state := .routed
              owner := some r.port
              inCircuit := c
              inGroup := e.group
              inCarrier := g.carrier
              leg :=
                some
                  { circuit := n.circuit
                    group := n.group
                    carrier := n.carrier
                    alternatePremium := decide (n.stepKind ≠ .primary)
                    congestionPremium := decide (n.congestion = .reserved) }
              destination := t.destination
              plan := t.plan
              cls := cls
              stepIndex := n.stepIndex
              stepKind := n.stepKind
              tariffClass := n.tariffClass
              poolTried := z.poolTried
              memoryFlag := z.memoryFlag
              reattempts := 0
              reselectionPending := false
              answer := none
              former := none
              orphanDeadline := none
              lastCause := none } →
          (part = .whole →
            Answers (.offer ⟨r, part⟩ c ds (.given cls)) s .ok (.offered call n.circuit n.group)
              (z.state.setCall k record)) ∧
          (part = .walk →
            ∃ v, exec (.offer ⟨r, part⟩ c ds (.given cls)) s = .next v ∧
              v =
                { z.state with
                  calls :=
                    { z.state.calls with
                      offers :=
                        z.state.calls.offers ++
                          [⟨r, c, ds, .given cls, call, record, false, false, false, none⟩] }
                  ports := v.ports } ∧
              (∀ p, v.port p =
                if p = r.port then
                  { z.state.port p with
                    inProgress := some ⟨r.tag, 96, .command (.offer ⟨r, .whole⟩ c ds (.given cls))⟩ }
                else z.state.port p)))) ∧
  ∀ (r : Sender) (c : Nat) (ds : List Nat) (cls : Arg CallClass) (s : State), CallsSound s →
    ((∀ o ∈ s.calls.offers, ¬(o.sender = r ∧ o.circuit = c ∧ o.digits = ds ∧ o.cls = cls)) →
      exec (.offer ⟨r, .keep⟩ c ds cls) s = .next s) ∧
    ∀ o w res,
      s.calls.offers.find? (fun x => decide (x.sender = r ∧ x.circuit = c ∧ x.digits = ds ∧ x.cls = cls)) = some o →
      w =
        (if o.displaced = true then
          displace o.ref
            ({ s with calls := { s.calls with offers := s.calls.offers.erase o } }.setCall o.ref.slot o.record)
         else { s with calls := { s.calls with offers := s.calls.offers.erase o } }.setCall o.ref.slot o.record) →
      res =
        (match o.record.leg with
         | some l => .offered o.ref l.circuit l.group
         | none => .nothing) →
      ∃ v,
        exec (.offer ⟨r, .keep⟩ c ds cls) s =
            .next
              (if o.discarded = true then v
               else
                (compose r.port ⟨96, r.tag, .ok, res⟩ v).setPort r.port
                  { (compose r.port ⟨96, r.tag, .ok, res⟩ v).port r.port with inProgress := none }) ∧
          ((s.port r.port).state ≠ .down ∨ (∃ l ∈ s.calls.losses, l.port = r.port) →
            (o.noted = false → v = w) ∧
            (o.noted = true →
              v = notify r.port (.callCleared o.ref .drained .released) (endCall o.ref .drained s.now true w))) ∧
          ((s.port r.port).state = .down → (∀ l ∈ s.calls.losses, l.port ≠ r.port) →
            (∀ q x, o.loss = some (some q) → (s.port q).state = .up →
              x = notify q (.takeover r.port 1) (w.changeCall o.ref.slot (fun y => { y with owner := some q })) →
              (o.noted = false → v = x) ∧
              (o.noted = true →
                v = notify q (.callCleared o.ref .drained .released) (endCall o.ref .drained s.now true x))) ∧
            ((∀ q, o.loss = some (some q) → (s.port q).state ≠ .up) →
              v = endCall o.ref .portLost s.now false w))

/-- R16, R18, R19, R118: an accepted inbound seizure makes the circuit BUSY_IN with the call's reference; a displaced call
keeps its record but for its leg, with the pending mark set and a reselection queued, and one whose OFFER is in progress is
marked for its end; an undo puts the circuit where R19's table says. No other circuit changes, and the counts follow. -/
def Obligations.InboundSeizureAndUndo : Prop :=
  ∀ (s : State) (c : Nat) (call : CallRef) (e : Equipped) (g : Group) (f : Former), PlantSound s →
    s.circuit c = some e → s.group e.group = some g →
    ((occupyIn c call s).circuit c = some { e with occupancy := .busyIn call } ∧
      (∀ i, i ≠ c → (occupyIn c call s).circuit i = s.circuit i) ∧ PlantSound (occupyIn c call s) ∧
      SameElsewhere s (occupyIn c call s) ∧ (occupyIn c call s).calls = s.calls) ∧
    (∀ d x, s.call d = some x →
      displace d s =
        { s.setCall d.slot { x with leg := none, reselectionPending := true } with
          calls :=
            { (s.setCall d.slot { x with leg := none, reselectionPending := true }).calls with
              reselections := s.calls.reselections ++ [d] } }) ∧
    (∀ d, s.call d = none →
      displace d s =
        { s with
          calls :=
            { s.calls with
              offers := s.calls.offers.map (fun o => if o.ref = d then { o with displaced := true } else o) } }) ∧
    (undoInbound c f s).circuit c =
      some
        { e with
          occupancy :=
            if (e.localFlag || e.remoteFlag) = true then .idle
            else
              match f with
              | .wasIdle => .idle
              | .wasGuard x => if s.now < x then .guard x else .idle
              | .yielded => if g.guardTime = 0 then .idle else .guard (s.now + g.guardTime) } ∧
    (∀ i, i ≠ c → (undoInbound c f s).circuit i = s.circuit i) ∧ PlantSound (undoInbound c f s) ∧
    SameElsewhere s (undoInbound c f s) ∧ (undoInbound c f s).calls = s.calls

/-- R106, R111, R112: ACCEPTED and ANSWER: their checks in order; ACCEPTED makes a ROUTED call PROCEEDING; ANSWER stores the
clocks and the live generation, raises the live reference count by 1, makes the call ANSWERED, and hands a success outcome
for a POOL step with the route-memory flag set. -/
def Obligations.AcceptedAndAnswer : Prop :=
  ∀ (r : Sender) (call : CallRef) (s u : State),
    (Takes (.accepted r call) s u →
      (∀ st,
        FirstOf
          [(8191 < call.slot, .outOfRange), (u.call call = none, .noCall),
            (∃ c, u.call call = some c ∧ c.owner ≠ some r.port, .notOwner),
            (∃ c, u.call call = some c ∧ ¬(c.state = .routed ∧ c.reselectionPending = false), .wrongState)] st →
        Refuses (.accepted r call) s st u) ∧
      ∀ c, call.slot ≤ 8191 → u.call call = some c → c.owner = some r.port → c.state = .routed →
        c.reselectionPending = false →
        Answers (.accepted r call) s .ok .nothing (u.setCall call.slot { c with state := .proceeding })) ∧
    (Takes (.answer r call) s u →
      (∀ st,
        FirstOf
          [(8191 < call.slot, .outOfRange), (u.call call = none, .noCall),
            (∃ c, u.call call = some c ∧ c.owner ≠ some r.port, .notOwner),
            (∃ c, u.call call = some c ∧
              ¬((c.state = .routed ∧ c.reselectionPending = false) ∨ c.state = .proceeding), .wrongState)] st →
        Refuses (.answer r call) s st u) ∧
      ∀ c w, call.slot ≤ 8191 → u.call call = some c → c.owner = some r.port →
        (c.state = .routed ∧ c.reselectionPending = false) ∨ c.state = .proceeding →
        w =
          { u.setCall call.slot
              { c with state := .answered, answer := some ⟨u.now, u.tariff.weekTime, u.tariff.live.number⟩ } with
            tariff :=
              { u.tariff with live := { u.tariff.live with references := u.tariff.live.references + 1 } } } →
        Answers (.answer r call) s .ok (.answered u.now u.tariff.live.number)
          (if c.stepKind = .pool ∧ c.memoryFlag = true then successOutcome c.destination c.plan c.stepIndex w else w))

/-- R82, R83, R84, R113, R114: REATTEMPT: its checks in order; then the far-end report, the failure outcome, the release of
the outbound leg with the cause recorded, and the reselection: the count goes up by 1, above the limit the call goes UNROUTED
without a walk, and else it takes the walk's leg or goes UNROUTED with the cause that started it. -/
def Obligations.ReattemptReselects : Prop :=
  (∀ (r : Sender) (call : CallRef) (cause : Arg Cause) (level : Option Nat) (s u : State),
    Takes (.reattempt r call cause level) s u →
    (∀ st,
      FirstOf
        [(8191 < call.slot, .outOfRange), (u.call call = none, .noCall),
          (∃ c, u.call call = some c ∧ c.owner ≠ some r.port, .notOwner),
          (∀ k, cause = .given k → k ≠ .normal ∧ k ≠ .farRefused ∧ k ≠ .farCongested ∧ k ≠ .circuitFault, .badRequest),
          (∃ c, u.call call = some c ∧
            ¬((c.state = .routed ∧ c.reselectionPending = false) ∨ c.state = .proceeding), .wrongState)] st →
      Refuses (.reattempt r call cause level) s st u) ∧
    ∀ c l k w1 w2 v, call.slot ≤ 8191 → u.call call = some c → c.owner = some r.port → c.leg = some l →
      cause = .given k → (k = .normal ∨ k = .farRefused ∨ k = .farCongested ∨ k = .circuitFault) →
      (c.state = .routed ∧ c.reselectionPending = false) ∨ c.state = .proceeding →
      w1 = (match level with | some n => farReport l.group (min n 3) u | none => u) →
      w2 =
        (if c.stepKind = .pool ∧ c.memoryFlag = true then failureOutcome c.destination c.plan c.stepIndex w1 else w1) →
      v =
        reselect call k
          ((releaseLeg l.circuit call (decide (k = .circuitFault)) w2).setCall call.slot
            { c with leg := none, lastCause := some k }) →
      ∃ x, v.call call = some x ∧
        Answers (.reattempt r call cause level) s (if ∃ n, level = some n ∧ 3 < n then .adjusted else .ok)
          (match x.leg with
            | some m => .rerouted m.circuit m.group x.stepIndex x.reattempts
            | none => .unrouted x.lastCause x.reattempts)
          v) ∧
  ∀ (s : State) (call : CallRef) (k : Cause) (c : Call) (z : Walked), s.call call = some c →
    z =
      walk
        { ref := call, cls := c.cls, inGroup := c.inGroup, destination := c.destination, plan := c.plan,
          start := c.stepIndex + 1, poolTried := c.poolTried, memoryFlag := c.memoryFlag }
        (s.plan c.plan) (s.setCall call.slot { c with reattempts := c.reattempts + 1 }) →
    (s.routes.reattemptLimit < c.reattempts + 1 →
      reselect call k s =
        s.setCall call.slot
          { c with
            reattempts := c.reattempts + 1, state := .unrouted, leg := none, lastCause := some .reattemptsExhausted }) ∧
    (c.reattempts + 1 ≤ s.routes.reattemptLimit → z.leg = none →
      reselect call k s =
        z.state.setCall call.slot
          { c with
            reattempts := c.reattempts + 1, state := .unrouted, leg := none, lastCause := some k,
            poolTried := z.poolTried, memoryFlag := z.memoryFlag }) ∧
    (c.reattempts + 1 ≤ s.routes.reattemptLimit → ∀ n, z.leg = some n →
      reselect call k s =
        z.state.setCall call.slot
          { c with
            reattempts := c.reattempts + 1
            state := .routed
            leg :=
              some
                { circuit := n.circuit
                  group := n.group
                  carrier := n.carrier
                  alternatePremium := decide (n.stepKind ≠ .primary)
                  congestionPremium := decide (n.congestion = .reserved) }
            stepIndex := n.stepIndex
            stepKind := n.stepKind
            tariffClass := n.tariffClass
            poolTried := z.poolTried
            memoryFlag := z.memoryFlag })

/-- R115, R116: RELEASE: its checks in order, and the end of a call: the slot is FREE with its generation one up, the call is
off the orphan list and its reselection off the queue (notes/assumptions/31.md), its legs are released (R20), and an ANSWERED
call is priced under its bound generation, whose count goes down by 1; a call in another state is not priced. -/
def Obligations.ReleaseEndsCall : Prop :=
  (∀ (r : Sender) (call : CallRef) (cause : Arg Cause) (s u : State), Takes (.release r call cause) s u →
    (∀ st,
      FirstOf
        [(8191 < call.slot, .outOfRange), (u.call call = none, .noCall),
          (∀ k, cause = .given k → k ≠ .normal ∧ k ≠ .farRefused ∧ k ≠ .farCongested ∧ k ≠ .circuitFault, .badRequest),
          (∃ c q, u.call call = some c ∧ c.owner = some q ∧ q ≠ r.port, .notOwner)] st →
      Refuses (.release r call cause) s st u) ∧
    ∀ c k, call.slot ≤ 8191 → u.call call = some c → cause = .given k →
      (k = .normal ∨ k = .farRefused ∨ k = .farCongested ∨ k = .circuitFault) →
      (c.owner = some r.port ∨ c.owner = none) →
      Answers (.release r call cause) s .ok
        (.released c.state (if c.state = .answered then some u.now else none)) (endCall call k u.now false u)) ∧
  ∀ (s v : State) (call : CallRef) (c : Call) (k : Cause) (time : Nat) (forced : Bool), PlantSound s →
    s.call call = some c → v = endCall call k time forced s →
    v.slot call.slot = ⟨(call.generation + 1) % 256, none⟩ ∧ (∀ j, j ≠ call.slot → v.slot j = s.slot j) ∧
    v.calls =
      { s.calls with
        slots := v.calls.slots
        orphans := s.calls.orphans.filter (fun j => decide (j ≠ call.slot))
        reselections := s.calls.reselections.filter (fun x => decide (x ≠ call)) } ∧
    (∀ i e g, s.circuit i = some e → s.group e.group = some g →
      (i = c.inCircuit ∨ ∃ l, c.leg = some l ∧ i = l.circuit) →
      (e.occupancy = .busyIn call ∨ e.occupancy = .busyOut call) →
      v.circuit i =
        some
          { e with
            occupancy :=
              if (e.localFlag || e.remoteFlag) = true ∨ g.guardTime = 0 then .idle
              else .guard (s.now + g.guardTime) }) ∧
    (∀ i, i ≠ c.inCircuit → (∀ l, c.leg = some l → i ≠ l.circuit) → v.circuit i = s.circuit i) ∧ PlantSound v ∧
    v.analyser = s.analyser ∧ v.routes = s.routes ∧
    (c.state ≠ .answered → v.settlement = s.settlement ∧ v.tariff = s.tariff ∧ v.memory = s.memory) ∧
    ∀ a l t, c.state = .answered → c.answer = some a → c.leg = some l → tariffsOf s a.generation = some t →
      v.settlement =
        { s.settlement with
          handed :=
            s.settlement.handed ++
              (if c.inCarrier = 0 ∧ l.carrier = 0 then []
               else
                [price t
                  { call := call
                    inCarrier := c.inCarrier
                    outCarrier := l.carrier
                    inGroup := c.inGroup
                    outGroup := l.group
                    generation := a.generation
                    tariffClass := c.tariffClass
                    stepKind := c.stepKind
                    answered := a.monotonic
                    answerWeekTime := a.weekTime
                    released := time
                    altPremium := l.alternatePremium
                    congPremium := l.congestionPremium
                    cause := k
                    forced := forced }]) } ∧
      (s.tariff.live.number = a.generation →
        v.tariff =
          { s.tariff with live := { s.tariff.live with references := s.tariff.live.references - 1 } } ∧
        v.memory = s.memory) ∧
      ∀ b, s.tariff.live.number ≠ a.generation → s.tariff.retired = some b → b.number = a.generation →
        (b.references ≠ 1 ∨ s.tariff.staging.state ≠ .held) → b.references ≠ 0 →
        v.tariff = { s.tariff with retired := some { b with references := b.references - 1 } } ∧ v.memory = s.memory

/-- R122 to R125: the orphan list is in the order of the deadlines, equal ones as they joined. ADOPT gives the requester
every orphan of the former owner it names; SET_ORPHAN_LIMIT stores the limit and draws deadlines in, never out, and the
orphans that this makes due are ended in the order of the list, each priced at its new deadline, FORCED; ORPHAN_EXPIRY ends
the first orphan of the list when its deadline has been reached, priced at the deadline, FORCED. (That it changes nothing
with no deadline reached is the model's choice, notes/assumptions/8.md.) -/
def Obligations.OrphanRequests : Prop :=
  (∀ (r : Sender) (former : Arg Port) (s u : State), CallsSound s → Takes (.adopt r former) s u →
    (former = .absent → Refuses (.adopt r former) s .badRequest u) ∧
    (former = .undefined → Refuses (.adopt r former) s .outOfRange u) ∧
    ∀ q, former = .given q →
      ∃ v ks, Answers (.adopt r former) s .ok (.adopted (ks.map (fun k => ⟨k, (u.slot k).generation⟩))) v ∧
        rising ks = true ∧
        (∀ k, k ∈ ks ↔ k ∈ u.calls.orphans ∧ ∃ c x, (u.slot k).call = some c ∧ c.former = some x ∧ x.port = q) ∧
        v.calls.orphans = u.calls.orphans.filter (fun k => decide (k ∉ ks)) ∧
        (∀ k, v.slot k =
          if k ∈ ks then
            ⟨(u.slot k).generation,
              (u.slot k).call.map (fun c => { c with owner := some r.port, orphanDeadline := none })⟩
          else u.slot k) ∧
        v = { u with calls := { u.calls with slots := v.calls.slots, orphans := v.calls.orphans } }) ∧
  (∀ (r : Sender) (limit : Option Nat) (s u : State), CallsSound s → Takes (.setOrphanLimit r limit) s u →
    (limit = none → Refuses (.setOrphanLimit r limit) s .badRequest u) ∧
    ∀ n, limit = some n →
      ∃ (v : State) (ks : List Nat),
        Answers (.setOrphanLimit r limit) s (if 3600 < n then .adjusted else .ok)
          (.orphanLimit u.calls.orphanLimit (min n 3600) (u.calls.orphans.countP (drawnIn u (min n 3600))) ks.length)
          v ∧
        ks.Nodup ∧ v.calls.orphanLimit = min n 3600 ∧
        (∃ w : State,
          w = { u with calls := { u.calls with slots := w.calls.slots, orphanLimit := min n 3600 } } ∧
          (∀ k, k ∉ u.calls.orphans → w.slot k = u.slot k) ∧
          (∀ k c d x, k ∈ u.calls.orphans → (u.slot k).call = some c → c.orphanDeadline = some d → c.former = some x →
            w.slot k =
              ⟨(u.slot k).generation,
                some { c with orphanDeadline := some (min d (x.lossTime + min n 3600 * 1000)) }⟩) ∧
          ks.Sublist (orphanList w) ∧
          v =
            ks.foldl
              (fun y k => endCall ⟨k, (u.slot k).generation⟩ .orphanExpired (deadlineOf w k) true y) w) ∧
        (∀ k, k ∈ ks ↔
          k ∈ u.calls.orphans ∧ ∃ c d x, (u.slot k).call = some c ∧ c.orphanDeadline = some d ∧ c.former = some x ∧
            x.lossTime + min n 3600 * 1000 < d ∧ x.lossTime + min n 3600 * 1000 ≤ u.now) ∧
        (∀ k, k ∈ ks → v.slot k = ⟨((u.slot k).generation + 1) % 256, none⟩) ∧
        (∀ k c d x, k ∈ u.calls.orphans → k ∉ ks → (u.slot k).call = some c → c.orphanDeadline = some d →
          c.former = some x →
          v.slot k =
            ⟨(u.slot k).generation,
              some { c with orphanDeadline := some (min d (x.lossTime + min n 3600 * 1000)) }⟩) ∧
        ∀ k, k ∉ u.calls.orphans → v.slot k = u.slot k) ∧
  ∀ (s : State),
    ((∀ k c d, (s.slot k).call = some c → c.orphanDeadline = some d → deadlineOf s k = d) ∧
      (orphanList s).Perm s.calls.orphans ∧
      (orphanList s).Pairwise (fun i j => deadlineOf s i ≤ deadlineOf s j) ∧
      ∀ d, (orphanList s).filter (fun k => decide (deadlineOf s k = d)) =
        s.calls.orphans.filter (fun k => decide (deadlineOf s k = d))) ∧
    (∀ k rest, orphanList s = k :: rest → deadlineOf s k ≤ s.now →
      exec .orphanExpiry s =
        .next (endCall ⟨k, (s.slot k).generation⟩ .orphanExpired (deadlineOf s k) true s)) ∧
    ((∀ k rest, orphanList s = k :: rest → s.now < deadlineOf s k) → exec .orphanExpiry s = .next s)

/-- R26, R127: CLEAR_TRAFFIC frees every slot in use with its generation one up, empties the orphan list, makes every circuit
IDLE with its flags kept and its group's counts rebuilt, and hands on exactly the price of each ANSWERED call whose carriers
are not both 0, in ascending slot order, FORCED and with cause TRAFFIC_CLEARED; it answers how many calls ended, were priced
and were orphans. Every count of bound calls comes to 0, which lets a held activation take place (R144); every group derives
its congestion state, and a DRAINING batch completes (R37). (That a queued reselection leaves the queue with its call
is DEDUCED: notes/assumptions/31.md.) -/
def Obligations.ClearTrafficEndsEveryCall : Prop :=
  ∀ (r : Sender) (s u : State), PlantSound s → CallsSound s → LegsSound s → LevelsSound s → TariffSound s →
    ReferencesSound s → BatchSound s → Takes (.clearTraffic r) s u →
    ∃ v,
      Answers (.clearTraffic r) s .ok
        (.cleared u.slotsInUse.length
          (u.slotsInUse.countP
            (fun k => (u.slot k).call.any (fun c => decide (c.state = .answered))))
          u.calls.orphans.length) v ∧
      (∀ k, v.slot k =
        if (u.slot k).call.isSome = true then ⟨((u.slot k).generation + 1) % 256, none⟩ else u.slot k) ∧
      v.calls = { u.calls with slots := v.calls.slots, orphans := [], reselections := [] } ∧
      (∀ c, v.circuit c = (u.circuit c).map (fun e => { e with occupancy := .idle })) ∧ PlantSound v ∧
      (∀ n, u.group n = none → v.group n = none ∧ v.svc n = u.svc n) ∧
      (∀ n g, u.group n = some g →
        ∃ i a b,
          v.group n =
              some { g with idleSet := i, available := a, blockedIdle := b, busyIn := 0, busyOut := 0, inGuard := 0 } ∧
            v.svc n =
              { u.svc n with
                congestion := nextCongestion (u.svc n).congestion a g.threshold g.hysteresis
                service :=
                  if u.service.batch.state = .draining ∧ ⟨n, .pending⟩ ∈ u.service.batch.members then .outOfService
                  else (u.svc n).service }) ∧
      v.plant.locked = u.plant.locked ∧
      v.service =
        { u.service with
          groups := v.service.groups
          exhausted := v.service.exhausted
          batch := if u.service.batch.state = .draining then .empty else u.service.batch } ∧
      v.settlement =
        { u.settlement with handed := u.settlement.handed ++ (List.range 8192).filterMap (clearedPrice u) } ∧
      ((u.tariff.staging.state ≠ .held ∨ ∀ b, u.tariff.retired = some b → b.references = 0) →
        v.tariff =
            { u.tariff with
              live := { u.tariff.live with references := 0 }
              retired := u.tariff.retired.map (fun b => { b with references := 0 }) } ∧
          v.memory = u.memory) ∧
      (∀ b g, u.tariff.staging.state = .held → u.tariff.retired = some b → b.references ≠ 0 →
        u.tariff.staging.generation = some g →
        v.tariff =
            { u.tariff with
              retired := some { u.tariff.live with references := 0 }
              live := ⟨g.number, 0, g.tariffs⟩
              staging := ⟨.none, none, none, none, none⟩ } ∧
          (MemorySound s → ∀ (k i : Nat) (e : MemoryEntry), (v.memorySet k).ways[i]? ≠ some (some e))) ∧
      v.analyser = u.analyser ∧ v.routes = u.routes ∧ SamePorts u v

/-- R118 to R122: the events that the call table takes: a queued reselection (GLARE_RESELECTION); a list of groups
(DRAIN_RELEASE_LIST), whose calls are ended in slot order with cause DRAINED, FORCED, their owners told by CALL_CLEARED, and
with which the OFFERs in progress on its inbound groups are noted; and the loss of a port (CALL_TABLE_PORT_LOSS): a partner
that is UP takes its calls over; else its ANSWERED calls become orphans, or end ORPHAN_EXPIRED, FORCED, when the orphan
limit is 0, and its other calls end PORT_LOST, in slot order. (An item that was not handed over changes nothing by the
model's choice: notes/assumptions/8.md.) -/
def Obligations.CallTableEvents : Prop :=
  (∀ (s w : State) (call : CallRef),
    w = { s with calls := { s.calls with reselections := s.calls.reselections.erase call } } →
    (call ∉ s.calls.reselections → exec (.glareReselection call) s = .next s) ∧
    (call ∈ s.calls.reselections → s.call call = none → exec (.glareReselection call) s = .next w) ∧
    ∀ c z x, call ∈ s.calls.reselections → s.call call = some c →
      z =
        reselect call .glareYield
          (w.setCall call.slot { c with reselectionPending := false, lastCause := some .glareYield }) →
      z.call call = some x →
      (x.owner = none → exec (.glareReselection call) s = .next z) ∧
      ∀ p, x.owner = some p →
        (∀ l, x.leg = some l →
          exec (.glareReselection call) s =
            .next (notify p (.routeChanged call l.circuit l.group x.stepIndex x.reattempts) z)) ∧
        ∀ k, x.leg = none → x.lastCause = some k →
          exec (.glareReselection call) s = .next (notify p (.callCleared call k .unrouted) z)) ∧
  (∀ (s : State) (gs : List Nat) (rest : List (List Nat)), CallsSound s →
    (s.calls.releaseLists = [] → exec .drainReleaseList s = .next s) ∧
    (s.calls.releaseLists = gs :: rest →
      ∃ v, exec .drainReleaseList s = .next v ∧ v.calls.releaseLists = rest ∧
        (∀ ks : List Nat,
          ks =
            (List.range 8192).filter
              (fun k =>
                (s.slot k).call.any
                  (fun c => decide (c.inGroup ∈ gs) || c.leg.any (fun l => decide (l.group ∈ gs)))) →
          v =
            ks.foldl
              (fun w k =>
                match (s.slot k).call.bind (fun c => c.owner) with
                | some p =>
                  notify p (.callCleared ⟨k, (s.slot k).generation⟩ .drained .released)
                    (endCall ⟨k, (s.slot k).generation⟩ .drained s.now true w)
                | none => endCall ⟨k, (s.slot k).generation⟩ .drained s.now true w)
              { s with
                calls :=
                  { s.calls with
                    releaseLists := rest
                    offers :=
                      s.calls.offers.map
                        (fun o => if o.record.inGroup ∈ gs then { o with noted := true } else o) } }) ∧
        ∀ k,
          ((∃ c, (s.slot k).call = some c ∧ (c.inGroup ∈ gs ∨ ∃ l, c.leg = some l ∧ l.group ∈ gs)) →
            v.slot k = ⟨((s.slot k).generation + 1) % 256, none⟩) ∧
          ((∀ c, (s.slot k).call = some c → c.inGroup ∉ gs ∧ ∀ l, c.leg = some l → l.group ∉ gs) →
            v.slot k = s.slot k))) ∧
  ∀ (s : State) (p : Port), CallsSound s →
    ((∀ l ∈ s.calls.losses, l.port ≠ p) → exec (.callTablePortLoss p) s = .next s) ∧
    ∀ l, s.calls.losses.find? (fun x => decide (x.port = p)) = some l →
      ∃ (v w : State) (ks : List Nat) (a b c : Nat),
        exec (.callTablePortLoss p) s = .next v ∧
        v = (match l.detachTag with
              | some tag => compose p ⟨145, tag, .ok, .detachDone a b c⟩ w
              | none => w) ∧
        w.calls.losses = s.calls.losses.erase l ∧ rising ks = true ∧
        w.calls.offers =
          s.calls.offers.map (fun o => if o.sender.port = p then { o with loss := some l.partner } else o) ∧
        (∀ k, k ∈ ks ↔ ∃ x, (s.slot k).call = some x ∧ x.owner = some p) ∧
        (∀ k, k ∉ ks → w.slot k = s.slot k) ∧
        (∀ q, l.partner = some q → (s.port q).state = .up →
          a = ks.length ∧ b = 0 ∧ c = 0 ∧ w.calls.orphans = s.calls.orphans ∧
          (∀ k ∈ ks, ∀ x, (s.slot k).call = some x →
            w.slot k = ⟨(s.slot k).generation, some { x with owner := some q }⟩) ∧
          w = notify q (.takeover p ks.length) { s with calls := w.calls }) ∧
        ((∀ q, l.partner = some q → (s.port q).state ≠ .up) →
          a = 0 ∧ b + c = ks.length ∧
          w =
            ks.foldl
              (fun y k =>
                if (s.slot k).call.any (fun x => decide (x.state = .answered)) = true then
                  if s.calls.orphanLimit = 0 then endCall ⟨k, (s.slot k).generation⟩ .orphanExpired s.now true y
                  else orphan p k y
                else endCall ⟨k, (s.slot k).generation⟩ .portLost s.now false y)
              { s with
                calls := { s.calls with losses := s.calls.losses.erase l, offers := w.calls.offers } } ∧
          (∀ k ∈ ks, ∀ x, (s.slot k).call = some x →
            w.slot k =
              if x.state = .answered ∧ s.calls.orphanLimit ≠ 0 then
                ⟨(s.slot k).generation,
                  some
                    { x with
                      owner := none
                      former := some ⟨p, s.now⟩
                      orphanDeadline := some (s.now + s.calls.orphanLimit * 1000) }⟩
              else ⟨((s.slot k).generation + 1) % 256, none⟩) ∧
          w.calls.orphans =
            s.calls.orphans ++
              ks.filter
                (fun k => (s.slot k).call.any
                  (fun x => decide (x.state = .answered) && decide (s.calls.orphanLimit ≠ 0))) ∧
          c = (ks.filter
                (fun k => (s.slot k).call.any
                  (fun x => decide (x.state = .answered) && decide (s.calls.orphanLimit ≠ 0)))).length)

/-! ## Clocks, generations and staging (chapter 7) -/

/-- R129, R130, R131, R142: TICK adds 1 ms to monotonic time while the count is not full, to a set week time, to the silence
of a port that is not DOWN while RESET_N is not held asserted (R181, R195), and takes 1 ms from a scheduled advance.
SET_CLOCK sets the week clock and settles a scheduled activation by the forward distance of the jump. (That a tick that finds
the count full leaves a free value, notes/assumptions/2.md, and that the clocks go on while RESET_N is held asserted,
notes/assumptions/38.md, are the model's choice; that SET_CLOCK takes an activation that is due already before it moves the
clock is DEDUCED: notes/assumptions/20.md.) -/
def Obligations.Clocks : Prop :=
  (∀ (s : State),
    ∃ t, exec .tick s = .next t ∧
      (s.now + 1 < 281474976710656 → t.now = s.now + 1 ∧ t.freeDrawn = s.freeDrawn) ∧
      (281474976710656 ≤ s.now + 1 → t.now < 281474976710656) ∧
      t.tariff =
        { s.tariff with
          monotonic := t.now
          weekTime := s.tariff.weekTime.map (fun w => if w + 1 < 604800000 then w + 1 else 0)
          staging :=
            { s.tariff.staging with
              advance :=
                if s.tariff.staging.state = .scheduled then s.tariff.staging.advance.map (fun a => a - 1)
                else s.tariff.staging.advance } } ∧
      (∀ p, t.port p =
        if (s.port p).state = .down ∨ s.resetLine = true then s.port p
        else { s.port p with silence := (s.port p).silence + 1 }) ∧
      t = { s with tariff := t.tariff, ports := t.ports, freeDrawn := t.freeDrawn }) ∧
  ∀ (r : Sender) (d ms : Option Nat) (s u : State), Takes (.setClock r d ms) s u →
    (d = none ∨ ms = none → Refuses (.setClock r d ms) s .badRequest u) ∧
    ∀ x y, d = some x → ms = some y →
      (6 < x ∨ 86399999 < y → Refuses (.setClock r d ms) s .outOfRange u) ∧
      (x ≤ 6 → y ≤ 86399999 →
        ∀ n w, n = x * 86400000 + y → w = { u with tariff := { u.tariff with weekTime := some n } } →
          (u.tariff.staging.state ≠ .scheduled →
            Answers (.setClock r d ms) s .ok (.clock u.tariff.weekTime n) w) ∧
          (∀ old target, u.tariff.staging.state = .scheduled → u.tariff.weekTime = some old →
            u.tariff.staging.target = some target → u.tariff.staging.advance = some 0 →
            Answers (.setClock r d ms) s .ok (.clock (some old) n)
              { takeDue u with tariff := { (takeDue u).tariff with weekTime := some n } }) ∧
          ∀ old target a f, u.tariff.staging.state = .scheduled → u.tariff.weekTime = some old →
            u.tariff.staging.target = some target → u.tariff.staging.advance = some a → 0 < a →
            f = (n + 604800000 - old) % 604800000 →
            Answers (.setClock r d ms) s .ok (.clock (some old) n)
              (if f = 0 then w
               else if f < 302400000 then
                if a ≤ f then takeDue w else w.setStaging { u.tariff.staging with advance := some (a - f) }
               else if n = target then takeDue w
               else
                w.setStaging { u.tariff.staging with advance := some ((target + 604800000 - n) % 604800000) }))

/-- R137, R145, R146: STAGE_OPEN copies the live generation into an empty staging bank under the next number, held by the
requester, and is refused STAGE_BUSY in any other state. STAGE_ABORT discards the staging generation. The loss of the holder
discards an OPEN one and leaves a scheduled or held activation standing without a holder. (That the loss of a port that was
not handed over changes nothing is the model's choice: notes/assumptions/8.md.) -/
def Obligations.StageOpenAbortAndLoss : Prop :=
  ∀ (r : Sender) (p : Port) (s u : State),
    (Takes (.stageOpen r) s u →
      (u.tariff.staging.state = .none →
        Answers (.stageOpen r) s .ok (.staged ((u.tariff.live.number + 1) % 65536) u.tariff.live.number)
          (u.setStaging
            { state := .opened
              holder := some r.port
              generation := some ⟨(u.tariff.live.number + 1) % 65536, u.tariff.live.tariffs⟩
              target := none
              advance := none })) ∧
      (u.tariff.staging.state ≠ .none →
        Answers (.stageOpen r) s .stageBusy (.stageBusy u.tariff.staging.state u.tariff.staging.holder) u)) ∧
    (Takes (.stageAbort r) s u →
      (∀ st,
        FirstOf
          [(u.tariff.staging.state = .none, .wrongState),
            (u.tariff.staging.holder ≠ none ∧ u.tariff.staging.holder ≠ some r.port, .notStageHolder)] st →
        Refuses (.stageAbort r) s st u) ∧
      (u.tariff.staging.state ≠ .none →
        (u.tariff.staging.holder = none ∨ u.tariff.staging.holder = some r.port) →
        Answers (.stageAbort r) s .ok
          (.aborted u.tariff.staging.state (u.tariff.staging.generation.map (·.number)))
          (u.setStaging ⟨.none, none, none, none, none⟩))) ∧
    (p ∉ s.tariff.losses → exec (.tariffHolderLoss p) s = .next s) ∧
    (p ∈ s.tariff.losses →
      exec (.tariffHolderLoss p) s =
        .next
          { s with
            tariff :=
              { s.tariff with
                losses := s.tariff.losses.erase p
                staging :=
                  if s.tariff.staging.holder ≠ some p then s.tariff.staging
                  else if s.tariff.staging.state = .scheduled ∨ s.tariff.staging.state = .held then
                    { s.tariff.staging with holder := none }
                  else ⟨.none, none, none, none, none⟩ } })

/-- R138, R139, R140: the four writing requests: their own checks, then NOT_STAGE_HOLDER and ACTIVATION_PENDING in that
order; then exactly the fields, the margin, the slots or the days named are stored in the staging generation, clamped where
the rule clamps, and answered as they now stand. (That STAGE_WRITE_WEEK answers BAD_REQUEST before OUT_OF_RANGE is the model's
choice, notes/assumptions/37.md.) -/
def Obligations.StagingWrites : Prop :=
  ∀ (r : Sender) (s u : State) (mine : List (Prop × Status)),
    mine =
      [(u.tariff.staging.state = .none ∨ u.tariff.staging.holder ≠ some r.port, .notStageHolder),
        (u.tariff.staging.state ≠ .opened, .activationPending)] →
    (∀ c k f, Takes (.stageWriteTariff r c k f) s u →
      (∀ st, FirstOf ([(63 < c ∨ 7 < k, .outOfRange), (f.any = false, .badRequest)] ++ mine) st →
        Refuses (.stageWriteTariff r c k f) s st u) ∧
      ∀ g old e, u.tariff.staging.generation = some g → c ≤ 63 → k ≤ 7 → f.any = true → AllPass mine →
        old = g.tariffs.entry c k →
        e =
          { setupFee := clampOpt 0 16777215 f.setupFee old.setupFee
            rate0 := clampOpt 0 16777215 f.rate0 old.rate0
            rate1 := clampOpt 0 16777215 f.rate1 old.rate1
            rate2 := clampOpt 0 16777215 f.rate2 old.rate2
            rate3 := clampOpt 0 16777215 f.rate3 old.rate3
            firstIncrement := clampOpt 1 600 f.firstIncrement old.firstIncrement
            nextIncrement := clampOpt 1 600 f.nextIncrement old.nextIncrement
            alternatePremium := clampOpt 0 1000 f.alternatePremium old.alternatePremium
            congestionPremium := clampOpt 0 1000 f.congestionPremium old.congestionPremium
            cap := clampOpt 0 1099511627775 f.cap old.cap } →
        ∃ T : Tariffs,
          Answers (.stageWriteTariff r c k f) s
            (okOr (outsideOpt 0 16777215 f.setupFee || outsideOpt 0 16777215 f.rate0 || outsideOpt 0 16777215 f.rate1 ||
              outsideOpt 0 16777215 f.rate2 || outsideOpt 0 16777215 f.rate3 || outsideOpt 1 600 f.firstIncrement ||
              outsideOpt 1 600 f.nextIncrement || outsideOpt 0 1000 f.alternatePremium ||
              outsideOpt 0 1000 f.congestionPremium || outsideOpt 0 1099511627775 f.cap))
            (.tariffEntry e) (u.setStaging { u.tariff.staging with generation := some ⟨g.number, T⟩ }) ∧
          T = { g.tariffs with entries := T.entries } ∧ T.entry c k = e ∧
          ∀ x y, y ≤ 7 → ¬(x = c ∧ y = k) → T.entry x y = g.tariffs.entry x y) ∧
    (∀ c margin, Takes (.stageWriteMargin r c margin) s u →
      (∀ st, FirstOf ([(63 < c, .outOfRange), (margin = none, .badRequest)] ++ mine) st →
        Refuses (.stageWriteMargin r c margin) s st u) ∧
      ∀ g m, u.tariff.staging.generation = some g → c ≤ 63 → margin = some m → AllPass mine →
        ∃ T : Tariffs,
          Answers (.stageWriteMargin r c margin) s (if 2000 < m then .adjusted else .ok) (.margin (min m 2000))
            (u.setStaging { u.tariff.staging with generation := some ⟨g.number, T⟩ }) ∧
          T = { g.tariffs with margins := T.margins } ∧ T.margins.get c = min m 2000 ∧
          ∀ x, x ≠ c → T.margins.get x = g.tariffs.margins.get x) ∧
    (∀ day first (bands : List (Arg Band)), Takes (.stageWriteSchedule r day first bands) s u →
      (∀ st,
        FirstOf
          ([(day.value? = none ∨ bands.length < 1 ∨ 48 < bands.length ∨ ∃ b ∈ bands, b.value? = none, .badRequest),
            (47 < first ∨ 48 < first + bands.length, .outOfRange)] ++ mine) st →
        Refuses (.stageWriteSchedule r day first bands) s st u) ∧
      ∀ (g : StagedGeneration) (d : DayType) (bs : List Band), u.tariff.staging.generation = some g →
        day = .given d → bands = bs.map .given → 1 ≤ bs.length → first ≤ 47 →
        first + bs.length ≤ 48 → AllPass mine →
        ∃ T : Tariffs,
          Answers (.stageWriteSchedule r day first bands) s .ok
            (.schedule ((List.range 48).map (fun i => (T.schedule d).get i)))
            (u.setStaging { u.tariff.staging with generation := some ⟨g.number, T⟩ }) ∧
          T.entries = g.tariffs.entries ∧ T.margins = g.tariffs.margins ∧ T.weekMap = g.tariffs.weekMap ∧
          (∀ x, x ≠ d → T.schedule x = g.tariffs.schedule x) ∧
          (∀ (i : Nat) (b : Band), bs[i]? = some b → (T.schedule d).get (first + i) = b) ∧
          ∀ i, i < first ∨ first + bs.length ≤ i → (T.schedule d).get i = (g.tariffs.schedule d).get i) ∧
    ∀ days : List (Nat × Arg DayType), Takes (.stageWriteWeek r days) s u →
      (∀ st,
        FirstOf
          ([(days.length < 1 ∨ 7 < days.length ∨ ¬(days.map Prod.fst).Nodup ∨ ∃ x ∈ days, x.2.value? = none,
              .badRequest),
            (∃ x ∈ days, 6 < x.1, .outOfRange)] ++ mine) st →
        Refuses (.stageWriteWeek r days) s st u) ∧
      ∀ (g : StagedGeneration) (ds : List (Nat × DayType)), u.tariff.staging.generation = some g →
        days = ds.map (fun x => (x.1, .given x.2)) → 1 ≤ ds.length → ds.length ≤ 7 →
        (ds.map Prod.fst).Nodup → (∀ x ∈ ds, x.1 ≤ 6) → AllPass mine →
        ∃ T : Tariffs,
          Answers (.stageWriteWeek r days) s .ok (.weekMap ((List.range 7).map (fun i => T.weekMap.get i)))
            (u.setStaging { u.tariff.staging with generation := some ⟨g.number, T⟩ }) ∧
          T = { g.tariffs with weekMap := T.weekMap } ∧ (∀ x ∈ ds, T.weekMap.get x.1 = x.2) ∧
          ∀ d, d ∉ ds.map Prod.fst → T.weekMap.get d = g.tariffs.weekMap.get d

/-- R141 to R144: STAGE_ACTIVATE: its checks in order; NOW or the present week time makes the activation due, and another
week time schedules it. ACTIVATION_DUE takes a scheduled activation whose advance has reached 0. A due activation takes place
when the retired count is 0, and is held else; a held one takes place when a lowering brings the retired count to 0. (That
ACTIVATION_DUE with no activation due changes nothing is the model's choice, notes/assumptions/8.md.) -/
def Obligations.Activation : Prop :=
  (∀ (r : Sender) (target : Option ActivationTarget) (s u : State), Takes (.stageActivate r target) s u →
    (∀ st,
      FirstOf
        [(target = none, .badRequest), (∃ w, target = some (.at w) ∧ 604799999 < w, .outOfRange),
          (u.tariff.staging.state = .none ∨ u.tariff.staging.holder ≠ some r.port, .notStageHolder),
          (u.tariff.staging.state ≠ .opened, .activationPending),
          (u.tariff.weekTime = none ∧ ∃ w, target = some (.at w), .clockUnset)] st →
      Refuses (.stageActivate r target) s st u) ∧
    (u.tariff.staging.state = .opened → u.tariff.staging.holder = some r.port →
      (∀ g, u.tariff.staging.generation = some g →
        (target = some .now ∨ ∃ w, w ≤ 604799999 ∧ target = some (.at w) ∧ u.tariff.weekTime = some w) →
        ((∀ b, u.tariff.retired = some b → b.references = 0) →
          Answers (.stageActivate r target) s .ok (.activated g.number) (takeDue u)) ∧
        ∀ b, u.tariff.retired = some b → b.references ≠ 0 →
          Answers (.stageActivate r target) s .ok (.heldActivation b.number b.references) (takeDue u)) ∧
      ∀ w x, target = some (.at w) → w ≤ 604799999 → u.tariff.weekTime = some x → w ≠ x →
        Answers (.stageActivate r target) s .ok (.scheduledActivation ((w + 604800000 - x) % 604800000))
          (u.setStaging
            { u.tariff.staging with
              state := .scheduled
              target := some w
              advance := some ((w + 604800000 - x) % 604800000) }))) ∧
  ∀ (s : State),
    (s.tariff.staging.state = .scheduled → s.tariff.staging.advance = some 0 →
      exec .activationDue s = .next (takeDue s)) ∧
    (s.tariff.staging.state ≠ .scheduled ∨ s.tariff.staging.advance ≠ some 0 →
      exec .activationDue s = .next s) ∧
    ∀ g done, s.tariff.staging.generation = some g →
      done =
        { s.tariff with
          retired := some s.tariff.live
          live := ⟨g.number, 0, g.tariffs⟩
          staging := ⟨.none, none, none, none, none⟩ } →
      ((∀ b, s.tariff.retired = some b → b.references = 0) →
        ∃ w, takeDue s = notifyAllUp (.tariffActive g.number s.tariff.live.number s.tariff.live.references false) w ∧
          w = { s with tariff := done, memory := w.memory } ∧
          (∀ (k i : Nat) (e : MemoryEntry), MemorySound s → (w.memorySet k).ways[i]? ≠ some (some e))) ∧
      (∀ b, s.tariff.retired = some b → b.references ≠ 0 →
        ∀ w, w = s.setStaging { s.tariff.staging with state := .held, target := none, advance := none } →
          (s.tariff.staging.holder = none → takeDue s = w) ∧
          ∀ p, s.tariff.staging.holder = some p →
            takeDue s = notify p (.activationHeld g.number b.number b.references) w) ∧
      ∀ b, s.tariff.retired = some b → b.number ≠ s.tariff.live.number → b.references = 1 →
        s.tariff.staging.state = .held →
        ∃ w,
          lower b.number s =
            notifyAllUp (.tariffActive g.number s.tariff.live.number s.tariff.live.references true) w ∧
          w = { s with tariff := done, memory := w.memory }

/-! ## Pricing (chapter 8) -/

/-- R151 to R153, R157 to R160, R162: the stages of pricing: the duration clamped to 24 h, the conversation seconds rounded
up, the billed seconds by the increments, the charge of each band rounded up on its own, the premiums rounded half up, the
cap, and the two amounts; and the flags of the result. -/
def Obligations.PricingStages : Prop :=
  ∀ (T : Tariffs) (r : PricedRelease) (e : TariffEntry) (d sec b base h0 h : Nat) (x : BandSeconds),
    e = T.entry r.outCarrier r.tariffClass → 1 ≤ e.nextIncrement →
    d = min (r.released - r.answered) 86400000 → sec = (d + 999) / 1000 →
    b =
      (if sec ≤ e.firstIncrement then e.firstIncrement
       else e.firstIncrement + e.nextIncrement * ((sec - e.firstIncrement + e.nextIncrement - 1) / e.nextIncrement)) →
    x = bandSplit T r.answerWeekTime d b →
    base =
      e.setupFee + (x.band0 * e.rate0 + 59) / 60 + (x.band1 * e.rate1 + 59) / 60 + (x.band2 * e.rate2 + 59) / 60 +
        (x.band3 * e.rate3 + 59) / 60 →
    h0 =
      (base *
          (1000 + (if r.altPremium = true then e.alternatePremium else 0) +
            (if r.congPremium = true then e.congestionPremium else 0)) + 500) / 1000 →
    h = (if 0 < e.cap ∧ e.cap < h0 then e.cap else h0) →
    price T r =
      { call := r.call
        inCarrier := r.inCarrier
        outCarrier := r.outCarrier
        inGroup := r.inGroup
        outGroup := r.outGroup
        generation := r.generation
        tariffClass := r.tariffClass
        stepKind := r.stepKind
        answerWeekTime := r.answerWeekTime
        duration := d
        billed := b
        seconds0 := x.band0
        seconds1 := x.band1
        seconds2 := x.band2
        seconds3 := x.band3
        payable := if r.outCarrier = 0 then 0 else h
        receivable := if r.inCarrier = 0 then 0 else (h * (1000 + T.margins.get r.inCarrier) + 500) / 1000
        cause := r.cause
        flags :=
          { timeUnset := decide (r.answerWeekTime = none)
            durationClamped := decide (86400000 < r.released - r.answered)
            capped := decide (0 < e.cap ∧ e.cap < h0)
            altPremium := r.altPremium
            congPremium := r.congPremium
            forced := r.forced } }

/-- R154, R155, R156: the band split: a band gets the whole seconds of the milliseconds of conversation whose week time falls
in it, each read from the generation's week map and schedules, and the remainder goes to the band of the last millisecond, or
of the answer for a conversation of 0 ms; the four sum to the billed seconds. Without an answer week time all go to BAND0.
R130: the band of a week time is that of its half-hour slot in the schedule of its day's type, and the band in force is that
of the live generation now, or BAND0 while the week clock is UNSET. -/
def Obligations.BandSplitCountsMilliseconds : Prop :=
  ∀ (T : Tariffs) (t0 d b : Nat) (x : BandSeconds) (last : Band) (ms : Band → Nat), t0 < 604800000 → d ≤ 86400000 →
    (d + 999) / 1000 ≤ b → x = bandSplit T (some t0) d b →
    last = (if d = 0 then T.bandAt t0 else T.bandAt ((t0 + d - 1) % 604800000)) →
    (∀ k, ms k = (List.range d).countP (fun i => decide (T.bandAt ((t0 + i) % 604800000) = k))) →
    bandSplit T none d b = ⟨b, 0, 0, 0⟩ ∧ x.band0 + x.band1 + x.band2 + x.band3 = b ∧
    (last ≠ .band0 → x.band0 = ms .band0 / 1000) ∧ (last ≠ .band1 → x.band1 = ms .band1 / 1000) ∧
    (last ≠ .band2 → x.band2 = ms .band2 / 1000) ∧ (last ≠ .band3 → x.band3 = ms .band3 / 1000) ∧
    (∀ day slot r, day < 7 → slot < 48 → r < 1800000 →
      T.bandAt (day * 86400000 + slot * 1800000 + r) =
        (match T.weekMap.get day with
         | .workday => T.workday.get slot
         | .restday => T.restday.get slot)) ∧
    ∀ s : State,
      bandInForce s =
        (match s.tariff.weekTime with
         | none => .band0
         | some w => s.tariff.live.tariffs.bandAt w)

/-! ## Settlement (chapter 9) -/

/-- R170, R171, R172: SET_FETCH_BLOCK stores the requester's block size; FETCH_RECORDS is refused without one, and else moves
the oldest records, up to it, from the queue into the response, in their order, and the backlog level is judged. -/
def Obligations.FetchRecords : Prop :=
  ∀ (r : Sender) (code : Option Nat) (s u : State),
    (Takes (.setFetchBlock r code) s u →
      (code = none → Refuses (.setFetchBlock r code) s .badRequest u) ∧
      ∀ c, code = some c →
        Answers (.setFetchBlock r code) s (if 64 < c then .adjusted else .ok)
          (.fetchBlock (if c = 0 then 64 else min c 64))
          (u.setPort r.port { u.port r.port with fetchBlock := some (if c = 0 then 64 else min c 64) })) ∧
    (Takes (.fetchRecords r) s u →
      ((u.port r.port).fetchBlock = none → Refuses (.fetchRecords r) s .noFetchBlock u) ∧
      ∀ n, (u.port r.port).fetchBlock = some n →
        (u.settlement.queue = [] → Answers (.fetchRecords r) s .ok (.records 0 []) u) ∧
        (u.settlement.queue ≠ [] →
          ∃ v,
            Answers (.fetchRecords r) s .ok
              (.records (u.settlement.queue.length - n) (u.settlement.queue.take n)) v ∧
            v.settlement =
              { u.settlement with
                queue := u.settlement.queue.drop n
                backlog :=
                  if u.settlement.backlog = true then decide (2048 < u.settlement.queue.length - n)
                  else decide (3072 ≤ u.settlement.queue.length - n) } ∧
            (v.settlement.backlog = u.settlement.backlog → v.ports = u.ports ∧ v.levels = u.levels) ∧
            (v.settlement.backlog ≠ u.settlement.backlog →
              v.level ⟨.settlementBacklog, 0⟩ = if v.settlement.backlog = true then 1 else 0) ∧
            SamePorts u v ∧ v = { u with settlement := v.settlement, ports := v.ports, levels := v.levels }))

/-- R164, R167, R168, R173, R174: ACCUMULATION adds the oldest priced result to its pair, each field saturating at 2^48 - 1
with the saturated flag set once a field has reached it, and to its inbound carrier, queues its record or, when the queue is
full, adds it to the unitemized fields, and evaluates the carrier's hold. SET_EXPOSURE_LIMIT stores the clamped limit and
evaluates the hold at once. (That the flag is set by the addition that brings a field exactly to its limit is DEDUCED,
notes/assumptions/21.md, and that with nothing handed there is nothing to do is the model's choice,
notes/assumptions/8.md.) -/
def Obligations.AccumulationAndHold : Prop :=
  (∀ (s : State) (x : PricedResult) (rest : List PricedResult) (k : Nat) (P : PairTotals) (room : Bool),
    k = x.inCarrier * 64 + x.outCarrier → P = s.pair k → room = decide (s.settlement.queue.length < 4096) →
    (s.settlement.handed = [] → exec .accumulation s = .next s) ∧
    (s.settlement.handed = x :: rest →
      ∃ v, exec .accumulation s = .next v ∧ v.settlement.handed = rest ∧
        v.pair k =
          { payable := min (P.payable + x.payable) 281474976710655
            receivable := min (P.receivable + x.receivable) 281474976710655
            calls := min (P.calls + 1) 281474976710655
            billed := min (P.billed + x.billed) 281474976710655
            unitemizedPayable :=
              if room = true then P.unitemizedPayable else min (P.unitemizedPayable + x.payable) 281474976710655
            unitemizedReceivable :=
              if room = true then P.unitemizedReceivable
              else min (P.unitemizedReceivable + x.receivable) 281474976710655
            unitemizedCalls :=
              if room = true then P.unitemizedCalls else min (P.unitemizedCalls + 1) 281474976710655
            saturated :=
              P.saturated || decide (281474976710655 ≤ P.payable + x.payable) ||
                decide (281474976710655 ≤ P.receivable + x.receivable) || decide (281474976710655 ≤ P.calls + 1) ||
                decide (281474976710655 ≤ P.billed + x.billed) ||
                (!room &&
                  (decide (281474976710655 ≤ P.unitemizedPayable + x.payable) ||
                    decide (281474976710655 ≤ P.unitemizedReceivable + x.receivable) ||
                    decide (281474976710655 ≤ P.unitemizedCalls + 1))) } ∧
        (∀ j, j ≠ k → v.pair j = s.pair j) ∧
        v.carrier x.inCarrier =
          { limit := (s.carrier x.inCarrier).limit
            total := min ((s.carrier x.inCarrier).total + x.receivable) 281474976710655
            hold :=
              decide ((s.carrier x.inCarrier).limit ≠ 0 ∧
                (s.carrier x.inCarrier).limit ≤
                  min ((s.carrier x.inCarrier).total + x.receivable) 281474976710655) } ∧
        (∀ c, c ≠ x.inCarrier → v.carrier c = s.carrier c) ∧
        v.settlement.queue =
          (if room = true then s.settlement.queue ++ [⟨s.settlement.period, x⟩] else s.settlement.queue) ∧
        v.settlement.backlog =
          (if room = false then s.settlement.backlog
           else if s.settlement.backlog = true then decide (2048 < s.settlement.queue.length + 1)
           else decide (3072 ≤ s.settlement.queue.length + 1)) ∧
        v.settlement.period = s.settlement.period ∧ v.settlement.closed = s.settlement.closed ∧ SamePorts s v ∧
        v = { s with settlement := v.settlement, ports := v.ports, levels := v.levels })) ∧
  ∀ (r : Sender) (c : Nat) (limit : Option Nat) (s u : State), Takes (.setExposureLimit r c limit) s u →
    (∀ st, FirstOf [(63 < c, .outOfRange), (limit = none, .badRequest)] st →
      Refuses (.setExposureLimit r c limit) s st u) ∧
    ∀ n l h, c ≤ 63 → limit = some n → l = min n 1099511627775 → h = decide (l ≠ 0 ∧ l ≤ (u.carrier c).total) →
      ∃ v,
        Answers (.setExposureLimit r c limit) s (if 1099511627775 < n then .adjusted else .ok)
          (.exposure (u.carrier c).limit l (u.carrier c).total h) v ∧
        v.carrier c = ⟨(u.carrier c).total, l, h⟩ ∧ (∀ d, d ≠ c → v.carrier d = u.carrier d) ∧
        (h = (u.carrier c).hold → v.ports = u.ports ∧ v.levels = u.levels) ∧
        (h ≠ (u.carrier c).hold → v.level ⟨.carrierHold, c⟩ = if h = true then 1 else 0) ∧ SamePorts u v ∧
        v.settlement = { u.settlement with carriers := v.settlement.carriers } ∧
        v = { u with settlement := v.settlement, ports := v.ports, levels := v.levels }

/-- R175, R177: CLOSE_PERIOD is refused while the closed bank is full; else the closed bank receives the live period, pairs
and totals, these become 0 and clear, the period number steps, every hold is evaluated, and every UP port is told.
RELEASE_CLOSED frees the bank for the number it holds. -/
def Obligations.Periods : Prop :=
  ∀ (r : Sender) (period : Option Nat) (s u : State), LedgerSound s →
    (Takes (.closePeriod r) s u →
      (u.settlement.closed.isSome = true → Refuses (.closePeriod r) s .closedBankFull u) ∧
      (u.settlement.closed = none →
        ∃ v w b,
          Answers (.closePeriod r) s .ok (.closed u.settlement.period ((u.settlement.period + 1) % 65536)) v ∧
          v = notifyAllUp (.periodClosed u.settlement.period ((u.settlement.period + 1) % 65536)) w ∧
          w.settlement.closed = some b ∧ b.period = u.settlement.period ∧ (∀ k, b.pairs.get k = u.pair k) ∧
          (∀ c, c ≤ 63 → b.totals.get c = (u.carrier c).total) ∧ (∀ k, w.pair k = ⟨0, 0, 0, 0, 0, 0, 0, false⟩) ∧
          (∀ c, c ≤ 63 → w.carrier c = ⟨0, (u.carrier c).limit, false⟩) ∧
          (∀ c, c ≤ 63 → (u.carrier c).hold = true → w.level ⟨.carrierHold, c⟩ = 0) ∧
          w.settlement.period = (u.settlement.period + 1) % 65536 ∧ w.settlement.queue = u.settlement.queue ∧
          w.settlement.backlog = u.settlement.backlog ∧ w.settlement.handed = u.settlement.handed ∧ SamePorts u w ∧
          w = { u with settlement := w.settlement, ports := w.ports, levels := w.levels })) ∧
    (Takes (.releaseClosed r period) s u →
      (period = none → Refuses (.releaseClosed r period) s .badRequest u) ∧
      ∀ n, period = some n →
        (u.settlement.closed = none → Answers (.releaseClosed r period) s .ok .alreadyFree u) ∧
        ∀ b, u.settlement.closed = some b →
          (b.period = n →
            Answers (.releaseClosed r period) s .ok (.periodReleased n)
              { u with settlement := { u.settlement with closed := none } }) ∧
          (b.period ≠ n →
            Answers (.releaseClosed r period) s .wrongState (.closedPeriodIs b.period) u))

/-- R147, R176, R178, R194: QUERY_TARIFF, READ_CLOSED, QUERY_PAIR and IDENTIFY answer what the banks, the closed bank, the
accumulators and the port's record hold when they are taken, and change nothing. (The revision code is a free value,
notes/assumptions/1.md; the listing of the capacities, notes/assumptions/27.md, and that OUT_OF_RANGE comes before WRONG_STATE
in QUERY_TARIFF and READ_CLOSED, notes/assumptions/37.md, are the model's choice.) -/
def Obligations.QueriesOfTariffAndSettlement : Prop :=
  ∀ (r : Sender) (n k : Nat) (s u : State),
    (∀ (bank : Arg Bank) (item : Arg TariffItem), Takes (.queryTariff r bank item) s u →
      (bank.value? = none ∨ item.value? = none → Refuses (.queryTariff r bank item) s .badRequest u) ∧
      ∀ b i, bank = .given b → item = .given i →
        (∀ st,
          FirstOf
            [(∃ d : Arg DayType, i = .schedule d ∧ d.value? = none, .badRequest),
              (∃ c j, (i = .entry c j ∧ (63 < c ∨ 7 < j)) ∨ (i = .margin c ∧ 63 < c), .outOfRange),
              ((b = .retired ∧ u.tariff.retired = none) ∨ (b = .staging ∧ u.tariff.staging.state = .none),
                .wrongState)] st →
          Refuses (.queryTariff r bank item) s st u) ∧
        ∀ (number : Nat) (references : Option Nat) (T : Tariffs),
          (b = .live ∧ number = u.tariff.live.number ∧ references = some u.tariff.live.references ∧
              T = u.tariff.live.tariffs ∨
            (∃ x, b = .retired ∧ u.tariff.retired = some x ∧ number = x.number ∧ references = some x.references ∧
              T = x.tariffs) ∨
            ∃ x, b = .staging ∧ u.tariff.staging.state ≠ .none ∧ u.tariff.staging.generation = some x ∧
              number = x.number ∧ references = none ∧ T = x.tariffs) →
          (∀ c j, i = .entry c j → c ≤ 63 → j ≤ 7 →
            Answers (.queryTariff r bank item) s .ok (.tariffEntry (T.entry c j)) u) ∧
          (∀ c, i = .margin c → c ≤ 63 → Answers (.queryTariff r bank item) s .ok (.margin (T.margins.get c)) u) ∧
          (∀ d, i = .schedule (.given d) →
            Answers (.queryTariff r bank item) s .ok
              (.schedule ((List.range 48).map (fun j => (T.schedule d).get j))) u) ∧
          (i = .weekMap →
            Answers (.queryTariff r bank item) s .ok (.weekMap ((List.range 7).map (fun j => T.weekMap.get j))) u) ∧
          (i = .summary →
            Answers (.queryTariff r bank item) s .ok
              (.summary
                { number := number
                  references := references
                  state := u.tariff.staging.state
                  holder := u.tariff.staging.holder
                  target := u.tariff.staging.target
                  advance := u.tariff.staging.advance
                  monotonic := u.now
                  weekTime := u.tariff.weekTime
                  band := bandInForce u })
              u)) ∧
    (∀ item, Takes (.readClosed r item) s u →
      (item.value? = none → Refuses (.readClosed r item) s .badRequest u) ∧
      (item = .given (.pairs n k) → 4095 < n → Refuses (.readClosed r item) s .outOfRange u) ∧
      (item = .given (.pairs n k) → n ≤ 4095 → u.settlement.closed = none →
        Refuses (.readClosed r item) s .wrongState u) ∧
      (item = .given .carriers → u.settlement.closed = none → Refuses (.readClosed r item) s .wrongState u) ∧
      ∀ b m, u.settlement.closed = some b → m = min (max 1 (min k 64)) (4096 - n) →
        (item = .given (.pairs n k) → n ≤ 4095 →
          Answers (.readClosed r item) s (if m = k then .ok else .adjusted)
            (.closedPairs b.period
              ((List.range' n m).map (fun j => (j / 64, j % 64, b.pairs.get j)))) u) ∧
        (item = .given .carriers →
          Answers (.readClosed r item) s .ok
            (.closedCarriers b.period ((List.range 64).map (fun c => b.totals.get c))) u)) ∧
    (Takes (.queryPair r n k) s u →
      (63 < n ∨ 63 < k → Refuses (.queryPair r n k) s .outOfRange u) ∧
      (n ≤ 63 → k ≤ 63 →
        Answers (.queryPair r n k) s .ok
          (.pair
            { totals := u.pair (n * 64 + k)
              carrier := u.carrier n
              period := u.settlement.period
              queueLength := u.settlement.queue.length
              backlog := u.settlement.backlog
              closedPeriod := u.settlement.closed.map (·.period) })
          u)) ∧
    (Takes (.identify r) s u →
      Answers (.identify r) s .ok
        (.identity
          [[4], [16], [64], [16384, 0, 16383], [256, 0, 255, 1, 4], [64, 0, 63], [8192, 0, 8191], [1, 24], [2048, 0, 2047],
            [4096, 1, 16], [64], [1024, 0, 1023, 1, 8], [256, 4, 1024], [1, 32], [64, 8, 512], [4], [2, 48], [3, 0, 65535],
            [64, 64, 4096], [4096], [1, 64]]
          Config.revision r.port (u.port r.port).partner (u.port r.port).fetchBlock)
        u)

/-! ## Ports, notices and frames (chapters 10 and 11) -/

/-- R185, R186, R195: when a port takes a request, and what becomes of one that it does not take: it joins the queue, or is
answered QUEUE_FULL, DETACHING or NOT_ATTACHED at once, and while RESET_N is held asserted it is lost; nothing else changes. A
waiting request is taken as what it is: one that came as a command as that command, one that came as a frame as a command
that its body can stand for, so that one whose body is too short is taken as UNKNOWN_REQUEST alone (R186, R196), and SUBSCRIBE
and ACK_ALARM with the values that their bodies spell (R197). An OFFER in progress, on a port that has been lost too, keeps
its port from taking the next request (R184, R186). (What stands for a request, how many bytes its values take and where the
class and the source stand is the model's choice: notes/assumptions/5.md and 6.md, and that a DOWN port with a full queue
answers NOT_ATTACHED, 40.md; that DETACH keeps its port until DETACH_DONE and that CLEAR_TRAFFIC waits for OFFERs in progress
is DEDUCED: 12.md and 39.md.) -/
def Obligations.RequestArrival : Prop :=
  (∀ (c : Instr) (r : Sender) (code : Nat) (s : State) (q : PortRecord), requestOf c = some (r, code) →
    q = s.port r.port →
    (∀ u, Takes c s u ↔
      (q.state = .up ∨ (q.state = .down ∧ code = 144)) ∧ q.inProgress = none ∧
        (∀ o ∈ s.calls.offers, o.sender.port ≠ r.port) ∧
        (∀ l ∈ s.calls.losses, l.port = r.port → l.detachTag = none) ∧ (code = 103 → s.calls.offers = []) ∧
        s.resetLine = false ∧
        ((q.requests = [] ∧ u = s) ∨
          ∃ x rest, q.requests = x :: rest ∧ standsFor x c r code = true ∧
            u = s.setPort r.port { q with requests := rest })) ∧
    ((∀ u, ¬Takes c s u) → s.resetLine = true → exec c s = .next s) ∧
    ((∀ u, ¬Takes c s u) → s.resetLine = false →
      (q.state = .up ∨ (q.state = .down ∧ code = 144) →
        (q.requests.length < 16 →
          exec c s =
            .next (s.setPort r.port { q with requests := q.requests ++ [⟨r.tag, code, .command (asSent c)⟩] })) ∧
        (16 ≤ q.requests.length →
          exec c s =
            .next (s.setPort r.port { q with answers := q.answers ++ [⟨code, r.tag, .queueFull, .nothing⟩] }))) ∧
      (q.state = .detaching →
        exec c s =
          .next (s.setPort r.port { q with answers := q.answers ++ [⟨code, r.tag, .detaching, .nothing⟩] })) ∧
      (q.state = .down → code ≠ 144 →
        exec c s =
          .next (s.setPort r.port { q with answers := q.answers ++ [⟨code, r.tag, .notAttached, .nothing⟩] })))) ∧
  ∀ (c : Instr) (r : Sender) (code : Nat) (x : Request), requestOf c = some (r, code) →
    (∀ d, x.body = .command d →
      (standsFor x c r code = true ↔ x.code = code ∧ x.tag = r.tag ∧ d = asSent c)) ∧
    ∀ bs, x.body = .bytes bs →
      ((∀ p n, c ≠ .unknownRequest p n) →
        standsFor x c r code = true →
        x.code = code ∧ x.tag = r.tag ∧ leastBytes c ≤ bs.length) ∧
      (standsFor x (.unknownRequest r x.code) r x.code = true ↔
        x.tag = r.tag ∧
          (¬((16 ≤ x.code ∧ x.code ≤ 24) ∨ (32 ≤ x.code ∧ x.code ≤ 37) ∨ (48 ≤ x.code ∧ x.code ≤ 53) ∨
              (64 ≤ x.code ∧ x.code ≤ 66) ∨ (80 ≤ x.code ∧ x.code ≤ 81) ∨ (96 ≤ x.code ∧ x.code ≤ 104) ∨
              (112 ≤ x.code ∧ x.code ≤ 120) ∨ (128 ≤ x.code ∧ x.code ≤ 134) ∨ (144 ≤ x.code ∧ x.code ≤ 149)) ∨
            (x.code ∉ [21, 24, 34, 35, 37, 80, 103, 113, 119, 129, 131, 145, 148, 149] ∧
              (x.code = 146 → bs.length < 2) ∧ (x.code = 147 → bs.length < 3)))) ∧
      (∀ d n b i, c = .writeDest r (some d) (some n) (some b) (some i) → standsFor x c r code = true → 6 ≤ bs.length) ∧
      (∀ d n m, c = .setGap r d (some n) (some m) → standsFor x c r code = true → 7 ≤ bs.length) ∧
      (∀ d cause, c = .release r d (.given cause) → standsFor x c r code = true → 4 ≤ bs.length) ∧
      (∀ n m, c = .setExposureLimit r n (some m) → standsFor x c r code = true → 6 ≤ bs.length) ∧
      (∀ k on, c = .subscribe r k on →
        (standsFor x c r code = true ↔
          x.code = 146 ∧ x.tag = r.tag ∧
            ∃ b rest, bs = b :: rest ∧ (on ≠ none → rest ≠ []) ∧
              k = (if b = 0 then .given .groupCongestion else if b = 1 then .given .planExhausted
                else if b = 2 then .given .carrierHold else if b = 3 then .given .settlementBacklog else .undefined))) ∧
      ∀ k source, c = .ackAlarm r k source →
        (standsFor x c r code = true ↔
          x.code = 147 ∧ x.tag = r.tag ∧
            ∃ b hi lo rest, bs = b :: hi :: lo :: rest ∧
              k = (if b = 0 then .given .groupCongestion else if b = 1 then .given .planExhausted
                else if b = 2 then .given .carrierHold else if b = 3 then .given .settlementBacklog else .undefined) ∧
              source =
                (if hi.toNat * 256 + lo.toNat = 65535 then none else some (hi.toNat * 256 + lo.toNat)))

/-- R181, R196: the port interface judges a frame as the request that it spells exactly when it is the layout of that request
with its check value, as a fill frame exactly when it is that of a fill frame, and every other string of bytes as invalid. The
order of the bits in the check value is PRESUMED (notes/assumptions/4.md); that a frame with bytes after its check value is
invalid is DEDUCED (notes/assumptions/9.md). -/
def Obligations.FramesRoundTrip : Prop :=
  (∀ (tag code status : Byte) (body : List Byte), body.length ≤ 4096 →
    judgeFrame (encodeFrame 1 tag code status body) = .request ⟨tag, code.toNat, .bytes body⟩) ∧
  (∀ (tag code status : Byte), judgeFrame (encodeFrame 0 tag code status []) = .fill) ∧
  (∀ (bytes : List Byte) (q : Request), judgeFrame bytes = .request q →
    q.code < 256 ∧
      ∃ status body, q.body = .bytes body ∧ body.length ≤ 4096 ∧
        bytes = encodeFrame 1 q.tag (BitVec.ofNat 8 q.code) status body) ∧
  (∀ (bytes : List Byte), judgeFrame bytes = .fill → ∃ tag code status, bytes = encodeFrame 0 tag code status []) ∧
  ∀ (kind tag code status : Byte) (body : List Byte), body.length ≤ 4096 →
    ((1 < kind.toNat ∨ (kind = 0 ∧ body ≠ [])) → judgeFrame (encodeFrame kind tag code status body) = .invalid) ∧
    ∀ n, n < 8 + body.length → judgeFrame ((encodeFrame kind tag code status body).take n) = .invalid

/-- R181, R184, R185: FRAME_RECEIVED: an invalid frame changes nothing, a valid one restarts the link-loss count of a port
that is not DOWN, and a request arrives. LINK_LOSS after 20 ms of silence, and DETACH_COMPLETE once nothing composed is
unsent, take the port DOWN: its record returns to its values, the loss is handed to three blocks with the partner as it
stood, and every other UP port is told; the response of an OFFER in progress on it will be discarded. While RESET_N is held
asserted no frame is judged and no loss declared (R195). (What becomes of responses not yet sent is DEDUCED:
notes/assumptions/13.md; that a DOWN port with a full queue answers a request other than ATTACH NOT_ATTACHED is the model's
choice, notes/assumptions/40.md; an event that has not come about changes nothing by the model's choice: notes/assumptions/8.md.) -/
def Obligations.FramesAndTheEndOfALink : Prop :=
  ∀ (s : State) (p : Port) (bytes : List Byte) (r : PortRecord), r = s.port p →
    (s.resetLine = true ∨ judgeFrame bytes = .invalid → exec (.frameReceived p bytes) s = .next s) ∧
    (s.resetLine = false → judgeFrame bytes = .fill →
      exec (.frameReceived p bytes) s =
        .next (if r.state = .down then s else s.setPort p { r with silence := 0 })) ∧
    (∀ q, s.resetLine = false → judgeFrame bytes = .request q →
      (r.state = .up →
        (r.requests.length < 16 →
          ∃ t, exec (.frameReceived p bytes) s = .next t ∧ (∀ o, o ≠ p → t.port o = s.port o) ∧
            t.port p = { r with silence := 0, requests := r.requests ++ [q] } ∧ t = { s with ports := t.ports }) ∧
        (16 ≤ r.requests.length →
          ∃ t, exec (.frameReceived p bytes) s = .next t ∧ (∀ o, o ≠ p → t.port o = s.port o) ∧
            t.port p = { r with silence := 0, answers := r.answers ++ [⟨q.code, q.tag, .queueFull, .nothing⟩] } ∧
            t = { s with ports := t.ports })) ∧
      (r.state = .detaching →
        ∃ t, exec (.frameReceived p bytes) s = .next t ∧ (∀ o, o ≠ p → t.port o = s.port o) ∧
          t.port p = { r with silence := 0, answers := r.answers ++ [⟨q.code, q.tag, .detaching, .nothing⟩] } ∧
          t = { s with ports := t.ports }) ∧
      (r.state = .down → q.code ≠ 144 →
        exec (.frameReceived p bytes) s =
          .next (s.setPort p { r with answers := r.answers ++ [⟨q.code, q.tag, .notAttached, .nothing⟩] })) ∧
      (r.state = .down → q.code = 144 → r.requests.length < 16 →
        exec (.frameReceived p bytes) s = .next (s.setPort p { r with requests := r.requests ++ [q] })) ∧
      (r.state = .down → q.code = 144 → 16 ≤ r.requests.length →
        exec (.frameReceived p bytes) s =
          .next (s.setPort p { r with answers := r.answers ++ [⟨q.code, q.tag, .queueFull, .nothing⟩] }))) ∧
    ∀ (c : Instr) (cause : PortCause) (tag : Option Byte) (due : Prop),
      (c = .linkLoss p ∧ cause = .linkLoss ∧ tag = none ∧
          due = (s.resetLine = false ∧ r.state ≠ .down ∧ 20 ≤ r.silence) ∨
        c = .detachComplete p ∧ cause = .detach ∧ tag = r.inProgress.map (·.tag) ∧
          due = (r.state = .detaching ∧ r.outbox = [] ∧ r.held = [])) →
      (¬due → exec c s = .next s) ∧
      (due →
        ∃ t, exec c s = .next t ∧
          t.port p = { PortRecord.initial with answers := r.answers } ∧
          (∀ o, o ≠ p →
            t.port o = (if (s.port o).state = .up then (notify o (.portState p .down cause) s).port o else s.port o)) ∧
          t =
            { s with
              ports := t.ports
              calls :=
                { s.calls with
                  losses := s.calls.losses ++ [⟨p, r.partner, tag⟩]
                  offers := s.calls.offers.map (fun o => if o.sender.port = p then { o with discarded := true } else o) }
              tariff := { s.tariff with losses := s.tariff.losses ++ [p] }
              service := { s.service with losses := s.service.losses ++ [p] } })

/-- R182, R183, R193: ATTACH brings a DOWN port UP with its partner, or replaces the partner of an UP port, and DETACH makes
the port DETACHING, discards the requests behind it and stays in progress; each tells every other UP port. Of the responses
held at DETACH no noted source is waited for any more that was not queued, and those before the first that still waits go to
the link, in order. -/
def Obligations.AttachAndDetach : Prop :=
  (∀ (r : Sender) (partner : Arg Port) (s u : State) (q : PortRecord), Takes (.attach r partner) s u →
    q = u.port r.port →
    (partner = .undefined → Refuses (.attach r partner) s .outOfRange u) ∧
    (partner = .given r.port → Refuses (.attach r partner) s .badRequest u) ∧
    ∀ x, partner.value? = x → partner ≠ .undefined → x ≠ some r.port →
      (q.state = .down →
        Answers (.attach r partner) s .ok (.attached r.port x)
          (notifyOthersUp r.port (.portState r.port .up (.attach x))
            (u.setPort r.port { q with state := .up, partner := x, silence := 0 }))) ∧
      (q.state = .up →
        Answers (.attach r partner) s .ok (.partnerChanged q.partner x)
          (notifyOthersUp r.port (.portState r.port .up (.attach x)) (u.setPort r.port { q with partner := x })))) ∧
  (∀ (p : Port) (n : Notice) (s : State) (o : Port),
    (notifyOthersUp p n s).port o =
      if o ≠ p ∧ (s.port o).state = .up then (notify o n s).port o else s.port o) ∧
  ∀ (r : Sender) (s u : State) (q : PortRecord), Takes (.detach r) s u → q = u.port r.port →
    ∃ (t : State) (outbox : List Response) (held : List Held), exec (.detach r) s = .next t ∧
      t.port r.port =
        { q with
          state := .detaching
          requests := []
          inProgress := some ⟨r.tag, 145, .command (.detach r)⟩
          outbox := outbox
          held := held } ∧
      outbox ++ held.map (·.response) = q.outbox ++ q.held.map (·.response) ∧ (q.held = [] → held = []) ∧
      (∀ h ∈ held, ∀ w, h.wait = some w → ∀ x ∈ w.sources, x.sends ≠ none) ∧
      Released (q.held.map (heldAfterScan [] q.notices.length (fun _ => false))) q (t.port r.port) ∧
      (∀ o, o ≠ r.port →
        t.port o =
          if (u.port o).state = .up then (notify o (.portState r.port .detaching .detach) u).port o else u.port o) ∧
      t = { u with ports := t.ports }

/-- R190 to R193: a scan of a port queues the pending sources in scan order, each with its level now, as far as the queue has
room, and looks at the held responses again: those before the first that waits for something go to the link. A reported level
is stored, and every port is scanned. SUBSCRIBE sets the mask bit and scans when it turns a class on; ACK_ALARM clears the flags
it names and queues what is then pending; SYNC with no response held is answered at once when it notes nothing, and is held
else; behind held responses its own comes last in their order. A request of no known kind, or without its form, is refused
BAD_REQUEST and changes nothing (R186). (That this leaves a forming join window open also for BLOCK_CIRCUITS,
UNBLOCK_CIRCUITS and RETURN_GROUP without their form is the model's choice, notes/assumptions/18.md.) -/
def Obligations.AlarmRequests : Prop :=
  (∀ (s t : State) (p : Port), t = rescan p s →
    Scanned (scanQueues s p) s t p ∧ (scanQueues s p).Nodup ∧ (∀ a ∈ scanQueues s p, pendingOn s p a = true) ∧
      (∀ a, a.number < AlarmSource.count a.cls → pendingOn t p a = true → alarmRoom (t.port p) = false) ∧
      Scanned [] s (settleSync p s) p) ∧
  (∀ (s t w : State) (a : AlarmSource) (n : Nat), t = reportLevel a n s →
    w = { s with levels := s.levels.set a.index n } →
    (∀ p, t.port p = (rescan p w).port p) ∧ t = { w with ports := t.ports } ∧
      ∀ b, a.number < AlarmSource.count a.cls → b.number < AlarmSource.count b.cls →
        t.level b = if b = a then n else s.level b) ∧
  ∀ (r : Sender) (cls : Arg AlarmClass) (s u : State) (q : PortRecord), q = u.port r.port →
    (∀ on : Option Bool, Takes (.subscribe r cls on) s u →
      (cls.value? = none ∨ on = none → Refuses (.subscribe r cls on) s .badRequest u) ∧
      ∀ c b v w, cls = .given c → on = some b →
        w = u.setPort r.port { q with mask := q.mask.set c b } →
        v = (if b = true then rescan r.port w else settleSync r.port w) →
        Answers (.subscribe r cls on) s .ok
            (.mask (q.mask.set c b).groupCongestion (q.mask.set c b).planExhausted (q.mask.set c b).carrierHold
              (q.mask.set c b).settlementBacklog) v ∧
        (∀ d, (v.port r.port).mask.on d = if d = c then b else q.mask.on d) ∧
        (b = false → (v.port r.port).notices = q.notices ∧ (v.port r.port).alarms = q.alarms)) ∧
    (∀ source : Option Nat, Takes (.ackAlarm r cls source) s u →
      (cls.value? = none → Refuses (.ackAlarm r cls source) s .badRequest u) ∧
      ∀ c, cls = .given c →
        (∀ n, source = some n → AlarmSource.count c ≤ n → Refuses (.ackAlarm r cls source) s .outOfRange u) ∧
        ∀ named : AlarmSource → Prop,
          (∀ a, named a ↔ a.cls = c ∧ a.number < AlarmSource.count c ∧ (source = none ∨ source = some a.number)) →
          (∀ n, source = some n → n < AlarmSource.count c) →
          ∃ (v : State) (cleared queued : List AlarmSource),
            Answers (.ackAlarm r cls source) s .ok (.acknowledged cleared.length queued.length) v ∧
            cleared.Nodup ∧ (∀ a, a ∈ cleared ↔ named a ∧ (q.alarms.get a.index).outstanding = true) ∧
            queued.Nodup ∧ (∀ a ∈ queued, a.cls = c ∧ a.number < AlarmSource.count c) ∧
            (v.port r.port).notices = q.notices ++ queued.map (fun a => .alarm a (u.level a)) ∧
            (∀ a ∈ queued, (v.port r.port).alarms.get a.index = ⟨u.level a, true⟩) ∧
            (∀ a, a.number < AlarmSource.count a.cls → a ∉ queued →
              (v.port r.port).alarms.get a.index =
                ⟨(q.alarms.get a.index).lastSent,
                  (q.alarms.get a.index).outstanding && decide (a ∉ cleared)⟩) ∧
            (q.mask.on c = false → queued = []) ∧
            (∃ w : State,
              w = u.setPort r.port { q with alarms := (w.port r.port).alarms } ∧
                (∀ i, (w.port r.port).alarms.get i =
                  if i ∈ cleared.map AlarmSource.index then ⟨(q.alarms.get i).lastSent, false⟩ else q.alarms.get i) ∧
                queued = ((sourcesOf c).filter (pendingOn w r.port)).take (alarmPlaces q) ∧ Scanned queued w v r.port) ∧
            ∀ a, a.cls = c → a.number < AlarmSource.count c → pendingOn v r.port a = true →
              alarmRoom (v.port r.port) = false) ∧
    (∀ noted : List AlarmSource, Takes (.sync r) s u →
      noted = (allClasses.flatMap sourcesOf).filter (pendingOn u r.port) →
      (∃ (outbox : List Response) (held : List Held),
        exec (.sync r) s = .next (u.setPort r.port { q with outbox := outbox, held := held }) ∧
        outbox ++ held.map (·.response) =
          q.outbox ++ q.held.map (·.response) ++ [⟨148, r.tag, .ok, .synced q.notices.length noted.length⟩]) ∧
      (q.held = [] → q.notices = [] → noted = [] →
        exec (.sync r) s =
          .next (u.setPort r.port { q with outbox := q.outbox ++ [⟨148, r.tag, .ok, .synced 0 0⟩] })) ∧
      (q.held = [] → q.notices ≠ [] ∨ noted ≠ [] →
        exec (.sync r) s =
          .next
            (u.setPort r.port
              { q with
                held :=
                  [⟨⟨148, r.tag, .ok, .synced q.notices.length noted.length⟩,
                    some ⟨q.notices.length, noted.map (fun a => ⟨a, none⟩)⟩⟩] }))) ∧
    ∀ code, Takes (.unknownRequest r code) s u → Refuses (.unknownRequest r code) s .badRequest u

/-- R186, R188, R189: NOTICE_SENT takes the oldest notice from the queue once no response waits before it; a freed place goes
to a NOTICE_OVERFLOW with the drop count when that is above 0, and else to pending alarms, in scan order as far as the queue
has room (R190); a SYNC held waits for one notice less, and is released with the responses behind it once it waits for
nothing (R193). RESPONSE_SENT takes the oldest answer made at once, or else the oldest composed response that is not held.
While RESET_N is held asserted nothing is sent
(R195). (The order of the two kinds of response is DEDUCED: notes/assumptions/13.md; that a command with nothing to send
changes nothing is the model's choice: notes/assumptions/8.md.) -/
def Obligations.LinkSends : Prop :=
  ∀ (s : State) (p : Port) (r : PortRecord), PortsSound s → r = s.port p →
    (s.resetLine = true → exec (.noticeSent p) s = .next s ∧ exec (.responseSent p) s = .next s) ∧
    (r.answers ≠ [] ∨ r.outbox ≠ [] ∨ r.notices = [] → exec (.noticeSent p) s = .next s) ∧
    (∀ n rest, s.resetLine = false → r.answers = [] → r.outbox = [] → r.notices = n :: rest →
      ∀ (w : State) (queued : List AlarmSource),
        w = s.setPort p { r with notices := rest, held := r.held.map heldAfterSend } →
        queued = ((allClasses.flatMap sourcesOf).filter (pendingOn s p)).take (64 - rest.length) →
        ∃ t, exec (.noticeSent p) s = .next t ∧ (∀ o, o ≠ p → t.port o = s.port o) ∧ t = { s with ports := t.ports } ∧
          (0 < r.drops →
            (t.port p).notices = rest ++ [.noticeOverflow r.drops] ∧ (t.port p).alarms = r.alarms ∧
              Released ((w.port p).held.map (heldAfterScan [] 64 (pendingOn t p))) r (t.port p)) ∧
          (r.drops = 0 →
            Scanned queued w t p ∧
              ∀ a, a.number < AlarmSource.count a.cls → pendingOn t p a = true → alarmRoom (t.port p) = false) ∧
          (t.port p).drops = 0 ∧ SamePortFacts r (t.port p)) ∧
    (∀ x rest, s.resetLine = false → r.answers = x :: rest →
      exec (.responseSent p) s = .next (s.setPort p { r with answers := rest })) ∧
    (∀ x rest, s.resetLine = false → r.answers = [] → r.outbox = x :: rest →
      exec (.responseSent p) s = .next (s.setPort p { r with outbox := rest })) ∧
    (r.answers = [] → r.outbox = [] → exec (.responseSent p) s = .next s)

/-! ## The whole machine -/

/-- A step of the block takes the command at the front of its queue and executes it with the queue's rest; with an empty
queue it idles (the model's choice, notes/assumptions/14.md); and no run of steps ever stops in a fault or a refusal. -/
def Obligations.StepRunsFrontCommand : Prop :=
  (∀ (s : State) (c : Instr) (rest : List Instr), s.pending = c :: rest →
    step s = exec c { s with pending := rest }) ∧
  (∀ s : State, s.pending = [] → step s = .next s) ∧
  ∀ (n : Nat) (s : State), SafeRun n s

/-- R26, R47, R48, R52, R56, R63, R85, R88, R128, R133, R148, R179, R180, R195: the release of RESET_N, and POWER_ON, leave
every block at its reset values, which meet every invariant; the line asserted stays so until it is released. The queue of
waiting commands and the count of free values drawn are not the device's and stay (the model's choice,
notes/assumptions/15.md); so is that one RESET_N is one change of the line, and that its assertion leaves the rest of the
device as it is (notes/assumptions/38.md). -/
def Obligations.ResetValues : Prop :=
  (∀ s : State, s.resetLine = false → exec .resetN s = .next { s with resetLine := true }) ∧
  (∀ s : State, ∃ t, (s.resetLine = true → exec .resetN s = .next t) ∧ exec .powerOn s = .next t ∧
    t.pending = s.pending ∧ t.resetLine = false ∧ t.calls.offers = [] ∧ t.calls.releaseLists = [] ∧ t.calls.losses = [] ∧
    t.tariff.losses = [] ∧ t.service.losses = [] ∧ t.settlement.handed = [] ∧
    t.freeDrawn = s.freeDrawn ∧ t = { State.reset with pending := s.pending, freeDrawn := s.freeDrawn } ∧
    (∀ c, t.circuit c = none) ∧ (∀ n, t.group n = none ∧ t.svc n = ⟨.opened, 0, none, .inService⟩) ∧
    t.plant.locked = false ∧ t.service.batch = ⟨.none, [], ⟨false, false, false, false⟩, 0, none, none, none, false⟩ ∧
    (∀ ds, t.prefixEntry ds = none) ∧ (∀ d, t.dest d = ⟨0, false, false⟩ ∧ t.gap d = none) ∧ (∀ p, t.plan p = []) ∧
    t.routes.reattemptLimit = 3 ∧ (∀ k, t.memorySet k = ⟨[none, none, none, none], 0⟩) ∧ (∀ k, t.slot k = ⟨0, none⟩) ∧
    t.calls.orphans = [] ∧ t.calls.reselections = [] ∧ t.calls.orphanLimit = 120 ∧ t.now = 0 ∧
    t.tariff.weekTime = none ∧ t.tariff.live.number = 0 ∧ t.tariff.live.references = 0 ∧
    (∀ c k, t.tariff.live.tariffs.entry c k = ⟨0, 0, 0, 0, 0, 1, 1, 0, 0, 0⟩) ∧
    (∀ c, t.tariff.live.tariffs.margins.get c = 0) ∧
    (∀ d i, (t.tariff.live.tariffs.schedule d).get i = .band0) ∧
    (∀ d, t.tariff.live.tariffs.weekMap.get d = .workday) ∧ t.tariff.retired = none ∧
    t.tariff.staging = ⟨.none, none, none, none, none⟩ ∧ (∀ k, t.pair k = ⟨0, 0, 0, 0, 0, 0, 0, false⟩) ∧
    (∀ c, t.carrier c = ⟨0, 0, false⟩) ∧ t.settlement.queue = [] ∧ t.settlement.backlog = false ∧
    t.settlement.period = 0 ∧ t.settlement.closed = none ∧ (∀ a, t.level a = 0) ∧
    ∀ p, (t.port p).state = .down ∧ (t.port p).partner = none ∧ (t.port p).requests = [] ∧
      (t.port p).inProgress = none ∧ (t.port p).held = [] ∧ (t.port p).notices = [] ∧ (t.port p).drops = 0 ∧
      (t.port p).fetchBlock = none ∧ (t.port p).mask = ⟨false, false, false, false⟩ ∧
      ∀ i, (t.port p).alarms.get i = ⟨0, false⟩) ∧
  PlantSound State.reset ∧ PortsSound State.reset ∧ TariffSound State.reset ∧ SettlementSound State.reset ∧
  LedgerSound State.reset ∧ AnalyserSound State.reset ∧ RoutesSound State.reset ∧ MemorySound State.reset ∧
  CallsSound State.reset ∧ BatchSound State.reset ∧ PendingBusy State.reset ∧ LevelsSound State.reset ∧
  LegsSound State.reset ∧ ReferencesSound State.reset

/-- R1 to R3, R28, R45, R46, R170, R173: every command keeps the idle set, the counts and the ranges of every group in step
with the circuits; and it keeps a group FULL exactly while no circuit of it is available, each plan exhausted exactly as its
groups stand, and each alarm level that of its own block. -/
def Obligations.PlantStaysSound : Prop :=
  ∀ (c : Instr) (s t : State), PlantSound s → exec c s = .next t →
    PlantSound t ∧ (RoutesSound s → LevelsSound s → LevelsSound t)

/-- R129 to R136, R164 to R173, R180, R188, R189: every command keeps the port records, the tariff store and the settlement
unit within the values their rules give, and the reference counts of the live and the retired generation equal to the numbers
of ANSWERED calls bound to them (R135). -/
def Obligations.PortsTariffAndSettlementStaySound : Prop :=
  ∀ (c : Instr) (s t : State), exec c s = .next t →
    (PortsSound s → PortsSound t) ∧ (TariffSound s → TariffSound t) ∧ (SettlementSound s → SettlementSound t) ∧
    (LedgerSound s → LedgerSound t) ∧
    (TariffSound s → CallsSound s → LegsSound s → ReferencesSound s → ReferencesSound t)

/-- R48, R52, R56, R63, R88, R89, R103, R104, R122: every command keeps the tables of the analyser, the route selector, the
route memory and the call table within the values their rules give; a valid route-memory entry stays a POOL step of the plan
that its destination names; and each BUSY_IN or BUSY_OUT circuit stays a leg of the one call that it names, and each leg of a
call such a circuit (R104), an OFFER in progress included. (That the queued reselections are those of the calls that wait for
one, and of no call that has ended, is DEDUCED: notes/assumptions/31.md.) -/
def Obligations.TablesStaySound : Prop :=
  ∀ (c : Instr) (s t : State), AnalyserSound s → RoutesSound s → MemorySound s → CallsSound s → exec c s = .next t →
    AnalyserSound t ∧ RoutesSound t ∧ MemorySound t ∧ CallsSound t ∧ (PlantSound s → LegsSound s → LegsSound t)

/-- R32, R33, R36 to R43: every command keeps the drain batch record and the groups' service states in step, and no pending
member of a DRAINING batch without a busy circuit (R37). -/
def Obligations.BatchStaysSound : Prop :=
  ∀ (c : Instr) (s t : State), BatchSound s → exec c s = .next t →
    BatchSound t ∧ (PendingBusy s → PendingBusy t)
end

