-- ==== Sys2Proof/Laws/Table.lean ====
section
/-! SUPPORT. The laws of tables: what is read after a write, and that every operation keeps the canonical form. -/

namespace Sys2Proof.Machine

variable {α : Type} {d : α}

/-! ## Reading after a write -/

/-- A list all of whose numbers lie above `k` reads as `d` at `k`. -/
theorem lookupIn_of_all_gt (l : List (Nat × α)) (k : Nat) (h : ∀ e ∈ l, k < e.1) : lookupIn d l k = d := by
  cases l with
  | nil => rfl
  | cons e l =>
    have he := h e (by simp)
    simp only [lookupIn]
    rw [if_neg (by omega), if_pos he]

/-- Dropping the numbers up to `i` changes no reading above `i`. -/
theorem lookupIn_dropWhile (l : List (Nat × α)) (i k : Nat) (h : i < k) :
    lookupIn d (l.dropWhile (fun e => decide (e.1 ≤ i))) k = lookupIn d l k := by
  induction l with
  | nil => rfl
  | cons e l ih =>
    by_cases he : e.1 ≤ i
    · rw [List.dropWhile_cons_of_pos (by simpa using he), ih]
      simp only [lookupIn]
      rw [if_neg (by omega), if_neg (by omega)]
    · rw [List.dropWhile_cons_of_neg (by simpa using he)]

/-- After dropping the numbers up to `k`, nothing is listed at or below `k` before a greater number. -/
theorem lookupIn_dropWhile_le (l : List (Nat × α)) (k j : Nat) (h : j ≤ k) :
    lookupIn d (l.dropWhile (fun e => decide (e.1 ≤ k))) j = d := by
  induction l with
  | nil => rfl
  | cons e l ih =>
    by_cases he : e.1 ≤ k
    · rw [List.dropWhile_cons_of_pos (by simpa using he), ih]
    · rw [List.dropWhile_cons_of_neg (by simpa using he)]
      simp only [lookupIn]
      rw [if_neg (by omega), if_pos (by omega)]

/-- What is read at `k` right after a value was written at `k`. -/
theorem lookupIn_writeIn_same [DecidableEq α] (l : List (Nat × α)) (k : Nat) (v : α) :
    lookupIn d (writeIn d l k v) k = v := by
  induction l with
  | nil => by_cases hv : v = d <;> simp [writeIn, lookupIn, hv]
  | cons e l ih =>
    simp only [writeIn]
    by_cases h1 : e.1 < k
    · rw [if_pos h1]
      simp only [lookupIn]
      rw [if_neg (by omega), if_neg (by omega), ih]
    · rw [if_neg h1]
      by_cases h2 : e.1 = k
      · by_cases hv : v = d
        · simp only [if_pos h2, if_pos hv]
          rw [hv]; exact lookupIn_dropWhile_le l k k (Nat.le_refl k)
        · simp [if_neg hv, lookupIn]
      · by_cases hv : v = d
        · simp only [if_neg h2, if_pos hv, lookupIn]
          rw [if_pos (by omega), hv]
        · simp [if_neg hv, lookupIn]

/-- What is read elsewhere after a value was written at `k`. -/
theorem lookupIn_writeIn_other [DecidableEq α] (l : List (Nat × α)) (k j : Nat) (v : α) (h : j ≠ k) :
    lookupIn d (writeIn d l k v) j = lookupIn d l j := by
  induction l with
  | nil =>
    by_cases hv : v = d
    · simp [writeIn, hv]
    · simp only [writeIn, if_neg hv, lookupIn]
      rw [if_neg (by omega), ite_self]
  | cons e l ih =>
    simp only [writeIn]
    by_cases h1 : e.1 < k
    · rw [if_pos h1]
      simp only [lookupIn]
      rw [ih]
    · rw [if_neg h1]
      by_cases h2 : e.1 = k
      · have drop : lookupIn d (l.dropWhile (fun x => decide (x.1 ≤ k))) j = lookupIn d (e :: l) j := by
          simp only [lookupIn]
          rw [if_neg (by omega)]
          by_cases hj : j < e.1
          · rw [if_pos hj]; exact lookupIn_dropWhile_le l k j (by omega)
          · rw [if_neg hj]; exact lookupIn_dropWhile l k j (by omega)
        by_cases hv : v = d
        · simp only [if_pos h2, if_pos hv]; exact drop
        · simp only [if_pos h2, if_neg hv]
          conv => lhs; simp only [lookupIn]
          rw [if_neg (by omega)]
          by_cases hj : j < k
          · rw [if_pos hj]; simp only [lookupIn]; rw [if_neg (by omega), if_pos (by omega)]
          · rw [if_neg hj]; exact drop
      · by_cases hv : v = d
        · simp only [if_neg h2, if_pos hv]
        · simp only [if_neg h2, if_neg hv]
          conv => lhs; simp only [lookupIn]
          rw [if_neg (by omega)]
          by_cases hj : j < k
          · rw [if_pos hj]; simp only [lookupIn]; rw [if_neg (by omega), if_pos (by omega)]
          · rw [if_neg hj]; simp only [lookupIn]

@[simp] theorem Table.get_empty (k : Nat) : (Table.empty : Table α d).get k = d := rfl

@[simp] theorem Table.get_set_same [DecidableEq α] (t : Table α d) (k : Nat) (v : α) : (t.set k v).get k = v :=
  lookupIn_writeIn_same t.entries k v

theorem Table.get_set_other [DecidableEq α] (t : Table α d) (k j : Nat) (v : α) (h : j ≠ k) :
    (t.set k v).get j = t.get j :=
  lookupIn_writeIn_other t.entries k j v h

/-- Reading after a write, both cases. -/
theorem Table.get_set [DecidableEq α] (t : Table α d) (k j : Nat) (v : α) :
    (t.set k v).get j = if j = k then v else t.get j := by
  by_cases h : j = k
  · rw [if_pos h, h]; exact t.get_set_same k v
  · rw [if_neg h]; exact t.get_set_other k j v h

/-! ## The canonical form -/

/-- The numbers of a list rise strictly, as a proposition over the list. -/
theorem rising_iff (l : List Nat) : rising l = true ↔ l.Pairwise (· < ·) := by
  induction l with
  | nil => simp [rising]
  | cons i l ih =>
    cases l with
    | nil => simp [rising]
    | cons j l =>
      simp only [rising, Bool.and_eq_true, decide_eq_true_eq, ih, List.pairwise_cons]
      constructor
      · rintro ⟨hij, hj, hl⟩
        refine ⟨?_, hj, hl⟩
        intro x hx
        rcases List.mem_cons.mp hx with rfl | hx
        · exact hij
        · exact Nat.lt_trans hij (hj x hx)
      · rintro ⟨hi, hj, hl⟩
        exact ⟨hi j (by simp), hj, hl⟩

/-- The canonical form as a proposition: the numbers rise and no listed record is `d`. -/
theorem Table.wf_iff [DecidableEq α] (t : Table α d) :
    t.wf = true ↔ t.entries.Pairwise (fun e f => e.1 < f.1) ∧ ∀ e ∈ t.entries, e.2 ≠ d := by
  simp [Table.wf, Table.keys, rising_iff, List.pairwise_map]

theorem Table.empty_wf [DecidableEq α] : (Table.empty : Table α d).wf = true := by
  simp [Table.wf_iff, Table.empty]

/-- The numbers that a write can list are the old ones and the written one. -/
theorem mem_writeIn [DecidableEq α] (l : List (Nat × α)) (k : Nat) (v : α) (e : Nat × α) (h : e ∈ writeIn d l k v) :
    e ∈ l ∨ (e = (k, v) ∧ v ≠ d) := by
  induction l with
  | nil =>
    by_cases hv : v = d
    · simp [writeIn, hv] at h
    · simp [writeIn, hv] at h; exact Or.inr ⟨h, hv⟩
  | cons f l ih =>
    simp only [writeIn] at h
    by_cases h1 : f.1 < k
    · rw [if_pos h1] at h
      rcases List.mem_cons.mp h with rfl | h
      · exact Or.inl (by simp)
      · rcases ih h with h | h
        · exact Or.inl (by simp [h])
        · exact Or.inr h
    · rw [if_neg h1] at h
      have tail : ∀ x, x ∈ (if f.1 = k then l.dropWhile (fun e => decide (e.1 ≤ k)) else f :: l) → x ∈ f :: l := by
        intro x hx
        by_cases h2 : f.1 = k
        · rw [if_pos h2] at hx; exact List.mem_cons_of_mem f ((List.dropWhile_sublist _).subset hx)
        · rw [if_neg h2] at hx; exact hx
      by_cases hv : v = d
      · rw [if_pos hv] at h; exact Or.inl (tail e h)
      · rw [if_neg hv] at h
        rcases List.mem_cons.mp h with rfl | h
        · exact Or.inr ⟨rfl, hv⟩
        · exact Or.inl (tail e h)

/-- A write keeps a list's numbers rising. -/
theorem writeIn_pairwise [DecidableEq α] (l : List (Nat × α)) (k : Nat) (v : α)
    (h : l.Pairwise (fun e f => e.1 < f.1)) : (writeIn d l k v).Pairwise (fun e f => e.1 < f.1) := by
  induction l with
  | nil => by_cases hv : v = d <;> simp [writeIn, hv]
  | cons f l ih =>
    obtain ⟨hf, hl⟩ := List.pairwise_cons.mp h
    simp only [writeIn]
    by_cases h1 : f.1 < k
    · rw [if_pos h1, List.pairwise_cons]
      refine ⟨?_, ih hl⟩
      intro e he
      rcases mem_writeIn l k v e he with he | ⟨rfl, -⟩
      · exact hf e he
      · exact h1
    · rw [if_neg h1]
      have above : (if f.1 = k then l.dropWhile (fun e => decide (e.1 ≤ k)) else f :: l).Pairwise
          (fun e f => e.1 < f.1) := by
        by_cases h2 : f.1 = k
        · rw [if_pos h2]; exact hl.sublist (List.dropWhile_sublist _)
        · rw [if_neg h2]; exact h
      have gt : ∀ e ∈ (if f.1 = k then l.dropWhile (fun e => decide (e.1 ≤ k)) else f :: l), k < e.1 := by
        intro e he
        by_cases h2 : f.1 = k
        · rw [if_pos h2] at he
          have := hf e ((List.dropWhile_sublist _).subset he)
          omega
        · rw [if_neg h2] at he
          rcases List.mem_cons.mp he with rfl | he
          · omega
          · have := hf e he; omega
      by_cases hv : v = d
      · rw [if_pos hv]; exact above
      · rw [if_neg hv, List.pairwise_cons]; exact ⟨gt, above⟩

/-- A write keeps the canonical form. -/
theorem Table.set_wf [DecidableEq α] (t : Table α d) (k : Nat) (v : α) (h : t.wf = true) : (t.set k v).wf = true := by
  rw [Table.wf_iff] at h ⊢
  refine ⟨writeIn_pairwise t.entries k v h.1, ?_⟩
  intro e he
  rcases mem_writeIn t.entries k v e he with he | ⟨rfl, hv⟩
  · exact h.2 e he
  · exact hv

/-- A map over the listed records keeps the canonical form. -/
theorem Table.mapValues_wf [DecidableEq α] (f : Nat → α → α) (t : Table α d) (h : t.wf = true) :
    (t.mapValues f).wf = true := by
  rw [Table.wf_iff] at h ⊢
  constructor
  · refine List.Pairwise.filter _ ?_
    rw [List.pairwise_map]
    exact h.1
  · intro e he
    simpa using (List.mem_filter.mp he).2

/-- Reading in a list whose numbers rise, after a map that keeps `d`. -/
theorem lookupIn_map_filter [DecidableEq α] (f : Nat → α → α) (l : List (Nat × α)) (k : Nat)
    (h : l.Pairwise (fun e f => e.1 < f.1)) (hd : f k d = d) :
    lookupIn d ((l.map (fun e => (e.1, f e.1 e.2))).filter (fun e => decide (e.2 ≠ d))) k = f k (lookupIn d l k) := by
  induction l with
  | nil => simp [lookupIn, hd]
  | cons e l ih =>
    obtain ⟨he, hl⟩ := List.pairwise_cons.mp h
    have ih := ih hl
    have later : k ≤ e.1 → lookupIn d ((l.map (fun e => (e.1, f e.1 e.2))).filter (fun e => decide (e.2 ≠ d))) k = d := by
      intro hk
      refine lookupIn_of_all_gt _ k ?_
      intro x hx
      obtain ⟨y, hy, rfl⟩ := List.mem_map.mp (List.mem_filter.mp hx).1
      have := he y hy
      simp only
      omega
    by_cases hv : f e.1 e.2 = d
    · rw [List.map_cons, List.filter_cons_of_neg (by simpa using hv)]
      conv => rhs; simp only [lookupIn]
      by_cases h1 : e.1 = k
      · rw [if_pos h1, later (by omega), ← h1, hv]
      · rw [if_neg h1]
        by_cases h2 : k < e.1
        · rw [if_pos h2, later (by omega), hd]
        · rw [if_neg h2, ih]
    · rw [List.map_cons, List.filter_cons_of_pos (by simpa using hv)]
      simp only [lookupIn]
      by_cases h1 : e.1 = k
      · rw [if_pos h1, if_pos h1, h1]
      · rw [if_neg h1, if_neg h1]
        by_cases h2 : k < e.1
        · rw [if_pos h2, if_pos h2, hd]
        · rw [if_neg h2, if_neg h2]; exact ih

/-- Reading a canonical table after a map that keeps `d`. -/
theorem Table.get_mapValues [DecidableEq α] (f : Nat → α → α) (t : Table α d) (k : Nat) (h : t.wf = true)
    (hd : f k d = d) : (t.mapValues f).get k = f k (t.get k) :=
  lookupIn_map_filter f t.entries k ((Table.wf_iff t).mp h).1 hd

/-- What a canonical table lists is what it reads as, but for the value that is not listed. -/
theorem Table.mem_iff [DecidableEq α] (t : Table α d) (k : Nat) (v : α) (h : t.wf = true) :
    (k, v) ∈ t.entries ↔ t.get k = v ∧ v ≠ d := by
  obtain ⟨l⟩ := t
  obtain ⟨hp, hd⟩ := (Table.wf_iff _).mp h
  simp only [Table.get] at hp hd ⊢
  clear h
  induction l with
  | nil => simp [lookupIn]; intro e; exact e.symm
  | cons e l ih =>
    obtain ⟨he, hl⟩ := List.pairwise_cons.mp hp
    have ih := ih hl (fun x hx => hd x (List.mem_cons_of_mem e hx))
    simp only [lookupIn, List.mem_cons]
    by_cases h1 : e.1 = k
    · rw [if_pos h1]
      constructor
      · rintro (rfl | hm)
        · exact ⟨rfl, hd (k, v) (by simp)⟩
        · have := he _ hm
          simp only at this
          omega
      · rintro ⟨rfl, -⟩
        exact Or.inl (by rw [← h1])
    · rw [if_neg h1]
      by_cases h2 : k < e.1
      · rw [if_pos h2]
        constructor
        · rintro (rfl | hm)
          · exact absurd rfl h1
          · have := he _ hm
            simp only at this
            omega
        · rintro ⟨rfl, h3⟩
          exact absurd rfl h3
      · rw [if_neg h2, ← ih]
        constructor
        · rintro (rfl | hm)
          · exact absurd rfl h1
          · exact hm
        · exact Or.inr

/-! ## The four ports -/

@[simp] theorem PerPort.get_set_same {α : Type} (v : PerPort α) (p : Port) (x : α) : (v.set p x).get p = x := by
  cases p <;> rfl

theorem PerPort.get_set_other {α : Type} (v : PerPort α) (p q : Port) (x : α) (h : q ≠ p) :
    (v.set p x).get q = v.get q := by
  cases p <;> cases q <;> first | rfl | exact absurd rfl h

@[simp] theorem PerPort.get_all {α : Type} (x : α) (p : Port) : (PerPort.all x).get p = x := by cases p <;> rfl

/-- Writing a port's own value back changes nothing. -/
@[simp] theorem PerPort.set_get {α : Type} (v : PerPort α) (p : Port) : v.set p (v.get p) = v := by cases p <;> rfl

end Sys2Proof.Machine
end

