-- ==== Sys2Proof/Laws/State.lean ====
section
/-! SUPPORT. The small lemmas of the state: for each named update, each block it leaves as it was (true by unfolding),
and what its own record reads after it. -/

namespace Sys2Proof.Machine

/-! ## setCircuit -/

@[simp] theorem State.setCircuit_service (s : State) (c : Nat) (e : Option Equipped) : (s.setCircuit c e).service = s.service := rfl
@[simp] theorem State.setCircuit_analyser (s : State) (c : Nat) (e : Option Equipped) : (s.setCircuit c e).analyser = s.analyser := rfl
@[simp] theorem State.setCircuit_routes (s : State) (c : Nat) (e : Option Equipped) : (s.setCircuit c e).routes = s.routes := rfl
@[simp] theorem State.setCircuit_memory (s : State) (c : Nat) (e : Option Equipped) : (s.setCircuit c e).memory = s.memory := rfl
@[simp] theorem State.setCircuit_calls (s : State) (c : Nat) (e : Option Equipped) : (s.setCircuit c e).calls = s.calls := rfl
@[simp] theorem State.setCircuit_tariff (s : State) (c : Nat) (e : Option Equipped) : (s.setCircuit c e).tariff = s.tariff := rfl
@[simp] theorem State.setCircuit_settlement (s : State) (c : Nat) (e : Option Equipped) : (s.setCircuit c e).settlement = s.settlement := rfl
@[simp] theorem State.setCircuit_ports (s : State) (c : Nat) (e : Option Equipped) : (s.setCircuit c e).ports = s.ports := rfl
@[simp] theorem State.setCircuit_levels (s : State) (c : Nat) (e : Option Equipped) : (s.setCircuit c e).levels = s.levels := rfl
@[simp] theorem State.setCircuit_resetLine (s : State) (c : Nat) (e : Option Equipped) : (s.setCircuit c e).resetLine = s.resetLine := rfl
@[simp] theorem State.setCircuit_freeDrawn (s : State) (c : Nat) (e : Option Equipped) : (s.setCircuit c e).freeDrawn = s.freeDrawn := rfl
@[simp] theorem State.setCircuit_pending (s : State) (c : Nat) (e : Option Equipped) : (s.setCircuit c e).pending = s.pending := rfl

/-! ## setGroup -/

@[simp] theorem State.setGroup_service (s : State) (g : Nat) (r : Option Group) : (s.setGroup g r).service = s.service := rfl
@[simp] theorem State.setGroup_analyser (s : State) (g : Nat) (r : Option Group) : (s.setGroup g r).analyser = s.analyser := rfl
@[simp] theorem State.setGroup_routes (s : State) (g : Nat) (r : Option Group) : (s.setGroup g r).routes = s.routes := rfl
@[simp] theorem State.setGroup_memory (s : State) (g : Nat) (r : Option Group) : (s.setGroup g r).memory = s.memory := rfl
@[simp] theorem State.setGroup_calls (s : State) (g : Nat) (r : Option Group) : (s.setGroup g r).calls = s.calls := rfl
@[simp] theorem State.setGroup_tariff (s : State) (g : Nat) (r : Option Group) : (s.setGroup g r).tariff = s.tariff := rfl
@[simp] theorem State.setGroup_settlement (s : State) (g : Nat) (r : Option Group) : (s.setGroup g r).settlement = s.settlement := rfl
@[simp] theorem State.setGroup_ports (s : State) (g : Nat) (r : Option Group) : (s.setGroup g r).ports = s.ports := rfl
@[simp] theorem State.setGroup_levels (s : State) (g : Nat) (r : Option Group) : (s.setGroup g r).levels = s.levels := rfl
@[simp] theorem State.setGroup_resetLine (s : State) (g : Nat) (r : Option Group) : (s.setGroup g r).resetLine = s.resetLine := rfl
@[simp] theorem State.setGroup_freeDrawn (s : State) (g : Nat) (r : Option Group) : (s.setGroup g r).freeDrawn = s.freeDrawn := rfl
@[simp] theorem State.setGroup_pending (s : State) (g : Nat) (r : Option Group) : (s.setGroup g r).pending = s.pending := rfl

/-! ## setSvc -/

@[simp] theorem State.setSvc_plant (s : State) (g : Nat) (v : GroupService) : (s.setSvc g v).plant = s.plant := rfl
@[simp] theorem State.setSvc_analyser (s : State) (g : Nat) (v : GroupService) : (s.setSvc g v).analyser = s.analyser := rfl
@[simp] theorem State.setSvc_routes (s : State) (g : Nat) (v : GroupService) : (s.setSvc g v).routes = s.routes := rfl
@[simp] theorem State.setSvc_memory (s : State) (g : Nat) (v : GroupService) : (s.setSvc g v).memory = s.memory := rfl
@[simp] theorem State.setSvc_calls (s : State) (g : Nat) (v : GroupService) : (s.setSvc g v).calls = s.calls := rfl
@[simp] theorem State.setSvc_tariff (s : State) (g : Nat) (v : GroupService) : (s.setSvc g v).tariff = s.tariff := rfl
@[simp] theorem State.setSvc_settlement (s : State) (g : Nat) (v : GroupService) : (s.setSvc g v).settlement = s.settlement := rfl
@[simp] theorem State.setSvc_ports (s : State) (g : Nat) (v : GroupService) : (s.setSvc g v).ports = s.ports := rfl
@[simp] theorem State.setSvc_levels (s : State) (g : Nat) (v : GroupService) : (s.setSvc g v).levels = s.levels := rfl
@[simp] theorem State.setSvc_resetLine (s : State) (g : Nat) (v : GroupService) : (s.setSvc g v).resetLine = s.resetLine := rfl
@[simp] theorem State.setSvc_freeDrawn (s : State) (g : Nat) (v : GroupService) : (s.setSvc g v).freeDrawn = s.freeDrawn := rfl
@[simp] theorem State.setSvc_pending (s : State) (g : Nat) (v : GroupService) : (s.setSvc g v).pending = s.pending := rfl

/-! ## setBatch -/

@[simp] theorem State.setBatch_plant (s : State) (b : DrainBatch) : (s.setBatch b).plant = s.plant := rfl
@[simp] theorem State.setBatch_analyser (s : State) (b : DrainBatch) : (s.setBatch b).analyser = s.analyser := rfl
@[simp] theorem State.setBatch_routes (s : State) (b : DrainBatch) : (s.setBatch b).routes = s.routes := rfl
@[simp] theorem State.setBatch_memory (s : State) (b : DrainBatch) : (s.setBatch b).memory = s.memory := rfl
@[simp] theorem State.setBatch_calls (s : State) (b : DrainBatch) : (s.setBatch b).calls = s.calls := rfl
@[simp] theorem State.setBatch_tariff (s : State) (b : DrainBatch) : (s.setBatch b).tariff = s.tariff := rfl
@[simp] theorem State.setBatch_settlement (s : State) (b : DrainBatch) : (s.setBatch b).settlement = s.settlement := rfl
@[simp] theorem State.setBatch_ports (s : State) (b : DrainBatch) : (s.setBatch b).ports = s.ports := rfl
@[simp] theorem State.setBatch_levels (s : State) (b : DrainBatch) : (s.setBatch b).levels = s.levels := rfl
@[simp] theorem State.setBatch_resetLine (s : State) (b : DrainBatch) : (s.setBatch b).resetLine = s.resetLine := rfl
@[simp] theorem State.setBatch_freeDrawn (s : State) (b : DrainBatch) : (s.setBatch b).freeDrawn = s.freeDrawn := rfl
@[simp] theorem State.setBatch_pending (s : State) (b : DrainBatch) : (s.setBatch b).pending = s.pending := rfl

/-! ## setGap -/

@[simp] theorem State.setGap_plant (s : State) (d : Nat) (g : Option Gap) : (s.setGap d g).plant = s.plant := rfl
@[simp] theorem State.setGap_service (s : State) (d : Nat) (g : Option Gap) : (s.setGap d g).service = s.service := rfl
@[simp] theorem State.setGap_routes (s : State) (d : Nat) (g : Option Gap) : (s.setGap d g).routes = s.routes := rfl
@[simp] theorem State.setGap_memory (s : State) (d : Nat) (g : Option Gap) : (s.setGap d g).memory = s.memory := rfl
@[simp] theorem State.setGap_calls (s : State) (d : Nat) (g : Option Gap) : (s.setGap d g).calls = s.calls := rfl
@[simp] theorem State.setGap_tariff (s : State) (d : Nat) (g : Option Gap) : (s.setGap d g).tariff = s.tariff := rfl
@[simp] theorem State.setGap_settlement (s : State) (d : Nat) (g : Option Gap) : (s.setGap d g).settlement = s.settlement := rfl
@[simp] theorem State.setGap_ports (s : State) (d : Nat) (g : Option Gap) : (s.setGap d g).ports = s.ports := rfl
@[simp] theorem State.setGap_levels (s : State) (d : Nat) (g : Option Gap) : (s.setGap d g).levels = s.levels := rfl
@[simp] theorem State.setGap_resetLine (s : State) (d : Nat) (g : Option Gap) : (s.setGap d g).resetLine = s.resetLine := rfl
@[simp] theorem State.setGap_freeDrawn (s : State) (d : Nat) (g : Option Gap) : (s.setGap d g).freeDrawn = s.freeDrawn := rfl
@[simp] theorem State.setGap_pending (s : State) (d : Nat) (g : Option Gap) : (s.setGap d g).pending = s.pending := rfl

/-! ## setSlot -/

@[simp] theorem State.setSlot_plant (s : State) (k : Nat) (v : Slot) : (s.setSlot k v).plant = s.plant := rfl
@[simp] theorem State.setSlot_service (s : State) (k : Nat) (v : Slot) : (s.setSlot k v).service = s.service := rfl
@[simp] theorem State.setSlot_analyser (s : State) (k : Nat) (v : Slot) : (s.setSlot k v).analyser = s.analyser := rfl
@[simp] theorem State.setSlot_routes (s : State) (k : Nat) (v : Slot) : (s.setSlot k v).routes = s.routes := rfl
@[simp] theorem State.setSlot_memory (s : State) (k : Nat) (v : Slot) : (s.setSlot k v).memory = s.memory := rfl
@[simp] theorem State.setSlot_tariff (s : State) (k : Nat) (v : Slot) : (s.setSlot k v).tariff = s.tariff := rfl
@[simp] theorem State.setSlot_settlement (s : State) (k : Nat) (v : Slot) : (s.setSlot k v).settlement = s.settlement := rfl
@[simp] theorem State.setSlot_ports (s : State) (k : Nat) (v : Slot) : (s.setSlot k v).ports = s.ports := rfl
@[simp] theorem State.setSlot_levels (s : State) (k : Nat) (v : Slot) : (s.setSlot k v).levels = s.levels := rfl
@[simp] theorem State.setSlot_resetLine (s : State) (k : Nat) (v : Slot) : (s.setSlot k v).resetLine = s.resetLine := rfl
@[simp] theorem State.setSlot_freeDrawn (s : State) (k : Nat) (v : Slot) : (s.setSlot k v).freeDrawn = s.freeDrawn := rfl
@[simp] theorem State.setSlot_pending (s : State) (k : Nat) (v : Slot) : (s.setSlot k v).pending = s.pending := rfl

/-! ## setCall -/

@[simp] theorem State.setCall_plant (s : State) (k : Nat) (c : Call) : (s.setCall k c).plant = s.plant := rfl
@[simp] theorem State.setCall_service (s : State) (k : Nat) (c : Call) : (s.setCall k c).service = s.service := rfl
@[simp] theorem State.setCall_analyser (s : State) (k : Nat) (c : Call) : (s.setCall k c).analyser = s.analyser := rfl
@[simp] theorem State.setCall_routes (s : State) (k : Nat) (c : Call) : (s.setCall k c).routes = s.routes := rfl
@[simp] theorem State.setCall_memory (s : State) (k : Nat) (c : Call) : (s.setCall k c).memory = s.memory := rfl
@[simp] theorem State.setCall_tariff (s : State) (k : Nat) (c : Call) : (s.setCall k c).tariff = s.tariff := rfl
@[simp] theorem State.setCall_settlement (s : State) (k : Nat) (c : Call) : (s.setCall k c).settlement = s.settlement := rfl
@[simp] theorem State.setCall_ports (s : State) (k : Nat) (c : Call) : (s.setCall k c).ports = s.ports := rfl
@[simp] theorem State.setCall_levels (s : State) (k : Nat) (c : Call) : (s.setCall k c).levels = s.levels := rfl
@[simp] theorem State.setCall_resetLine (s : State) (k : Nat) (c : Call) : (s.setCall k c).resetLine = s.resetLine := rfl
@[simp] theorem State.setCall_freeDrawn (s : State) (k : Nat) (c : Call) : (s.setCall k c).freeDrawn = s.freeDrawn := rfl
@[simp] theorem State.setCall_pending (s : State) (k : Nat) (c : Call) : (s.setCall k c).pending = s.pending := rfl

/-! ## setCarrier -/

@[simp] theorem State.setCarrier_plant (s : State) (c : Nat) (r : Carrier) : (s.setCarrier c r).plant = s.plant := rfl
@[simp] theorem State.setCarrier_service (s : State) (c : Nat) (r : Carrier) : (s.setCarrier c r).service = s.service := rfl
@[simp] theorem State.setCarrier_analyser (s : State) (c : Nat) (r : Carrier) : (s.setCarrier c r).analyser = s.analyser := rfl
@[simp] theorem State.setCarrier_routes (s : State) (c : Nat) (r : Carrier) : (s.setCarrier c r).routes = s.routes := rfl
@[simp] theorem State.setCarrier_memory (s : State) (c : Nat) (r : Carrier) : (s.setCarrier c r).memory = s.memory := rfl
@[simp] theorem State.setCarrier_calls (s : State) (c : Nat) (r : Carrier) : (s.setCarrier c r).calls = s.calls := rfl
@[simp] theorem State.setCarrier_tariff (s : State) (c : Nat) (r : Carrier) : (s.setCarrier c r).tariff = s.tariff := rfl
@[simp] theorem State.setCarrier_ports (s : State) (c : Nat) (r : Carrier) : (s.setCarrier c r).ports = s.ports := rfl
@[simp] theorem State.setCarrier_levels (s : State) (c : Nat) (r : Carrier) : (s.setCarrier c r).levels = s.levels := rfl
@[simp] theorem State.setCarrier_resetLine (s : State) (c : Nat) (r : Carrier) : (s.setCarrier c r).resetLine = s.resetLine := rfl
@[simp] theorem State.setCarrier_freeDrawn (s : State) (c : Nat) (r : Carrier) : (s.setCarrier c r).freeDrawn = s.freeDrawn := rfl
@[simp] theorem State.setCarrier_pending (s : State) (c : Nat) (r : Carrier) : (s.setCarrier c r).pending = s.pending := rfl

/-! ## setStaging -/

@[simp] theorem State.setStaging_plant (s : State) (t : Staging) : (s.setStaging t).plant = s.plant := rfl
@[simp] theorem State.setStaging_service (s : State) (t : Staging) : (s.setStaging t).service = s.service := rfl
@[simp] theorem State.setStaging_analyser (s : State) (t : Staging) : (s.setStaging t).analyser = s.analyser := rfl
@[simp] theorem State.setStaging_routes (s : State) (t : Staging) : (s.setStaging t).routes = s.routes := rfl
@[simp] theorem State.setStaging_memory (s : State) (t : Staging) : (s.setStaging t).memory = s.memory := rfl
@[simp] theorem State.setStaging_calls (s : State) (t : Staging) : (s.setStaging t).calls = s.calls := rfl
@[simp] theorem State.setStaging_settlement (s : State) (t : Staging) : (s.setStaging t).settlement = s.settlement := rfl
@[simp] theorem State.setStaging_ports (s : State) (t : Staging) : (s.setStaging t).ports = s.ports := rfl
@[simp] theorem State.setStaging_levels (s : State) (t : Staging) : (s.setStaging t).levels = s.levels := rfl
@[simp] theorem State.setStaging_resetLine (s : State) (t : Staging) : (s.setStaging t).resetLine = s.resetLine := rfl
@[simp] theorem State.setStaging_freeDrawn (s : State) (t : Staging) : (s.setStaging t).freeDrawn = s.freeDrawn := rfl
@[simp] theorem State.setStaging_pending (s : State) (t : Staging) : (s.setStaging t).pending = s.pending := rfl

/-! ## setPort -/

@[simp] theorem State.setPort_plant (s : State) (p : Port) (r : PortRecord) : (s.setPort p r).plant = s.plant := rfl
@[simp] theorem State.setPort_service (s : State) (p : Port) (r : PortRecord) : (s.setPort p r).service = s.service := rfl
@[simp] theorem State.setPort_analyser (s : State) (p : Port) (r : PortRecord) : (s.setPort p r).analyser = s.analyser := rfl
@[simp] theorem State.setPort_routes (s : State) (p : Port) (r : PortRecord) : (s.setPort p r).routes = s.routes := rfl
@[simp] theorem State.setPort_memory (s : State) (p : Port) (r : PortRecord) : (s.setPort p r).memory = s.memory := rfl
@[simp] theorem State.setPort_calls (s : State) (p : Port) (r : PortRecord) : (s.setPort p r).calls = s.calls := rfl
@[simp] theorem State.setPort_tariff (s : State) (p : Port) (r : PortRecord) : (s.setPort p r).tariff = s.tariff := rfl
@[simp] theorem State.setPort_settlement (s : State) (p : Port) (r : PortRecord) : (s.setPort p r).settlement = s.settlement := rfl
@[simp] theorem State.setPort_levels (s : State) (p : Port) (r : PortRecord) : (s.setPort p r).levels = s.levels := rfl
@[simp] theorem State.setPort_resetLine (s : State) (p : Port) (r : PortRecord) : (s.setPort p r).resetLine = s.resetLine := rfl
@[simp] theorem State.setPort_freeDrawn (s : State) (p : Port) (r : PortRecord) : (s.setPort p r).freeDrawn = s.freeDrawn := rfl
@[simp] theorem State.setPort_pending (s : State) (p : Port) (r : PortRecord) : (s.setPort p r).pending = s.pending := rfl

/-! ## setPair -/

@[simp] theorem State.setPair_plant (s : State) (k : Nat) (t : PairTotals) : (s.setPair k t).plant = s.plant := rfl
@[simp] theorem State.setPair_service (s : State) (k : Nat) (t : PairTotals) : (s.setPair k t).service = s.service := rfl
@[simp] theorem State.setPair_analyser (s : State) (k : Nat) (t : PairTotals) : (s.setPair k t).analyser = s.analyser := rfl
@[simp] theorem State.setPair_routes (s : State) (k : Nat) (t : PairTotals) : (s.setPair k t).routes = s.routes := rfl
@[simp] theorem State.setPair_memory (s : State) (k : Nat) (t : PairTotals) : (s.setPair k t).memory = s.memory := rfl
@[simp] theorem State.setPair_calls (s : State) (k : Nat) (t : PairTotals) : (s.setPair k t).calls = s.calls := rfl
@[simp] theorem State.setPair_tariff (s : State) (k : Nat) (t : PairTotals) : (s.setPair k t).tariff = s.tariff := rfl
@[simp] theorem State.setPair_ports (s : State) (k : Nat) (t : PairTotals) : (s.setPair k t).ports = s.ports := rfl
@[simp] theorem State.setPair_levels (s : State) (k : Nat) (t : PairTotals) : (s.setPair k t).levels = s.levels := rfl
@[simp] theorem State.setPair_resetLine (s : State) (k : Nat) (t : PairTotals) : (s.setPair k t).resetLine = s.resetLine := rfl
@[simp] theorem State.setPair_freeDrawn (s : State) (k : Nat) (t : PairTotals) : (s.setPair k t).freeDrawn = s.freeDrawn := rfl
@[simp] theorem State.setPair_pending (s : State) (k : Nat) (t : PairTotals) : (s.setPair k t).pending = s.pending := rfl

/-! ## setMemorySet -/

@[simp] theorem State.setMemorySet_plant (s : State) (k : Nat) (m : MemorySet) : (s.setMemorySet k m).plant = s.plant := rfl
@[simp] theorem State.setMemorySet_service (s : State) (k : Nat) (m : MemorySet) : (s.setMemorySet k m).service = s.service := rfl
@[simp] theorem State.setMemorySet_analyser (s : State) (k : Nat) (m : MemorySet) : (s.setMemorySet k m).analyser = s.analyser := rfl
@[simp] theorem State.setMemorySet_routes (s : State) (k : Nat) (m : MemorySet) : (s.setMemorySet k m).routes = s.routes := rfl
@[simp] theorem State.setMemorySet_calls (s : State) (k : Nat) (m : MemorySet) : (s.setMemorySet k m).calls = s.calls := rfl
@[simp] theorem State.setMemorySet_tariff (s : State) (k : Nat) (m : MemorySet) : (s.setMemorySet k m).tariff = s.tariff := rfl
@[simp] theorem State.setMemorySet_settlement (s : State) (k : Nat) (m : MemorySet) : (s.setMemorySet k m).settlement = s.settlement := rfl
@[simp] theorem State.setMemorySet_ports (s : State) (k : Nat) (m : MemorySet) : (s.setMemorySet k m).ports = s.ports := rfl
@[simp] theorem State.setMemorySet_levels (s : State) (k : Nat) (m : MemorySet) : (s.setMemorySet k m).levels = s.levels := rfl
@[simp] theorem State.setMemorySet_resetLine (s : State) (k : Nat) (m : MemorySet) : (s.setMemorySet k m).resetLine = s.resetLine := rfl
@[simp] theorem State.setMemorySet_freeDrawn (s : State) (k : Nat) (m : MemorySet) : (s.setMemorySet k m).freeDrawn = s.freeDrawn := rfl
@[simp] theorem State.setMemorySet_pending (s : State) (k : Nat) (m : MemorySet) : (s.setMemorySet k m).pending = s.pending := rfl

/-! ## setPrefix -/

@[simp] theorem State.setPrefix_plant (s : State) (ds : List Nat) (d : Option Nat) : (s.setPrefix ds d).plant = s.plant := rfl
@[simp] theorem State.setPrefix_service (s : State) (ds : List Nat) (d : Option Nat) : (s.setPrefix ds d).service = s.service := rfl
@[simp] theorem State.setPrefix_routes (s : State) (ds : List Nat) (d : Option Nat) : (s.setPrefix ds d).routes = s.routes := rfl
@[simp] theorem State.setPrefix_memory (s : State) (ds : List Nat) (d : Option Nat) : (s.setPrefix ds d).memory = s.memory := rfl
@[simp] theorem State.setPrefix_calls (s : State) (ds : List Nat) (d : Option Nat) : (s.setPrefix ds d).calls = s.calls := rfl
@[simp] theorem State.setPrefix_tariff (s : State) (ds : List Nat) (d : Option Nat) : (s.setPrefix ds d).tariff = s.tariff := rfl
@[simp] theorem State.setPrefix_settlement (s : State) (ds : List Nat) (d : Option Nat) : (s.setPrefix ds d).settlement = s.settlement := rfl
@[simp] theorem State.setPrefix_ports (s : State) (ds : List Nat) (d : Option Nat) : (s.setPrefix ds d).ports = s.ports := rfl
@[simp] theorem State.setPrefix_levels (s : State) (ds : List Nat) (d : Option Nat) : (s.setPrefix ds d).levels = s.levels := rfl
@[simp] theorem State.setPrefix_resetLine (s : State) (ds : List Nat) (d : Option Nat) : (s.setPrefix ds d).resetLine = s.resetLine := rfl
@[simp] theorem State.setPrefix_freeDrawn (s : State) (ds : List Nat) (d : Option Nat) : (s.setPrefix ds d).freeDrawn = s.freeDrawn := rfl
@[simp] theorem State.setPrefix_pending (s : State) (ds : List Nat) (d : Option Nat) : (s.setPrefix ds d).pending = s.pending := rfl

/-! ## Reading a record after its update -/

@[simp] theorem State.circuit_setCircuit_same (s : State) (c : Nat) (e : Option Equipped) :
    (s.setCircuit c e).circuit c = e := Table.get_set_same s.plant.circuits c e

theorem State.circuit_setCircuit_other (s : State) (c d : Nat) (e : Option Equipped) (h : d ≠ c) :
    (s.setCircuit c e).circuit d = s.circuit d := Table.get_set_other s.plant.circuits c d e h

@[simp] theorem State.group_setCircuit (s : State) (c g : Nat) (e : Option Equipped) :
    (s.setCircuit c e).group g = s.group g := rfl

@[simp] theorem State.circuit_setGroup (s : State) (g c : Nat) (r : Option Group) :
    (s.setGroup g r).circuit c = s.circuit c := rfl

@[simp] theorem State.group_setGroup_same (s : State) (g : Nat) (r : Option Group) :
    (s.setGroup g r).group g = r := Table.get_set_same s.plant.groups g r

theorem State.group_setGroup_other (s : State) (g h : Nat) (r : Option Group) (hne : h ≠ g) :
    (s.setGroup g r).group h = s.group h := Table.get_set_other s.plant.groups g h r hne

@[simp] theorem State.svc_setSvc_same (s : State) (g : Nat) (v : GroupService) : (s.setSvc g v).svc g = v :=
  Table.get_set_same s.service.groups g v

theorem State.svc_setSvc_other (s : State) (g h : Nat) (v : GroupService) (hne : h ≠ g) :
    (s.setSvc g v).svc h = s.svc h := Table.get_set_other s.service.groups g h v hne

@[simp] theorem State.batch_setBatch (s : State) (b : DrainBatch) : (s.setBatch b).service.batch = b := rfl

@[simp] theorem State.svc_setBatch (s : State) (b : DrainBatch) (g : Nat) : (s.setBatch b).svc g = s.svc g := rfl

@[simp] theorem State.batch_setSvc (s : State) (g : Nat) (v : GroupService) :
    (s.setSvc g v).service.batch = s.service.batch := rfl

@[simp] theorem State.gap_setGap_same (s : State) (d : Nat) (g : Option Gap) : (s.setGap d g).gap d = g :=
  Table.get_set_same s.analyser.gaps d g

theorem State.gap_setGap_other (s : State) (d e : Nat) (g : Option Gap) (h : e ≠ d) :
    (s.setGap d g).gap e = s.gap e := Table.get_set_other s.analyser.gaps d e g h

@[simp] theorem State.slot_setSlot_same (s : State) (k : Nat) (v : Slot) : (s.setSlot k v).slot k = v :=
  Table.get_set_same s.calls.slots k v

theorem State.slot_setSlot_other (s : State) (k j : Nat) (v : Slot) (h : j ≠ k) :
    (s.setSlot k v).slot j = s.slot j := Table.get_set_other s.calls.slots k j v h

@[simp] theorem State.slot_setCall_same (s : State) (k : Nat) (c : Call) :
    (s.setCall k c).slot k = { s.slot k with call := some c } := State.slot_setSlot_same s k _

theorem State.slot_setCall_other (s : State) (k j : Nat) (c : Call) (h : j ≠ k) :
    (s.setCall k c).slot j = s.slot j := State.slot_setSlot_other s k j _ h

@[simp] theorem State.carrier_setCarrier_same (s : State) (c : Nat) (r : Carrier) : (s.setCarrier c r).carrier c = r :=
  Table.get_set_same s.settlement.carriers c r

theorem State.carrier_setCarrier_other (s : State) (c d : Nat) (r : Carrier) (h : d ≠ c) :
    (s.setCarrier c r).carrier d = s.carrier d := Table.get_set_other s.settlement.carriers c d r h

@[simp] theorem State.carrier_setPair (s : State) (k c : Nat) (t : PairTotals) :
    (s.setPair k t).carrier c = s.carrier c := rfl

@[simp] theorem State.pair_setCarrier (s : State) (c k : Nat) (r : Carrier) : (s.setCarrier c r).pair k = s.pair k := rfl

@[simp] theorem State.pair_setPair_same (s : State) (k : Nat) (t : PairTotals) : (s.setPair k t).pair k = t :=
  Table.get_set_same s.settlement.pairs k t

theorem State.pair_setPair_other (s : State) (k j : Nat) (t : PairTotals) (h : j ≠ k) :
    (s.setPair k t).pair j = s.pair j := Table.get_set_other s.settlement.pairs k j t h

@[simp] theorem State.staging_setStaging (s : State) (t : Staging) : (s.setStaging t).tariff.staging = t := rfl

@[simp] theorem State.memorySet_setMemorySet_same (s : State) (k : Nat) (m : MemorySet) :
    (s.setMemorySet k m).memorySet k = m := Table.get_set_same s.memory.sets k m

theorem State.memorySet_setMemorySet_other (s : State) (k j : Nat) (m : MemorySet) (h : j ≠ k) :
    (s.setMemorySet k m).memorySet j = s.memorySet j := Table.get_set_other s.memory.sets k j m h

@[simp] theorem State.port_setPort_same (s : State) (p : Port) (r : PortRecord) : (s.setPort p r).port p = r :=
  PerPort.get_set_same s.ports p r

theorem State.port_setPort_other (s : State) (p q : Port) (r : PortRecord) (h : q ≠ p) :
    (s.setPort p r).port q = s.port q := PerPort.get_set_other s.ports p q r h

/-- Reading a port after a port was written, both cases. -/
theorem State.port_setPort (s : State) (p q : Port) (r : PortRecord) :
    (s.setPort p r).port q = if q = p then r else s.port q := by
  by_cases h : q = p
  · rw [if_pos h, h]; exact s.port_setPort_same p r
  · rw [if_neg h]; exact s.port_setPort_other p q r h

@[simp] theorem State.now_setPort (s : State) (p : Port) (r : PortRecord) : (s.setPort p r).now = s.now := rfl

@[simp] theorem State.level_setPort (s : State) (p : Port) (r : PortRecord) (a : AlarmSource) :
    (s.setPort p r).level a = s.level a := rfl

end Sys2Proof.Machine
end

