-- ==== Sys2Proof/Laws/Notices.lean ====
section
/-! SUPPORT. What the notice engine's operations can do, said once: `Told s t` says that `t` differs from `s` in the port
records and the alarm levels alone, that within a port record only the notice queue, the drop count, the alarm records and
the responses a SYNC holds differ, and that sound port records stay sound. -/

namespace Sys2Proof.Machine

/-! ## Port facts -/

theorem SamePortFacts.refl (r : PortRecord) : SamePortFacts r r := by simp [SamePortFacts]

theorem SamePortFacts.trans {a b c : PortRecord} (h : SamePortFacts a b) (g : SamePortFacts b c) :
    SamePortFacts a c := by
  simp only [SamePortFacts] at *
  obtain ⟨h1, h2, h3, h4, h5, h6, h7, h8⟩ := h
  simpa [h1, h2, h3, h4, h5, h6, h7, h8] using g

/-- Only what the notice engine may change has changed. -/
def Told (s t : State) : Prop :=
  t = { s with ports := t.ports, levels := t.levels } ∧ SamePorts s t ∧ (PortsSound s → PortsSound t)

theorem Told.refl (s : State) : Told s s := ⟨rfl, fun _ => SamePortFacts.refl _, id⟩

theorem Told.trans {s t u : State} (h : Told s t) (g : Told t u) : Told s u := by
  refine ⟨?_, fun p => (h.2.1 p).trans (g.2.1 p), fun x => g.2.2 (h.2.2 x)⟩
  have hg := g.1
  rw [h.1] at hg
  exact hg

/-- A fold of operations each of which only tells only tells. -/
theorem Told.foldl {α : Type} (f : State → α → State) (hf : ∀ s x, Told s (f s x)) (l : List α) (s : State) :
    Told s (l.foldl f s) := by
  induction l generalizing s with
  | nil => exact Told.refl s
  | cons x l ih => exact (hf s x).trans (ih (f s x))

/-- Replacing one port's record by one with the same facts, sound when the old one was, only tells. -/
theorem Told.setPort (s : State) (p : Port) (r : PortRecord) (hr : SamePortFacts (s.port p) r)
    (hs : (s.port p).Sound → r.Sound) : Told s (s.setPort p r) := by
  refine ⟨rfl, ?_, ?_⟩
  · intro q
    rw [State.port_setPort]
    by_cases h : q = p
    · rw [if_pos h, h]; exact hr
    · rw [if_neg h]; exact SamePortFacts.refl _
  · intro hp q
    rw [State.port_setPort]
    by_cases h : q = p
    · rw [if_pos h]; exact hs (hp p)
    · rw [if_neg h]; exact hp q

/-! ## Fields of a told state -/

theorem Told.plant {s t : State} (h : Told s t) : t.plant = s.plant := by rw [h.1]
theorem Told.service {s t : State} (h : Told s t) : t.service = s.service := by rw [h.1]
theorem Told.analyser {s t : State} (h : Told s t) : t.analyser = s.analyser := by rw [h.1]
theorem Told.routes {s t : State} (h : Told s t) : t.routes = s.routes := by rw [h.1]
theorem Told.memory {s t : State} (h : Told s t) : t.memory = s.memory := by rw [h.1]
theorem Told.calls {s t : State} (h : Told s t) : t.calls = s.calls := by rw [h.1]
theorem Told.tariff {s t : State} (h : Told s t) : t.tariff = s.tariff := by rw [h.1]
theorem Told.settlement {s t : State} (h : Told s t) : t.settlement = s.settlement := by rw [h.1]
theorem Told.freeDrawn {s t : State} (h : Told s t) : t.freeDrawn = s.freeDrawn := by rw [h.1]
theorem Told.pending {s t : State} (h : Told s t) : t.pending = s.pending := by rw [h.1]

/-! ## Event notices (R188) -/

/-- R188: what making a notice for a port does, by its state and the room in its queue. -/
theorem notify_cases (p : Port) (n : Notice) (s : State) :
    ((s.port p).state = .down ∧ notify p n s = s) ∨
    ((s.port p).state ≠ .down ∧ (s.port p).notices.length < Config.noticeQueue ∧
      notify p n s = s.setPort p { s.port p with notices := (s.port p).notices ++ [n] }) ∨
    ((s.port p).state ≠ .down ∧ ¬ (s.port p).notices.length < Config.noticeQueue ∧
      notify p n s = s.setPort p { s.port p with drops := min ((s.port p).drops + 1) Config.dropMax }) := by
  by_cases h : (s.port p).notices.length < Config.noticeQueue <;>
    cases hs : (s.port p).state <;> simp [notify, hs, h]

theorem notify_told (p : Port) (n : Notice) (s : State) : Told s (notify p n s) := by
  rcases notify_cases p n s with ⟨-, h⟩ | ⟨hd, hl, h⟩ | ⟨hd, hl, h⟩
  · rw [h]; exact Told.refl s
  · rw [h]
    refine Told.setPort s p _ (by simp [SamePortFacts]) ?_
    intro hs
    simp only [PortRecord.Sound] at hs ⊢
    obtain ⟨h1, h2, h3, h4, h5, h6⟩ := hs
    refine ⟨h1, by simp; omega, h3, ?_, h5, fun h => absurd h hd⟩
    intro hdr
    have := h4 hdr
    omega
  · rw [h]
    refine Told.setPort s p _ (by simp [SamePortFacts]) ?_
    intro hs
    simp only [PortRecord.Sound] at hs ⊢
    obtain ⟨h1, h2, h3, h4, h5, h6⟩ := hs
    refine ⟨h1, h2, by omega, ?_, h5, fun h => absurd h hd⟩
    intro _
    show (s.port p).notices.length = _
    omega

@[simp] theorem notify_levels (p : Port) (n : Notice) (s : State) : (notify p n s).levels = s.levels := by
  rcases notify_cases p n s with ⟨-, h⟩ | ⟨-, -, h⟩ | ⟨-, -, h⟩ <;> rw [h] <;> rfl

theorem notifyUp_told (ps : List Port) (n : Notice) (s : State) : Told s (notifyUp ps n s) := by
  refine Told.foldl _ ?_ ps s
  intro s p
  by_cases h : s.isUp p
  · rw [if_pos h]; exact notify_told p n s
  · rw [if_neg h]; exact Told.refl s

theorem notifyAllUp_told (n : Notice) (s : State) : Told s (notifyAllUp n s) := notifyUp_told allPorts n s

theorem notifyOthersUp_told (p : Port) (n : Notice) (s : State) : Told s (notifyOthersUp p n s) := notifyUp_told _ n s

/-- A notice for some ports leaves a port that is not among them alone. -/
theorem notify_port_other (p q : Port) (n : Notice) (s : State) (h : q ≠ p) : (notify p n s).port q = s.port q := by
  rcases notify_cases p n s with ⟨-, e⟩ | ⟨-, -, e⟩ | ⟨-, -, e⟩ <;> rw [e]
  · exact s.port_setPort_other p q _ h
  · exact s.port_setPort_other p q _ h

theorem notifyUp_port_other (ps : List Port) (n : Notice) (s : State) (q : Port) (h : q ∉ ps) :
    (notifyUp ps n s).port q = s.port q := by
  induction ps generalizing s with
  | nil => rfl
  | cons p ps ih =>
    simp only [List.mem_cons, not_or] at h
    show (notifyUp ps n (if s.isUp p then notify p n s else s)).port q = _
    rw [ih _ h.2]
    by_cases hu : s.isUp p
    · rw [if_pos hu]; exact notify_port_other p q n s h.1
    · rw [if_neg hu]

/-- R182 to R184: a notice to every other UP port leaves the port itself alone. -/
theorem notifyOthersUp_port_self (p : Port) (n : Notice) (s : State) : (notifyOthersUp p n s).port p = s.port p :=
  notifyUp_port_other _ n s p (by simp [allPorts])

@[simp] theorem notifyUp_levels (ps : List Port) (n : Notice) (s : State) : (notifyUp ps n s).levels = s.levels := by
  induction ps generalizing s with
  | nil => rfl
  | cons p ps ih =>
    show (notifyUp ps n (if s.isUp p then notify p n s else s)).levels = _
    rw [ih]
    by_cases hu : s.isUp p
    · rw [if_pos hu, notify_levels]
    · rw [if_neg hu]

/-! ## Alarms (R190) -/

theorem pendingOn_up {s : State} {p : Port} {a : AlarmSource} (h : pendingOn s p a = true) : (s.port p).state = .up := by
  simp only [pendingOn, Bool.and_eq_true, beq_iff_eq] at h
  exact h.1.1.1

theorem alarmRoom_iff (r : PortRecord) :
    alarmRoom r = true ↔ r.notices.length < Config.noticeQueue ∧ r.drops = 0 := by simp [alarmRoom]

theorem testSource_told (p : Port) (s : State) (a : AlarmSource) : Told s (testSource p s a) := by
  simp only [testSource]
  by_cases h : (pendingOn s p a && alarmRoom (s.port p)) = true
  · rw [if_pos h]
    obtain ⟨hp, hr⟩ := Bool.and_eq_true_iff.mp h
    have hu := pendingOn_up hp
    obtain ⟨hl, hd⟩ := (alarmRoom_iff _).mp hr
    refine Told.setPort s p _ (by simp [SamePortFacts]) ?_
    intro hs
    simp only [PortRecord.Sound] at hs ⊢
    obtain ⟨h1, h2, h3, h4, h5, h6⟩ := hs
    refine ⟨h1, by simp; omega, h3, fun h => absurd h (by omega), h5, fun h => ?_⟩
    rw [hu] at h
    cases h
  · rw [if_neg h]; exact Told.refl s

theorem scanClass_told (p : Port) (s : State) (c : AlarmClass) : Told s (scanClass p s c) := by
  simp only [scanClass]
  by_cases h : (s.port p).mask.on c
  · rw [if_pos h]; exact Told.foldl _ (testSource_told p) _ s
  · rw [if_neg h]; exact Told.refl s

theorem scanPort_told (p : Port) (s : State) : Told s (scanPort p s) := by
  simp only [scanPort]
  split
  · exact Told.foldl _ (scanClass_told p) _ s
  · exact Told.refl s

theorem settleSync_told (p : Port) (s : State) : Told s (settleSync p s) := by
  refine Told.setPort s p _ (by simp [SamePortFacts, releaseHeld]) ?_
  intro hs
  simp only [PortRecord.Sound, releaseHeld] at hs ⊢
  obtain ⟨h1, h2, h3, h4, h5, h6⟩ := hs
  refine ⟨h1, h2, h3, h4, h5, fun h => ?_⟩
  obtain ⟨g1, g2, g3, g4⟩ := h6 h
  exact ⟨g1, g2, by rw [g3]; rfl, g4⟩

theorem rescan_told (p : Port) (s : State) : Told s (rescan p s) := (scanPort_told p s).trans (settleSync_told p _)

/-- Section 10.6: a report of a level changes that level, and what the notice engine does on each port with it. -/
theorem reportLevel_told (a : AlarmSource) (level : Nat) (s : State) : Told s (reportLevel a level s) := by
  have h0 : Told s { s with levels := s.levels.set a.index level } :=
    ⟨rfl, fun _ => SamePortFacts.refl _, id⟩
  exact h0.trans (Told.foldl _ (fun s p => rescan_told p s) _ _)

theorem testSource_levels (p : Port) (s : State) (a : AlarmSource) : (testSource p s a).levels = s.levels := by
  simp only [testSource]; split <;> rfl

theorem foldl_levels {α : Type} (f : State → α → State) (hf : ∀ s x, (f s x).levels = s.levels) (l : List α) (s : State) :
    (l.foldl f s).levels = s.levels := by
  induction l generalizing s with
  | nil => rfl
  | cons x l ih => exact (ih (f s x)).trans (hf s x)

theorem scanClass_levels (p : Port) (s : State) (c : AlarmClass) : (scanClass p s c).levels = s.levels := by
  simp only [scanClass]; split
  · exact foldl_levels _ (testSource_levels p) _ s
  · rfl

theorem rescan_levels (p : Port) (s : State) : (rescan p s).levels = s.levels := by
  show (scanPort p s).levels = _
  simp only [scanPort]; split
  · exact foldl_levels _ (scanClass_levels p) _ s
  · rfl

@[simp] theorem reportLevel_levels (a : AlarmSource) (level : Nat) (s : State) :
    (reportLevel a level s).levels = s.levels.set a.index level :=
  foldl_levels _ (fun s p => rescan_levels p s) allPorts _

end Sys2Proof.Machine
end

