-- ==== Sys2Proof/Laws/Service.lean ====
section
/-! SUPPORT. What the group service controller, the plant store and the route selector can do, said once for each of their
operations: which blocks may differ after it, with the port records changed by the notice engine alone. -/

namespace Sys2Proof.Machine

/-- The port records changed by the notice engine alone, and sound ones stay sound. -/
def PortsTold (s t : State) : Prop := SamePorts s t ∧ (PortsSound s → PortsSound t)

theorem PortsTold.refl (s : State) : PortsTold s s := (Told.refl s).2

theorem PortsTold.trans {s t u : State} (h : PortsTold s t) (g : PortsTold t u) : PortsTold s u :=
  ⟨fun p => (h.1 p).trans (g.1 p), fun x => g.2 (h.2 x)⟩

/-- States with the same port records. -/
theorem PortsTold.of_ports {s t : State} (h : t.ports = s.ports) : PortsTold s t := by
  have hp : ∀ p, t.port p = s.port p := fun p => by simp only [State.port, h]
  exact ⟨fun p => by rw [hp p]; exact SamePortFacts.refl _, fun x p => by rw [hp p]; exact x p⟩

/-- Only the controller's own state, the ports and the levels have changed. -/
def Served (s t : State) : Prop :=
  t = { s with service := t.service, ports := t.ports, levels := t.levels } ∧ PortsTold s t

/-- Only the plant store, the controller, the ports and the levels have changed. -/
def Planted (s t : State) : Prop :=
  t = { s with plant := t.plant, service := t.service, ports := t.ports, levels := t.levels } ∧ PortsTold s t

/-- What a walk may change: the plant store, the controller, the route memory, the ports and the levels. -/
def Routed (s t : State) : Prop :=
  t = { s with plant := t.plant, service := t.service, memory := t.memory, ports := t.ports, levels := t.levels } ∧
    PortsTold s t

theorem Told.served {s t : State} (h : Told s t) : Served s t := by
  refine ⟨?_, h.2⟩
  have := h.service
  conv => lhs; rw [h.1]
  rw [this]

theorem Served.planted {s t : State} (h : Served s t) : Planted s t := by
  refine ⟨?_, h.2⟩
  have : t.plant = s.plant := by rw [h.1]
  conv => lhs; rw [h.1]
  rw [this]

theorem Planted.routed {s t : State} (h : Planted s t) : Routed s t := by
  refine ⟨?_, h.2⟩
  have : t.memory = s.memory := by rw [h.1]
  conv => lhs; rw [h.1]
  rw [this]

theorem Served.refl (s : State) : Served s s := (Told.refl s).served
theorem Planted.refl (s : State) : Planted s s := (Served.refl s).planted
theorem Routed.refl (s : State) : Routed s s := (Planted.refl s).routed

theorem Served.trans {s t u : State} (h : Served s t) (g : Served t u) : Served s u := by
  refine ⟨?_, h.2.trans g.2⟩
  have e := g.1
  rw [h.1] at e
  exact e

theorem Planted.trans {s t u : State} (h : Planted s t) (g : Planted t u) : Planted s u := by
  refine ⟨?_, h.2.trans g.2⟩
  have e := g.1
  rw [h.1] at e
  exact e

theorem Routed.trans {s t u : State} (h : Routed s t) (g : Routed t u) : Routed s u := by
  refine ⟨?_, h.2.trans g.2⟩
  have e := g.1
  rw [h.1] at e
  exact e

theorem Served.foldl {α : Type} (f : State → α → State) (hf : ∀ s x, Served s (f s x)) (l : List α) (s : State) :
    Served s (l.foldl f s) := by
  induction l generalizing s with
  | nil => exact Served.refl s
  | cons x l ih => exact (hf s x).trans (ih (f s x))

theorem Planted.foldl {α : Type} (f : State → α → State) (hf : ∀ s x, Planted s (f s x)) (l : List α) (s : State) :
    Planted s (l.foldl f s) := by
  induction l generalizing s with
  | nil => exact Planted.refl s
  | cons x l ih => exact (hf s x).trans (ih (f s x))

theorem Planted.foldr {α : Type} (f : α → State → State) (hf : ∀ x s, Planted s (f x s)) (l : List α) (s : State) :
    Planted s (l.foldr f s) := by
  induction l with
  | nil => exact Planted.refl s
  | cons x l ih => exact ih.trans (hf x _)

theorem Served.setSvc (s : State) (g : Nat) (v : GroupService) : Served s (s.setSvc g v) :=
  ⟨rfl, PortsTold.of_ports rfl⟩

theorem Served.setBatch (s : State) (b : DrainBatch) : Served s (s.setBatch b) := ⟨rfl, PortsTold.of_ports rfl⟩

theorem Planted.setCircuit (s : State) (c : Nat) (e : Option Equipped) : Planted s (s.setCircuit c e) :=
  ⟨rfl, PortsTold.of_ports rfl⟩

theorem Planted.setGroup (s : State) (g : Nat) (r : Option Group) : Planted s (s.setGroup g r) :=
  ⟨rfl, PortsTold.of_ports rfl⟩

theorem Routed.setMemorySet (s : State) (k : Nat) (m : MemorySet) : Routed s (s.setMemorySet k m) :=
  ⟨rfl, PortsTold.of_ports rfl⟩

/-! ## The controller -/

theorem evaluatePlan_served (s : State) (p : Nat) : Served s (evaluatePlan s p) := by
  simp only [evaluatePlan]
  split
  · exact Served.refl s
  · have h0 : Served s { s with service := { s.service with exhausted := s.service.exhausted.set p (planExhausted s p) } } :=
      ⟨rfl, PortsTold.of_ports rfl⟩
    exact h0.trans (reportLevel_told _ _ _).served

theorem reevaluate_served (gs : List Nat) (b s : State) : Served s (reevaluate gs b s) :=
  Served.foldl _ evaluatePlan_served _ s

theorem deriveCongestion_served (s : State) (g : Nat) : Served s (deriveCongestion s g) := by
  simp only [deriveCongestion]
  split
  · exact Served.refl s
  · split
    · exact Served.refl s
    · exact (Served.setSvc s _ _).trans (reportLevel_told _ _ _).served

theorem rederive_served (g : Nat) (s : State) : Served s (rederive g s) :=
  (deriveCongestion_served s g).trans (reevaluate_served _ _ _)

theorem completeBatch_served (s : State) : Served s (completeBatch s) :=
  (notifyUp_told _ _ s).served.trans (Served.setBatch _ _)

theorem completeIfDone_served (s : State) : Served s (completeIfDone s) := by
  simp only [completeIfDone]
  split
  · exact completeBatch_served s
  · exact Served.refl s

theorem memberTest_served (s : State) (g : Nat) : Served s (memberTest s g) := by
  simp only [memberTest]
  split
  · exact ((Served.setBatch s _).trans (Served.setSvc _ _ _)).trans
      ((reevaluate_served _ _ _).trans (completeIfDone_served _))
  · exact Served.refl s

theorem closeWindow_served (s : State) : Served s (closeWindow s) := by
  simp only [closeWindow]
  split
  · exact Served.refl s
  · split
    · exact completeBatch_served s
    · exact ((Served.setBatch s _).trans (Served.foldl _ memberTest_served _ _)).trans (completeIfDone_served _)

theorem takeReports_served (gs : List Nat) (b s : State) : Served s (takeReports gs b s) :=
  ((Served.foldl _ deriveCongestion_served gs s).trans (reevaluate_served _ _ _)).trans
    (Served.foldl _ memberTest_served _ _)

/-- R4: a report of the plant store changes the controller, the levels and what the ports are told, and nothing else. -/
theorem report_served (gs : List Nat) (b s : State) : Served s (report gs b s) := takeReports_served _ b s

theorem farReport_served (g level : Nat) (s : State) : Served s (farReport g level s) := by
  simp only [farReport]
  split
  · exact Served.refl s
  · exact Served.setSvc s _ _

theorem movePending_served (gs : List Nat) (v : ServiceState) (b s : State) : Served s (movePending gs v b s) :=
  (Served.foldl _ (fun s g => Served.setSvc s g _) gs s).trans (reevaluate_served _ _ _)

theorem suspendBatch_served (x : Option Nat) (s : State) : Served s (suspendBatch x s) :=
  (Served.setBatch s _).trans (movePending_served _ _ _ _)

theorem resumeBatch_served (s : State) : Served s (resumeBatch s) :=
  (((Served.setBatch s _).trans (movePending_served _ _ _ _)).trans (Served.foldl _ memberTest_served _ _)).trans
    (completeIfDone_served _)

theorem returnGroup_served (g : Nat) (s : State) : Served s (returnGroup g s) := by
  simp only [returnGroup]
  split
  · exact ((Served.setBatch s _).trans ((Served.setSvc _ _ _).trans (reevaluate_served _ _ _))).trans
      (completeIfDone_served _)
  · split
    · exact (Served.setSvc s _ _).trans (reevaluate_served _ _ _)
    · exact Served.refl s

/-! ## The plant store -/

theorem changeCircuit_planted (c : Nat) (f : Equipped → Equipped) (s : State) : Planted s (changeCircuit c f s) := by
  simp only [changeCircuit]
  split
  · exact Planted.refl s
  · split
    · exact Planted.setCircuit s _ _
    · exact (Planted.setCircuit s _ _).trans (Planted.setGroup _ _ _)

theorem changeAndReport_planted (c : Nat) (f : Equipped → Equipped) (s : State) : Planted s (changeAndReport c f s) := by
  simp only [changeAndReport]
  split
  · exact Planted.refl s
  · exact (changeCircuit_planted c f s).trans (report_served _ _ _).planted

theorem markSeized_planted (g c : Nat) (s : State) : Planted s (markSeized g c s) := by
  simp only [markSeized]
  split
  · exact Planted.setGroup s _ _
  · exact Planted.refl s

theorem occupyOut_planted (g c : Nat) (call : CallRef) (s : State) : Planted s (occupyOut g c call s) :=
  ((changeCircuit_planted _ _ s).trans (markSeized_planted _ _ _)).trans (report_served _ _ _).planted

theorem occupyIn_planted (c : Nat) (call : CallRef) (s : State) : Planted s (occupyIn c call s) :=
  changeAndReport_planted _ _ _

theorem undoInbound_planted (c : Nat) (f : Former) (s : State) : Planted s (undoInbound c f s) :=
  changeAndReport_planted _ _ _

theorem releaseLeg_planted (c : Nat) (call : CallRef) (fault : Bool) (s : State) :
    Planted s (releaseLeg c call fault s) := by
  simp only [releaseLeg]
  split
  · exact Planted.refl s
  · split
    · exact changeAndReport_planted _ _ _
    · exact Planted.refl s

theorem expireGuard_planted (c : Nat) (s : State) : Planted s (expireGuard c s) := by
  simp only [expireGuard]
  split
  · exact Planted.refl s
  · split
    · split
      · exact changeAndReport_planted _ _ _
      · exact Planted.refl s
    · exact Planted.refl s

theorem flagRange_planted (r : Range) (k : FlagKind) (v : Bool) (s : State) : Planted s (flagRange r k v s) :=
  (Planted.foldl (fun s (e : Nat × Equipped) => changeCircuit e.1 (withFlag k v) s)
      (fun s e => changeCircuit_planted e.1 (withFlag k v) s) (equippedIn s r) s).trans
    (report_served (groupsOf (equippedIn s r)) s _).planted

theorem rebuild_planted (s : State) (g : Nat) : Planted s (rebuild s g) := by
  simp only [rebuild]
  split
  · exact Planted.refl s
  · exact Planted.setGroup s _ _

theorem equip_planted (g : Nat) (rs : List Range) (s : State) : Planted s (equip g rs s) := by
  refine Planted.foldr _ ?_ _ s
  intro c s
  split
  · exact Planted.refl s
  · exact Planted.setCircuit s _ _

theorem unequip_planted (g : Nat) (rs : List Range) (s : State) : Planted s (unequip g rs s) :=
  ⟨rfl, PortsTold.of_ports rfl⟩

theorem idleAll_planted (s : State) : Planted s (idleAll s) := ⟨rfl, PortsTold.of_ports rfl⟩

theorem clearPlant_planted (s : State) : Planted s (clearPlant s) :=
  ((idleAll_planted s).trans (Planted.foldl _ rebuild_planted _ _)).trans (takeReports_served _ _ _).planted

/-! ## The route memory and the walk -/

theorem outcome_routed (f : MemoryEntry → MemoryEntry) (d p i : Nat) (s : State) : Routed s (outcome f d p i s) := by
  simp only [outcome]
  split
  · exact Routed.refl s
  · split
    · exact Routed.setMemorySet s _ _
    · exact Routed.refl s

theorem afterLookup_routed (d p : Nat) (s : State) : Routed s (afterLookup d p s) := by
  simp only [afterLookup]
  split
  · exact Routed.setMemorySet s _ _
  · exact Routed.refl s

theorem tryStep_routed (c : WalkCall) (i : Nat) (st : PlanStep) (s : State) : Routed s (tryStep c i st s).state := by
  simp only [tryStep]
  split
  · split
    · exact (occupyOut_planted _ _ _ s).routed
    · exact Routed.refl s
  · exact Routed.refl s

theorem trySteps_routed (c : WalkCall) (l : List (Nat × PlanStep)) (s : State) : Routed s (trySteps c l s).state := by
  induction l generalizing s with
  | nil => exact Routed.refl s
  | cons x l ih =>
    have h := tryStep_routed c x.1 x.2 s
    simp only [trySteps]
    split
    · rename_i s1 leg e; rw [e] at h; exact h
    · rename_i s1 e; rw [e] at h; exact h.trans (ih s1)

theorem tryIndex_routed (c : WalkCall) (steps : List PlanStep) (i : Option Nat) (s : State) :
    Routed s (tryIndex c steps i s).state := by
  simp only [tryIndex]
  split
  · exact Routed.refl s
  · split
    · exact tryStep_routed _ _ _ s
    · exact Routed.refl s

theorem poolPart_routed (c : WalkCall) (steps : List PlanStep) (s : State) : Routed s (poolPart c steps s).state := by
  have h1 : Routed s (afterChoice s c) := by
    simp only [afterChoice]; split
    · exact afterLookup_routed _ _ s
    · exact Routed.refl s
  have h2 := h1.trans (tryIndex_routed c steps (poolChoice s c steps).step (afterChoice s c))
  simp only [poolPart]
  split
  · exact h2
  · refine (h2.trans ?_).trans (trySteps_routed c _ _)
    simp only [handPoolFailure]
    split
    · exact outcome_routed _ _ _ _ _
    · exact Routed.refl _

/-- R73, R86: a walk changes the plant store, the controller, the route memory and what the ports are told alone. -/
theorem walk_routed (c : WalkCall) (steps : List PlanStep) (s : State) : Routed s (walk c steps s).state := by
  have h1 := trySteps_routed c (partSteps .primary c.start steps) s
  simp only [walk]
  split
  · exact h1
  · split
    · exact h1.trans (poolPart_routed c steps _)
    · exact h1.trans (trySteps_routed c _ _)

end Sys2Proof.Machine
end

