-- ==== Sys2Proof/Laws/Requests.lean ====
section
/-! SUPPORT. What arrival, taking and composing can do, said once each, and two rules that carry an invariant over any
request. -/

namespace Sys2Proof.Machine

/-! ## Taking (R185, R186) -/

/-- R186: everything that taking a request can do. -/
theorem taken_cases {c : Instr} {r : Sender} {code : Nat} {s s1 : State} (h : taken c r code s = some s1) :
    ready r code s = true ∧
      (((s.port r.port).requests = [] ∧ s1 = s) ∨
        ∃ q rest, (s.port r.port).requests = q :: rest ∧ standsFor q c r code = true ∧
          s1 = s.setPort r.port { s.port r.port with requests := rest }) := by
  simp only [taken] at h
  split at h
  · rename_i hc
    refine ⟨hc, ?_⟩
    split at h
    · rename_i hr
      exact Or.inl ⟨hr, (Option.some.inj h).symm⟩
    · rename_i q rest hr
      split at h
      · rename_i hq
        exact Or.inr ⟨q, rest, hr, hq, (Option.some.inj h).symm⟩
      · cases h
  · cases h

/-- What a block ready for a request says of its port and of the device. -/
theorem ready_cases {r : Sender} {code : Nat} {s : State} (h : ready r code s = true) :
    takesCode (s.port r.port).state code = true ∧ occupied s r.port = false ∧ mustWait code s = false ∧
      s.resetLine = false := by
  simpa [ready, and_assoc] using h

/-- R185: a port takes requests in UP, and ATTACH alone in DOWN. -/
theorem takesCode_cases {st : PortState} {code : Nat} (h : takesCode st code = true) :
    st = .up ∨ (st = .down ∧ code = RequestKind.attach.code) := by
  cases st
  · exact Or.inr ⟨rfl, by simpa [takesCode] using h⟩
  · exact Or.inl rfl
  · cases h

/-- Taking a request changes the port's queue of requests alone. -/
theorem taken_blocks {c : Instr} {r : Sender} {code : Nat} {s s1 : State} (h : taken c r code s = some s1) :
    s1 = { s with ports := s1.ports } ∧ (s1.port r.port).state = (s.port r.port).state ∧
      (s1.port r.port).held = (s.port r.port).held ∧ (∀ p, p ≠ r.port → s1.port p = s.port p) := by
  obtain ⟨-, ⟨-, rfl⟩ | ⟨q, rest, -, -, rfl⟩⟩ := taken_cases h
  · exact ⟨rfl, rfl, rfl, fun _ _ => rfl⟩
  · refine ⟨rfl, by simp, by simp, fun p hp => s.port_setPort_other _ _ _ hp⟩

theorem PortsSound.setPort {s : State} {p : Port} {r : PortRecord} (h : PortsSound s) (hr : r.Sound) :
    PortsSound (s.setPort p r) := by
  intro q
  rw [State.port_setPort]
  split
  · exact hr
  · exact h q

theorem taken_sound {c : Instr} {r : Sender} {code : Nat} {s s1 : State} (h : taken c r code s = some s1) (hs : PortsSound s) :
    PortsSound s1 := by
  obtain ⟨-, ⟨-, rfl⟩ | ⟨q, rest, hq, -, rfl⟩⟩ := taken_cases h
  · exact hs
  · refine hs.setPort ?_
    have := hs r.port
    simp only [PortRecord.Sound] at this ⊢
    obtain ⟨h1, h2⟩ := this
    rw [hq] at h1
    exact ⟨by simp at h1; omega, h2⟩

/-! ## Composing (R186, R193) -/

/-- R186, R193: everything that composing a response can do. -/
theorem compose_cases (p : Port) (x : Response) (s : State) :
    ((s.port p).held = [] ∧ compose p x s = s.setPort p { s.port p with outbox := (s.port p).outbox ++ [x] }) ∨
    ((s.port p).held ≠ [] ∧ compose p x s = s.setPort p { s.port p with held := (s.port p).held ++ [⟨x, none⟩] }) := by
  cases h : (s.port p).held <;> simp [compose, h]

theorem compose_blocks (p : Port) (x : Response) (s : State) :
    compose p x s = { s with ports := (compose p x s).ports } := by
  rcases compose_cases p x s with ⟨-, h⟩ | ⟨-, h⟩ <;> rw [h] <;> rfl

theorem compose_sound (p : Port) (x : Response) {s : State} (hs : PortsSound s) : PortsSound (compose p x s) := by
  have h0 := hs p
  rcases compose_cases p x s with ⟨-, h⟩ | ⟨hne, h⟩
  · rw [h]
    exact hs.setPort h0
  · rw [h]
    refine hs.setPort ?_
    simp only [PortRecord.Sound] at h0 ⊢
    obtain ⟨h1, h2, h3, h4, h5, h6⟩ := h0
    exact ⟨h1, h2, h3, h4, h5, fun hd => absurd (h6 hd).2.2.1 hne⟩

/-! ## Arrival (R185) -/

theorem answerAtOnce_sound (p : Port) (q : Request) (st : Status) {s : State} (hs : PortsSound s) :
    PortsSound (answerAtOnce p q st s) := hs.setPort (hs p)

theorem enqueue_sound (p : Port) (q : Request) {s : State} (hs : PortsSound s) : PortsSound (enqueue p q s) := by
  simp only [enqueue]
  split
  · rename_i hl
    refine hs.setPort ?_
    have := hs p
    simp only [PortRecord.Sound] at this ⊢
    exact ⟨by simp; omega, this.2⟩
  · exact answerAtOnce_sound p q _ hs

theorem arrive_sound (p : Port) (q : Request) {s : State} (hs : PortsSound s) : PortsSound (arrive p q s) := by
  simp only [arrive]
  split
  · exact hs
  split
  · exact enqueue_sound p q hs
  · exact answerAtOnce_sound p q _ hs
  · split
    · exact enqueue_sound p q hs
    · exact answerAtOnce_sound p q _ hs

theorem arrive_blocks (p : Port) (q : Request) (s : State) : arrive p q s = { s with ports := (arrive p q s).ports } := by
  simp only [arrive, enqueue, answerAtOnce]
  repeat' split
  all_goals rfl

/-! ## A request as a whole -/

/-- R185, R186: what a request answers. -/
theorem request_cases (c : Instr) (r : Sender) (code : Nat) (f : State → Reply) (s : State) :
    (∃ s1, taken c r code s = some s1 ∧ request c r code f s = .next (respond r code (f s1))) ∨
    (taken c r code s = none ∧ request c r code f s = .next (arrive r.port (waiting c r code) s)) := by
  cases h : taken c r code s with
  | none => exact Or.inr ⟨rfl, by simp [request, h]⟩
  | some s1 => exact Or.inl ⟨s1, rfl, by simp [request, h]⟩

/-- An invariant that does not read the port records and that the handling keeps is kept by the request. -/
theorem request_keeps (P : State → Prop) (hports : ∀ s v, P s → P { s with ports := v }) {c : Instr} {r : Sender} {code : Nat}
    {f : State → Reply} (hf : ∀ s, P s → P (f s).state) {s t : State} (h : request c r code f s = .next t) (hs : P s) :
    P t := by
  rcases request_cases c r code f s with ⟨s1, ht, e⟩ | ⟨-, e⟩
  · rw [e] at h
    obtain rfl := Host.Outcome.next.inj h
    show P (compose _ _ _)
    rw [compose_blocks]
    refine hports _ _ (hf s1 ?_)
    rw [(taken_blocks ht).1]
    exact hports _ _ hs
  · rw [e] at h
    obtain rfl := Host.Outcome.next.inj h
    rw [arrive_blocks]
    exact hports _ _ hs

/-- Sound port records stay sound over a request whose handling keeps them so on a port that takes it. -/
theorem request_sound {c : Instr} {r : Sender} {code : Nat} {f : State → Reply}
    (hf : ∀ s, PortsSound s → takesCode (s.port r.port).state code = true → PortsSound (f s).state) {s t : State}
    (h : request c r code f s = .next t) (hs : PortsSound s) : PortsSound t := by
  rcases request_cases c r code f s with ⟨s1, ht, e⟩ | ⟨-, e⟩
  · rw [e] at h
    obtain rfl := Host.Outcome.next.inj h
    refine compose_sound _ _ (hf s1 (taken_sound ht hs) ?_)
    rw [(taken_blocks ht).2.1]
    exact (ready_cases (taken_cases ht).1).1
  · rw [e] at h
    obtain rfl := Host.Outcome.next.inj h
    exact arrive_sound _ _ hs

/-- R186: the response to a taken request is composed once, behind what its handling left. -/
theorem respond_answered (r : Sender) (code : Nat) (y : Reply) :
    AnsweredWith r code y.status y.result y.state (respond r code y) := by
  simp only [AnsweredWith, respond]
  rcases compose_cases r.port ⟨code, r.tag, y.status, y.result⟩ y.state with ⟨h, e⟩ | ⟨h, e⟩
  · rw [e, if_pos h]
    exact ⟨State.port_setPort_same _ _ _, fun p hp => State.port_setPort_other _ _ _ _ hp, rfl, rfl, rfl⟩
  · rw [e, if_neg h]
    exact ⟨State.port_setPort_same _ _ _, fun p hp => State.port_setPort_other _ _ _ _ hp, rfl, rfl, rfl⟩

theorem respond_same (r : Sender) (code : Nat) (y : Reply) : SameBlocks y.state (respond r code y) := by
  rw [respond, compose_blocks]
  exact ⟨rfl, rfl, rfl, rfl, rfl, rfl, rfl, rfl, rfl⟩

end Sys2Proof.Machine
end

