-- ==== Sys2Proof/Laws/Blocks.lean ====
section
/-! SUPPORT. What the tariff store, the settlement unit and the call table can do to the invariants of Safety: `Kept s t`
says that the port records were changed by the notice engine alone, that the three invariants carry over, and that the
queue of commands is as it was. One lemma for each shared operation. -/

namespace Sys2Proof.Machine

/-- The three invariants carry over, the ports are told, and the queue of commands stays. -/
def Kept (s t : State) : Prop :=
  PortsTold s t ∧ (TariffSound s → TariffSound t) ∧ (SettlementSound s → SettlementSound t) ∧ t.pending = s.pending

theorem Kept.refl (s : State) : Kept s s := ⟨PortsTold.refl s, id, id, rfl⟩

theorem Kept.trans {s t u : State} (h : Kept s t) (g : Kept t u) : Kept s u :=
  ⟨h.1.trans g.1, fun x => g.2.1 (h.2.1 x), fun x => g.2.2.1 (h.2.2.1 x), g.2.2.2.trans h.2.2.2⟩

theorem Kept.foldl {α : Type} (f : State → α → State) (hf : ∀ s x, Kept s (f s x)) (l : List α) (s : State) :
    Kept s (l.foldl f s) := by
  induction l generalizing s with
  | nil => exact Kept.refl s
  | cons x l ih => exact (hf s x).trans (ih (f s x))

theorem TariffSound.of_tariff {s t : State} (h : t.tariff = s.tariff) (hs : TariffSound s) : TariffSound t := by
  simp only [TariffSound, h] at hs ⊢
  exact hs

theorem SettlementSound.of_settlement {s t : State} (h : t.settlement = s.settlement) (hs : SettlementSound s) :
    SettlementSound t := by
  have hc : t.carrier = s.carrier := by funext c; simp only [State.carrier, h]
  have hp : t.pair = s.pair := by funext c; simp only [State.pair, h]
  simp only [SettlementSound, h, hc, hp] at hs ⊢
  exact hs

theorem Kept.of_same {s t : State} (hp : PortsTold s t) (ht : t.tariff = s.tariff) (hs : t.settlement = s.settlement)
    (hq : t.pending = s.pending) : Kept s t :=
  ⟨hp, TariffSound.of_tariff ht, SettlementSound.of_settlement hs, hq⟩

theorem Routed.kept {s t : State} (h : Routed s t) : Kept s t :=
  Kept.of_same h.2 (by rw [h.1]) (by rw [h.1]) (by rw [h.1])

theorem Planted.kept {s t : State} (h : Planted s t) : Kept s t := h.routed.kept
theorem Served.kept {s t : State} (h : Served s t) : Kept s t := h.planted.kept
theorem Told.kept {s t : State} (h : Told s t) : Kept s t := h.served.kept

theorem Kept.setSlot (s : State) (k : Nat) (v : Slot) : Kept s (s.setSlot k v) :=
  Kept.of_same (PortsTold.of_ports rfl) rfl rfl rfl

theorem Kept.setCall (s : State) (k : Nat) (c : Call) : Kept s (s.setCall k c) := Kept.setSlot s k _

theorem Kept.setCalls (s : State) (v : CallTable) : Kept s { s with calls := v } :=
  Kept.of_same (PortsTold.of_ports rfl) rfl rfl rfl

theorem changeCall_kept (s : State) (k : Nat) (f : Call → Call) : Kept s (s.changeCall k f) := by
  simp only [State.changeCall]
  split
  · exact Kept.setCall s _ _
  · exact Kept.refl s

/-! ## The settlement unit -/

theorem addField_le (a b : Nat) : addField a b ≤ Config.fieldMax := Nat.min_le_right _ _

/-- R170: at the length that raises the level it is 1 after the change. -/
theorem backlogAfter_rise (b : Bool) (n : Nat) (h : Config.backlogRise ≤ n) : backlogAfter b n = true := by
  have : Config.backlogFall < n := Nat.lt_of_lt_of_le (by decide) h
  cases b <;> simp [backlogAfter, h, this]

/-- R170: at the length that lowers the level it is 0 after the change. -/
theorem backlogAfter_fall (b : Bool) (n : Nat) (h : n ≤ Config.backlogFall) : backlogAfter b n = false := by
  have : n < Config.backlogRise := Nat.lt_of_le_of_lt h (by decide)
  cases b <;> simp [backlogAfter, h, this]

theorem judgeBacklog_kept_queue (s : State) (q : List SettlementRecord)
    (hq : q.length ≤ Config.settlementQueue) (hs : SettlementSound s) :
    SettlementSound (judgeBacklog { s with settlement := { s.settlement with queue := q } }) := by
  simp only [SettlementSound] at hs
  obtain ⟨h1, h2, h3, h4, h5, h6, h7, h8⟩ := hs
  simp only [judgeBacklog]
  split
  · rename_i e
    exact ⟨h1, h2, h3, hq, fun h => e.symm.trans (backlogAfter_rise _ _ h), fun h => e.symm.trans (backlogAfter_fall _ _ h),
      h7, h8⟩
  · refine SettlementSound.of_settlement (reportLevel_told _ _ _).settlement ?_
    exact ⟨h1, h2, h3, hq, fun h => backlogAfter_rise _ _ h, fun h => backlogAfter_fall _ _ h, h7, h8⟩

theorem judgeBacklog_told (s : State) : PortsTold s (judgeBacklog s) ∧ (judgeBacklog s).tariff = s.tariff ∧
    (judgeBacklog s).pending = s.pending := by
  simp only [judgeBacklog]
  split
  · exact ⟨PortsTold.refl s, rfl, rfl⟩
  · have h := reportLevel_told ⟨.settlementBacklog, 0⟩ (levelOf (backlogAfter s.settlement.backlog s.settlement.queue.length))
      { s with settlement := { s.settlement with backlog := backlogAfter s.settlement.backlog s.settlement.queue.length } }
    exact ⟨PortsTold.trans (PortsTold.of_ports rfl) h.2, h.tariff, h.pending⟩

/-- R173: an evaluation changes the carrier's hold flag alone in the settlement unit. -/
theorem evaluateHold_cases (s : State) (c : Nat) :
    PortsTold s (evaluateHold s c) ∧ (evaluateHold s c).tariff = s.tariff ∧ (evaluateHold s c).pending = s.pending ∧
      (evaluateHold s c).settlement =
        { s.settlement with
          carriers :=
            s.settlement.carriers.set c
              { s.carrier c with hold := holdOf (s.carrier c).limit (s.carrier c).total } } ∨
    (evaluateHold s c = s ∧ (s.carrier c).hold = holdOf (s.carrier c).limit (s.carrier c).total) := by
  simp only [evaluateHold]
  split
  · rename_i h
    exact Or.inr ⟨rfl, h.symm⟩
  · refine Or.inl ?_
    have h := reportLevel_told ⟨.carrierHold, c⟩ (levelOf (holdOf (s.carrier c).limit (s.carrier c).total))
      (s.setCarrier c { s.carrier c with hold := holdOf (s.carrier c).limit (s.carrier c).total })
    exact ⟨PortsTold.trans (PortsTold.of_ports rfl) h.2, h.tariff, h.pending, h.settlement⟩

theorem evaluateHold_told (s : State) (c : Nat) : PortsTold s (evaluateHold s c) ∧ (evaluateHold s c).tariff = s.tariff ∧
    (evaluateHold s c).pending = s.pending := by
  rcases evaluateHold_cases s c with ⟨h1, h2, h3, -⟩ | ⟨h, -⟩
  · exact ⟨h1, h2, h3⟩
  · rw [h]; exact ⟨PortsTold.refl s, rfl, rfl⟩

/-- R173: what every carrier record reads after an evaluation. -/
theorem carrier_evaluateHold (s : State) (c k : Nat) :
    (evaluateHold s c).carrier k =
      if k = c then { s.carrier c with hold := holdOf (s.carrier c).limit (s.carrier c).total } else s.carrier k := by
  rcases evaluateHold_cases s c with ⟨-, -, -, h⟩ | ⟨h, e⟩
  · simp only [State.carrier, h, Table.get_set]
  · rw [h]
    split
    · rename_i hk; rw [hk, ← e]
    · rfl

/-- R173: an evaluation leaves the rest of the settlement unit as it was. -/
theorem evaluateHold_rest (s : State) (c : Nat) :
    (evaluateHold s c).settlement = { s.settlement with carriers := (evaluateHold s c).settlement.carriers } := by
  rcases evaluateHold_cases s c with ⟨-, -, -, h⟩ | ⟨h, -⟩
  · rw [h]
  · rw [h]

/-- The invariant of the settlement unit but for the hold flag of one carrier. -/
def SoundBut (c : Nat) (s : State) : Prop :=
  (∀ k, (s.pair k).Within) ∧ (∀ c, (s.carrier c).total ≤ Config.fieldMax) ∧
    (∀ c, (s.carrier c).limit ≤ Config.capMax) ∧
    s.settlement.queue.length ≤ Config.settlementQueue ∧
    (Config.backlogRise ≤ s.settlement.queue.length → s.settlement.backlog = true) ∧
    (s.settlement.queue.length ≤ Config.backlogFall → s.settlement.backlog = false) ∧ s.settlement.period < 65536 ∧
    ∀ k, k < Config.carriers → k ≠ c → (s.carrier k).hold = holdOf (s.carrier k).limit (s.carrier k).total

/-- R173: the evaluation of the one carrier whose limit or total changed makes the invariant whole again. -/
theorem evaluateHold_sound (s : State) (c : Nat) (hs : SoundBut c s) : SettlementSound (evaluateHold s c) := by
  obtain ⟨h1, h2, h3, h4, h5, h6, h7, h8⟩ := hs
  have hp : (evaluateHold s c).pair = s.pair := by
    funext k; simp only [State.pair]; rw [evaluateHold_rest]
  refine ⟨by rw [hp]; exact h1, ?_, ?_, by rw [evaluateHold_rest]; exact h4, by rw [evaluateHold_rest]; exact h5,
    by rw [evaluateHold_rest]; exact h6, by rw [evaluateHold_rest]; exact h7, ?_⟩
  · intro k
    rw [carrier_evaluateHold]
    split
    · exact h2 c
    · exact h2 k
  · intro k
    rw [carrier_evaluateHold]
    split
    · exact h3 c
    · exact h3 k
  · intro k hk
    rw [carrier_evaluateHold]
    split
    · rfl
    · rename_i hne
      exact h8 k hk hne

/-- R164: handing a priced result over changes what is handed alone. -/
theorem priceRelease_kept (r : PricedRelease) (s : State) : Kept s (priceRelease r s) := by
  simp only [priceRelease]
  split
  · exact Kept.refl s
  · split
    · exact Kept.refl s
    · exact ⟨PortsTold.of_ports rfl, fun h => h, fun h => h, rfl⟩

/-! ## The tariff store -/

/-- R143: an activation keeps the tariff store sound. -/
theorem activate_kept (held : Bool) (s : State) : Kept s (activate held s) := by
  simp only [activate]
  split
  · exact Kept.refl s
  · rename_i g hg
    have h := notifyAllUp_told
      (.tariffActive g.number s.tariff.live.number s.tariff.live.references held)
      (invalidateAll
        { s with
          tariff :=
            { s.tariff with retired := some s.tariff.live, live := ⟨g.number, 0, g.tariffs⟩, staging := .empty } })
    refine ⟨PortsTold.trans (PortsTold.of_ports rfl) h.2, ?_, ?_, h.pending⟩
    · intro hs
      refine TariffSound.of_tariff h.tariff ?_
      simp only [TariffSound] at hs
      obtain ⟨h1, h2, h3, h4, h5, h6, h7, h8, h9⟩ := hs
      have hn := h5 g hg
      refine ⟨h1, h2, ?_, ?_, ?_, ?_, ?_, ?_, ?_⟩
      · show g.number < 65536
        rw [hn]; exact Nat.mod_lt _ (by omega)
      · intro b hb
        obtain rfl := Option.some.inj hb
        exact ⟨h3, hn⟩
      · intro x hx; cases hx
      · exact ⟨fun _ => rfl, fun _ => rfl⟩
      · intro _; rfl
      · exact ⟨fun h => (by cases h), fun h => (by cases h)⟩
      · exact ⟨fun h => (by cases h), fun h => (by cases h)⟩
    · exact SettlementSound.of_settlement h.settlement

/-- R143: a due activation that waits keeps the tariff store sound. -/
theorem hold_kept (s : State) (hne : s.tariff.staging.state ≠ .none) : Kept s (hold s) := by
  have h1 : Kept s (s.setStaging { s.tariff.staging with state := .held, target := none, advance := none }) := by
    refine ⟨PortsTold.of_ports rfl, ?_, fun h => h, rfl⟩
    intro hs
    simp only [TariffSound] at hs
    obtain ⟨h1, h2, h3, h4, h5, h6, h7, h8, h9⟩ := hs
    refine ⟨h1, h2, h3, h4, h5, ?_, ?_, ?_, ?_⟩
    · exact ⟨fun h => absurd (h6.mp h) hne, fun h => (by cases h)⟩
    · intro h; cases h
    · exact ⟨fun h => (by cases h), fun h => (by cases h)⟩
    · exact ⟨fun h => (by cases h), fun h => (by cases h)⟩
  simp only [hold]
  split
  · exact h1.trans (notify_told _ _ _).kept
  · exact h1

theorem takeDue_kept (s : State) (hne : s.tariff.staging.state ≠ .none) : Kept s (takeDue s) := by
  simp only [takeDue]
  split
  · exact activate_kept false s
  · exact hold_kept s hne

theorem bindLive_kept (s : State) : Kept s (bindLive s) :=
  ⟨PortsTold.of_ports rfl, fun h => h, fun h => h, rfl⟩

/-- R135, R144: a lowering, with the held activation that may follow it, keeps the tariff store sound. -/
theorem lower_kept (n : Nat) (s : State) : Kept s (lower n s) := by
  simp only [lower]
  split
  · exact ⟨PortsTold.of_ports rfl, fun h => h, fun h => h, rfl⟩
  · split
    · exact Kept.refl s
    · rename_i b hb
      have h1 : Kept s
          { s with tariff := { s.tariff with retired := some { b with references := b.references - 1 } } } := by
        refine ⟨PortsTold.of_ports rfl, ?_, fun h => h, rfl⟩
        intro hs
        simp only [TariffSound] at hs ⊢
        obtain ⟨g1, g2, g3, g4, g5⟩ := hs
        refine ⟨g1, g2, g3, ?_, g5⟩
        intro x hx
        obtain rfl := Option.some.inj hx
        exact g4 b hb
      split
      · split
        · exact h1.trans (activate_kept true _)
        · exact h1
      · exact Kept.refl s

/-! ## The call table -/

theorem priceAndLower_kept (r : CallRef) (c : Call) (cause : Cause) (time : Nat) (forced : Bool) (s : State) :
    Kept s (priceAndLower r c cause time forced s) := by
  simp only [priceAndLower]
  split
  · exact (priceRelease_kept _ s).trans (lower_kept _ _)
  · exact Kept.refl s

theorem releaseLegs_kept (r : CallRef) (c : Call) (s : State) : Kept s (releaseLegs r c s) := by
  simp only [releaseLegs]
  split
  · exact ((releaseLeg_planted _ _ _ s).trans (releaseLeg_planted _ _ _ _)).kept
  · exact (releaseLeg_planted _ _ _ s).kept

theorem leaveOrphans_kept (k : Nat) (s : State) : Kept s (leaveOrphans k s) := Kept.setCalls s _

theorem freeSlot_kept (k : Nat) (s : State) : Kept s (freeSlot k s) :=
  (Kept.setSlot s k _).trans (Kept.setCalls _ _)

/-- R116: ending a call keeps the invariants. -/
theorem endCall_kept (r : CallRef) (cause : Cause) (time : Nat) (forced : Bool) (s : State) :
    Kept s (endCall r cause time forced s) := by
  simp only [endCall]
  split
  · exact Kept.refl s
  · exact ((priceAndLower_kept _ _ _ _ _ s).trans (releaseLegs_kept _ _ _)).trans
      ((leaveOrphans_kept _ _).trans (freeSlot_kept _ _))

theorem reselect_kept (r : CallRef) (cause : Cause) (s : State) : Kept s (reselect r cause s) := by
  simp only [reselect]
  split
  · exact Kept.refl s
  · split
    · exact Kept.setCall s _ _
    · exact ((Kept.setCall s _ _).trans (walk_routed _ _ _).kept).trans (Kept.setCall _ _ _)

theorem drainCall_kept (gs : List Nat) (s : State) (k : Nat) : Kept s (drainCall gs s k) := by
  simp only [drainCall]
  split
  · exact Kept.refl s
  · split
    · split
      · exact (endCall_kept _ _ _ _ s).trans (notify_told _ _ _).kept
      · exact endCall_kept _ _ _ _ s
    · exact Kept.refl s

theorem expireOrphan_kept (s : State) (k : Nat) : Kept s (expireOrphan s k) := endCall_kept _ _ _ _ s

theorem drawIn_kept (limit : Nat) (s : State) (k : Nat) : Kept s (drawIn limit s k) := changeCall_kept s k _

theorem orphan_kept (p : Port) (k : Nat) (s : State) : Kept s (orphan p k s) :=
  (changeCall_kept s k _).trans (Kept.setCalls _ _)

theorem loseCall_kept (p : Port) (s : State) (k : Nat) : Kept s (loseCall p s k) := by
  simp only [loseCall]
  split
  · exact Kept.refl s
  · split
    · split
      · exact endCall_kept _ _ _ _ s
      · exact orphan_kept p k s
    · exact endCall_kept _ _ _ _ s

theorem takeOver_kept (lost partner : Port) (s : State) : Kept s (takeOver lost partner s) :=
  (Kept.foldl _ (fun s k => changeCall_kept s k _) _ s).trans (notify_told _ _ _).kept

theorem loseCalls_kept (l : PortLoss) (s : State) : Kept s (loseCalls l s) := by
  simp only [loseCalls]
  split
  · exact takeOver_kept _ _ s
  · exact Kept.foldl _ (loseCall_kept l.port) _ s

theorem clearCall_kept (s : State) (k : Nat) : Kept s (clearCall s k) := by
  simp only [clearCall]
  split
  · exact Kept.refl s
  · exact (priceAndLower_kept _ _ _ _ _ s).trans (freeSlot_kept _ _)

theorem clearTraffic_kept (s : State) : Kept s (clearTraffic s) :=
  ((Kept.foldl _ clearCall_kept _ s).trans (Kept.setCalls _ _)).trans (clearPlant_planted _).kept

theorem displace_kept (call : CallRef) (s : State) : Kept s (displace call s) := by
  simp only [displace]
  split
  · exact Kept.refl s
  · exact (changeCall_kept s _ _).trans (Kept.setCalls _ _)

end Sys2Proof.Machine
end

