-- ==== Sys2Proof/Laws/Handlers.lean ====
section
/-! SUPPORT. The handling of the requests and events of chapters 1 to 7 and 9: each keeps the invariants of Safety, with the
port records changed by the notice engine alone. -/

namespace Sys2Proof.Machine

/-! ## Chapter 1 -/

theorem defineGroup_planted (d : GroupDefinition) (dir : Direction) (gl : GlareRule) (hu : HuntMode) (s : State) :
    Planted s (defineGroup d dir gl hu s) := by
  simp only [defineGroup]
  split
  · exact ((((unequip_planted _ _ s).trans (equip_planted _ _ _)).trans (Planted.setGroup _ _ _)).trans
      (rebuild_planted _ _)).trans (report_served _ _ _).planted
  · exact (((((Served.setSvc s _ _).planted.trans (unequip_planted _ _ _)).trans (equip_planted _ _ _)).trans
      (Planted.setGroup _ _ _)).trans (rebuild_planted _ _)).trans (report_served _ _ _).planted

theorem handleDefineGroup_planted (d : GroupDefinition) (s : State) : Planted s (handleDefineGroup d s).state := by
  simp only [handleDefineGroup]
  split
  · split
    · exact Planted.refl s
    · exact defineGroup_planted _ _ _ _ s
  · exact Planted.refl s

theorem handleSetGroupParams_planted (g : Nat) (p : GroupChanges) (s : State) :
    Planted s (handleSetGroupParams g p s).state := by
  simp only [handleSetGroupParams, changeGroup]
  repeat' split
  all_goals first
    | exact Planted.refl s
    | exact (Planted.setGroup s _ _).trans (rederive_served _ _).planted
    | exact Planted.setGroup s _ _

theorem deleteGroup_planted (g : Nat) (s : State) : Planted s (deleteGroup g s) := by
  simp only [deleteGroup, clearGroupLevel]
  refine Planted.trans ?_ (reevaluate_served _ _ _).planted
  have h : Planted s (((unequip g [] s).setGroup g none).setSvc g .initial) :=
    ((unequip_planted _ _ s).trans (Planted.setGroup _ _ _)).trans (Served.setSvc _ _ _).planted
  split
  · exact h
  · exact h.trans (reportLevel_told _ _ _).served.planted

theorem handleDeleteGroup_planted (g : Nat) (s : State) : Planted s (handleDeleteGroup g s).state := by
  simp only [handleDeleteGroup]
  repeat' split
  all_goals first
    | exact Planted.refl s
    | exact deleteGroup_planted g s

theorem handleFlags_planted (v : Bool) (first count : Nat) (k : Arg FlagKind) (s : State) :
    Planted s (handleFlags v first count k s).state := by
  simp only [handleFlags]
  repeat' split
  all_goals first
    | exact (closeWindow_served s).planted
    | exact (closeWindow_served s).planted.trans (flagRange_planted _ _ _ _)

theorem handleLock_planted (v : Bool) (s : State) : Planted s (handleLock v s).state := ⟨rfl, PortsTold.of_ports rfl⟩

theorem handleQueryGroup_state (g : Nat) (s : State) : (handleQueryGroup g s).state = s := by
  simp only [handleQueryGroup]
  repeat' split
  all_goals rfl

theorem handleQueryCircuit_state (c : Nat) (s : State) : (handleQueryCircuit c s).state = s := by
  simp only [handleQueryCircuit]
  split <;> rfl

/-! ## Chapter 2 -/

theorem handleFarReport_served (g l : Nat) (s : State) : Served s (handleFarReport g l s).state := by
  simp only [handleFarReport]
  repeat' split
  all_goals first
    | exact Served.refl s
    | exact farReport_served _ _ s

theorem expireDecay_served (g : Nat) (s : State) : Served s (expireDecay g s) := by
  simp only [expireDecay]
  repeat' split
  all_goals first
    | exact Served.refl s
    | exact Served.setSvc s _ _

theorem addContributor_served (p : Port) (s : State) : Served s (addContributor p s) := Served.setBatch s _

theorem openBatch_served (d : Nat) (s : State) : Served s (openBatch d s) := by
  simp only [openBatch]
  split
  · exact Served.setBatch s _
  · exact Served.refl s

theorem addMember_served (gn : Nat) (g : Group) (s : State) : Served s (addMember gn g s) := by
  simp only [addMember]
  split
  · exact Served.setBatch s _
  · exact ((Served.setBatch s _).trans (Served.setSvc _ _ _)).trans (reevaluate_served _ _ _)

theorem askRelease_kept (gs : List Nat) (s : State) : Kept s (askRelease gs s) := Kept.setCalls s _

theorem joinDraining_kept (gn : Nat) (g : Group) (s : State) : Kept s (joinDraining gn g s) := by
  simp only [joinDraining]
  split
  · refine Kept.trans ?_ (memberTest_served _ _).kept
    split
    · exact askRelease_kept _ s
    · exact Kept.refl s
  · exact Kept.refl s

theorem joinBatch_kept (p : Port) (gn : Nat) (g : Group) (d : Nat) (s : State) : Kept s (joinBatch p gn g d s) :=
  (((openBatch_served d s).trans (addContributor_served p _)).trans (addMember_served gn g _)).kept.trans
    (joinDraining_kept gn g _)

theorem handleDrainGroup_kept (p : Port) (gn d : Nat) (s : State) : Kept s (handleDrainGroup p gn d s).state := by
  simp only [handleDrainGroup, drainReply]
  repeat' split
  all_goals first
    | exact Kept.refl s
    | exact (addContributor_served p s).kept
    | exact joinBatch_kept _ _ _ _ s

theorem handleDrainSuspend_served (s : State) : Served s (handleDrainSuspend s).state := by
  simp only [handleDrainSuspend, suspendReply]
  repeat' split
  all_goals first
    | exact Served.refl s
    | exact completeBatch_served s
    | exact suspendBatch_served _ s

theorem handleDrainResume_served (s : State) : Served s (handleDrainResume s).state := by
  simp only [handleDrainResume, resumeReply]
  split
  · exact resumeBatch_served s
  · exact Served.refl s

theorem handleReturnGroup_served (g : Nat) (s : State) : Served s (handleReturnGroup g s).state := by
  simp only [handleReturnGroup]
  repeat' split
  all_goals first
    | exact closeWindow_served s
    | exact (returnGroup_served g s).trans (closeWindow_served _)

theorem passDeadline_kept (s : State) : Kept s (passDeadline s) := (Served.setBatch s _).kept.trans (askRelease_kept _ _)

theorem dropContributor_served (p : Port) (s : State) : Served s (dropContributor p s) := ⟨rfl, PortsTold.of_ports rfl⟩

/-! ## Chapters 3 to 5 -/

theorem handleAddPrefix_kept (ds : List Nat) (d : Nat) (s : State) : Kept s (handleAddPrefix ds d s).state := by
  simp only [handleAddPrefix]
  repeat' split
  all_goals exact Kept.refl s

theorem handleRemovePrefix_kept (ds : List Nat) (s : State) : Kept s (handleRemovePrefix ds s).state := by
  simp only [handleRemovePrefix]
  split
  · exact Kept.refl s
  · exact Kept.refl s

theorem handleWriteDest_kept (d p : Option Nat) (b i : Option Bool) (s : State) :
    Kept s (handleWriteDest d p b i s).state := by
  simp only [handleWriteDest]
  repeat' split
  all_goals exact Kept.refl s

theorem handleSetGap_kept (d : Nat) (i l : Option Nat) (s : State) : Kept s (handleSetGap d i l s).state := by
  simp only [handleSetGap]
  repeat' split
  all_goals exact Kept.refl s

theorem handleClearGap_kept (d : Nat) (s : State) : Kept s (handleClearGap d s).state := by
  simp only [handleClearGap]
  split
  · exact Kept.refl s
  · exact Kept.refl s

theorem handleQueryGap_state (q : GapQuery) (s : State) : (handleQueryGap q s).state = s := by
  simp only [handleQueryGap]
  repeat' split
  all_goals rfl

theorem storePlan_kept (p : Nat) (steps : List PlanStep) (s : State) : Kept s (storePlan p steps s) := by
  have h1 : Kept s
      { s with
        routes := { s.routes with plans := s.routes.plans.set p steps }
        service := { s.service with planSets := updatePlanSets p (s.plan p) steps s.service.planSets } } :=
    Kept.of_same (PortsTold.of_ports rfl) rfl rfl rfl
  have h3 : ∀ u : State, Kept u (invalidatePlan p u) := fun u => Kept.of_same (PortsTold.of_ports rfl) rfl rfl rfl
  exact (h1.trans (evaluatePlan_served _ p).kept).trans (h3 _)

theorem handleWritePlan_kept (p : Nat) (as : List StepArg) (s : State) : Kept s (handleWritePlan p as s).state := by
  simp only [handleWritePlan]
  repeat' split
  all_goals first
    | exact Kept.refl s
    | exact storePlan_kept _ _ s

theorem handleQueryPlan_state (p : Nat) (s : State) : (handleQueryPlan p s).state = s := by
  simp only [handleQueryPlan]
  split <;> rfl

theorem handleReattemptLimit_kept (l : Option Nat) (s : State) : Kept s (handleReattemptLimit l s).state := by
  simp only [handleReattemptLimit]
  split
  · exact Kept.refl s
  · exact Kept.of_same (PortsTold.of_ports rfl) rfl rfl rfl

theorem handleFlush_kept (s : State) : Kept s (handleFlush s).state := Kept.of_same (PortsTold.of_ports rfl) rfl rfl rfl

theorem handleQueryMemory_state (d k : Option Nat) (s : State) : (handleQueryMemory d k s).state = s := by
  simp only [handleQueryMemory]
  repeat' split
  all_goals rfl

/-! ## Chapter 6 -/

theorem refuseOffer_kept (c : Nat) (f : Former) (st : Status) (s : State) : Kept s (refuseOffer c f st s).state :=
  (undoInbound_planted c f s).kept

theorem walkOffer_kept (p : Port) (c : Nat) (r : CallRef) (f : Former) (cls : CallClass) (ig ic : Nat) (t : Target)
    (s : State) : Kept s (walkOffer p c r f cls ig ic t s).state := by
  have h := (walk_routed (offerCall r cls ig t) (s.plan t.plan) s).kept
  simp only [walkOffer]
  split
  · exact h
  · exact h.trans (refuseOffer_kept _ _ _ _)

theorem afterGapCheck_kept (d : Nat) (cls : CallClass) (s : State) : Kept s (afterGapCheck d cls s) := by
  simp only [afterGapCheck]
  repeat' split
  all_goals exact Kept.refl s

theorem routeOffer_kept (p : Port) (c : Nat) (r : CallRef) (f : Former) (ds : List Nat) (cls : CallClass) (ig ic : Nat)
    (s : State) : Kept s (routeOffer p c r f ds cls ig ic s).state := by
  simp only [routeOffer]
  split
  · exact refuseOffer_kept _ _ _ s
  · rename_i t _
    have h := afterGapCheck_kept t.destination cls s
    split
    · exact h.trans (refuseOffer_kept _ _ _ _)
    · split
      · exact h.trans (refuseOffer_kept _ _ _ _)
      · exact h.trans (walkOffer_kept _ _ _ _ _ _ _ _ _)

theorem seizeOffer_kept (p : Port) (c : Nat) (ds : List Nat) (cls : CallClass) (r : CallRef) (s : State) :
    Kept s (seizeOffer p c ds cls r s).state := by
  simp only [seizeOffer]
  have h := (occupyIn_planted c r s).kept
  split
  · exact Kept.refl s
  · exact h.trans (routeOffer_kept _ _ _ _ _ _ _ _ _)
  · rename_i d _
    exact (h.trans (displace_kept d _)).trans (routeOffer_kept _ _ _ _ _ _ _ _ _)

theorem checkOffer_kept (p : Port) (c : Nat) (ds : List Nat) (cls : Arg CallClass) (s : State) :
    Kept s (checkOffer p c ds cls s).1.state := by
  simp only [checkOffer]
  split
  · exact Kept.refl s
  · split
    · exact Kept.refl s
    · exact seizeOffer_kept _ _ _ _ _ _

theorem settleDisplaced_kept (o : OfferInProgress) (s : State) : Kept s (settleDisplaced o s) := by
  simp only [settleDisplaced]
  split
  · exact displace_kept _ s
  · exact Kept.refl s

theorem settleNoted_kept (o : OfferInProgress) (s : State) : Kept s (settleNoted o s) := by
  simp only [settleNoted]
  split
  · split
    · exact Kept.refl s
    · split
      · exact (endCall_kept _ _ _ _ s).trans (notify_told _ _ _).kept
      · exact endCall_kept _ _ _ _ s
  · exact Kept.refl s

theorem keepRecord_kept (o : OfferInProgress) (s : State) : Kept s (keepRecord o s) := by
  have h := (Kept.setCall s o.ref.slot o.record).trans (settleDisplaced_kept o _)
  simp only [keepRecord]
  split
  · exact h.trans (settleNoted_kept o _)
  · exact (h.trans ((changeCall_kept _ _ _).trans (notify_told _ _ _).kept)).trans (settleNoted_kept o _)
  · exact h.trans (endCall_kept _ _ _ _ _)

theorem handleOffer_kept (r : Sender) (c : Nat) (ds : List Nat) (cls : Arg CallClass) (s : State) :
    Kept s (handleOffer r c ds cls s).state := by
  have h := checkOffer_kept r.port c ds cls s
  simp only [handleOffer]
  split
  · rename_i e; rw [e] at h; exact h
  · rename_i e; rw [e] at h; exact h.trans (keepRecord_kept _ _)

theorem handleAccepted_kept (p : Port) (r : CallRef) (s : State) : Kept s (handleAccepted p r s).state := by
  simp only [handleAccepted]
  repeat' split
  all_goals exact Kept.refl s

theorem answerCall_kept (r : CallRef) (c : Call) (s : State) : Kept s (answerCall r c s) := by
  simp only [answerCall]
  have h := (bindLive_kept s).trans
    (Kept.setCall _ r.slot { c with state := .answered, answer := some (answerFacts s) })
  split
  · exact h.trans (outcome_routed _ _ _ _ _).kept
  · exact h

theorem handleAnswer_kept (p : Port) (r : CallRef) (s : State) : Kept s (handleAnswer p r s).state := by
  simp only [handleAnswer]
  repeat' split
  all_goals first
    | exact Kept.refl s
    | exact answerCall_kept _ _ s

theorem reattemptCall_kept (r : CallRef) (c : Call) (cause : Cause) (l : Option Nat) (s : State) :
    Kept s (reattemptCall r c cause l s) := by
  have h1 : Kept s (handLevel c l s) := by
    simp only [handLevel]
    split
    · exact (farReport_served _ _ s).kept
    · exact Kept.refl s
  have h2 : ∀ u : State, Kept u (handFailure c u) := by
    intro u
    simp only [handFailure]
    split
    · exact (outcome_routed _ _ _ _ _).kept
    · exact Kept.refl u
  have h3 : ∀ u : State, Kept u (dropLeg r c cause u) := by
    intro u
    simp only [dropLeg]
    refine Kept.trans ?_ (Kept.setCall _ _ _)
    split
    · exact (releaseLeg_planted _ _ _ u).kept
    · exact Kept.refl u
  exact ((h1.trans (h2 _)).trans (h3 _)).trans (reselect_kept _ _ _)

theorem handleReattempt_kept (p : Port) (r : CallRef) (c : Arg Cause) (l : Option Nat) (s : State) :
    Kept s (handleReattempt p r c l s).state := by
  simp only [handleReattempt]
  repeat' split
  all_goals first
    | exact Kept.refl s
    | exact reattemptCall_kept _ _ _ _ s

theorem handleRelease_kept (p : Port) (r : CallRef) (c : Arg Cause) (s : State) : Kept s (handleRelease p r c s).state := by
  simp only [handleRelease]
  repeat' split
  all_goals first
    | exact Kept.refl s
    | exact endCall_kept _ _ _ _ s

theorem adoptCall_kept (p : Port) (s : State) (k : Nat) : Kept s (adoptCall p s k) :=
  (changeCall_kept s k _).trans (leaveOrphans_kept k _)

theorem handleAdopt_kept (p : Port) (q : Arg Port) (s : State) : Kept s (handleAdopt p q s).state := by
  simp only [handleAdopt]
  split
  · exact Kept.refl s
  · exact Kept.refl s
  · exact Kept.foldl _ (adoptCall_kept p) _ s

theorem handleQueryCall_state (r : CallRef) (s : State) : (handleQueryCall r s).state = s := by
  simp only [handleQueryCall]
  split <;> rfl

theorem handleClearTraffic_kept (s : State) : Kept s (handleClearTraffic s).state := clearTraffic_kept s

theorem handleOrphanLimit_kept (l : Option Nat) (s : State) : Kept s (handleOrphanLimit l s).state := by
  simp only [handleOrphanLimit, drawInAll]
  split
  · exact Kept.refl s
  · exact ((Kept.setCalls s _).trans (Kept.foldl _ (drawIn_kept _) _ _)).trans (Kept.foldl _ expireOrphan_kept _ _)

theorem tellOwner_kept (r : CallRef) (s : State) : Kept s (tellOwner r s) := by
  simp only [tellOwner]
  split
  · exact Kept.refl s
  · split
    · exact (notify_told _ _ s).kept
    · exact Kept.refl s

theorem reselectDisplaced_kept (r : CallRef) (s : State) : Kept s (reselectDisplaced r s) := by
  simp only [reselectDisplaced]
  split
  · exact Kept.refl s
  · exact ((Kept.setCall s _ _).trans (reselect_kept _ _ _)).trans (tellOwner_kept _ _)

theorem takeReleaseList_kept (gs : List Nat) (s : State) : Kept s (takeReleaseList gs s) :=
  (Kept.setCalls s _).trans (Kept.foldl _ (drainCall_kept gs) _ _)

/-! ## Chapter 7 -/

theorem Kept.setStaging (s : State) (t : Staging)
    (h : TariffSound s → TariffSound (s.setStaging t)) : Kept s (s.setStaging t) :=
  ⟨PortsTold.of_ports rfl, h, fun h => h, rfl⟩

theorem handleStageOpen_kept (p : Port) (s : State) : Kept s (handleStageOpen p s).state := by
  simp only [handleStageOpen]
  split
  · refine Kept.setStaging s _ ?_
    intro hs
    simp only [TariffSound] at hs ⊢
    obtain ⟨h1, h2, h3, h4, h5, h6, h7, h8, h9⟩ := hs
    refine ⟨h1, h2, h3, h4, ?_, by simp, by simp, by simp, by simp⟩
    intro g hg
    simp only [State.staging_setStaging, Option.some.injEq] at hg
    rw [← hg]
    rfl
  · exact Kept.refl s

theorem changeStaged_kept (f : Tariffs → Tariffs) (s : State) : Kept s (changeStaged f s) := by
  refine Kept.setStaging s _ ?_
  intro hs
  simp only [TariffSound] at hs ⊢
  obtain ⟨h1, h2, h3, h4, h5, h6, h7, h8, h9⟩ := hs
  refine ⟨h1, h2, h3, h4, ?_, ?_, h7, h8, h9⟩
  · intro g hg
    simp only [State.staging_setStaging, Option.map_eq_some_iff] at hg
    obtain ⟨x, hx, rfl⟩ := hg
    exact h5 x hx
  · simpa using h6

theorem handleWriteTariff_kept (p : Port) (c k : Nat) (f : TariffFields) (s : State) :
    Kept s (handleWriteTariff p c k f s).state := by
  simp only [handleWriteTariff]
  repeat' split
  all_goals first
    | exact Kept.refl s
    | exact changeStaged_kept _ s

theorem handleWriteMargin_kept (p : Port) (c : Nat) (m : Option Nat) (s : State) :
    Kept s (handleWriteMargin p c m s).state := by
  simp only [handleWriteMargin]
  repeat' split
  all_goals first
    | exact Kept.refl s
    | exact changeStaged_kept _ s

theorem handleWriteSchedule_kept (p : Port) (d : Arg DayType) (i : Nat) (bs : List (Arg Band)) (s : State) :
    Kept s (handleWriteSchedule p d i bs s).state := by
  simp only [handleWriteSchedule]
  repeat' split
  all_goals first
    | exact Kept.refl s
    | exact changeStaged_kept _ s

theorem handleWriteWeek_kept (p : Port) (ds : List (Nat × Arg DayType)) (s : State) :
    Kept s (handleWriteWeek p ds s).state := by
  simp only [handleWriteWeek]
  repeat' split
  all_goals first
    | exact Kept.refl s
    | exact changeStaged_kept _ s

/-- R138: a write or an activation that is not refused finds the staging bank OPEN. -/
theorem writeRefusal_none {s : State} {p : Port} (h : writeRefusal s p = none) : s.tariff.staging.state = .opened := by
  simp only [writeRefusal] at h
  split at h
  · cases h
  · split at h
    · cases h
    · rename_i hn
      simpa using hn

theorem activationRefusal_none {s : State} {p : Port} {t : ActivationTarget} (h : activationRefusal s p t = none) :
    s.tariff.staging.state = .opened := by
  rcases t with _ | w
  · exact writeRefusal_none h
  · simp only [activationRefusal] at h
    split at h
    · cases h
    · split at h
      · cases h
      · rename_i hn
        exact writeRefusal_none hn

theorem startActivation_kept (t : ActivationTarget) (s : State) (ho : s.tariff.staging.state = .opened) :
    Kept s (startActivation t s) := by
  have hne : s.tariff.staging.state ≠ .none := by rw [ho]; simp
  simp only [startActivation]
  split
  · split
    · exact takeDue_kept s hne
    · refine Kept.setStaging s _ ?_
      intro hs
      simp only [TariffSound] at hs ⊢
      obtain ⟨h1, h2, h3, h4, h5, h6, h7, h8, h9⟩ := hs
      refine ⟨h1, h2, h3, h4, h5, ?_, by simp, by simp, by simp⟩
      simp only [State.staging_setStaging]
      exact ⟨fun h => absurd (h6.mp h) hne, fun h => (by cases h)⟩
  · exact takeDue_kept s hne

theorem handleStageActivate_kept (p : Port) (t : Option ActivationTarget) (s : State) :
    Kept s (handleStageActivate p t s).state := by
  simp only [handleStageActivate]
  split
  · exact Kept.refl s
  · split
    · exact Kept.refl s
    · rename_i h
      exact startActivation_kept _ s (activationRefusal_none h)

theorem setStagingEmpty_kept (s : State) : Kept s (s.setStaging .empty) := by
  refine Kept.setStaging s _ ?_
  intro hs
  simp only [TariffSound] at hs ⊢
  obtain ⟨h1, h2, h3, h4, -⟩ := hs
  exact ⟨h1, h2, h3, h4, fun g hg => (by cases hg), by simp [Staging.empty], by simp [Staging.empty],
    by simp [Staging.empty], by simp [Staging.empty]⟩

theorem handleStageAbort_kept (p : Port) (s : State) : Kept s (handleStageAbort p s).state := by
  simp only [handleStageAbort]
  repeat' split
  all_goals first
    | exact Kept.refl s
    | exact setStagingEmpty_kept s

theorem handleQueryTariff_state (b : Arg Bank) (i : Arg TariffItem) (s : State) : (handleQueryTariff b i s).state = s := by
  simp only [handleQueryTariff]
  repeat' split
  all_goals rfl

theorem withWeekTime_kept (w : Nat) (s : State) (hw : w < Config.week) : Kept s (withWeekTime w s) := by
  refine ⟨PortsTold.of_ports rfl, ?_, fun h => h, rfl⟩
  intro hs
  simp only [TariffSound] at hs ⊢
  obtain ⟨h1, -, h3⟩ := hs
  refine ⟨h1, ?_, h3⟩
  intro x hx
  simp only [withWeekTime, Option.some.injEq] at hx
  omega

theorem setWeekClock_kept (w : Nat) (s : State) (hw : w < Config.week) : Kept s (setWeekClock w s) := by
  simp only [setWeekClock]
  split
  · rename_i old target advance hst hwt htg had
    have hne : s.tariff.staging.state ≠ .none := by rw [hst]; simp
    split
    · exact (takeDue_kept s hne).trans (withWeekTime_kept w _ hw)
    · split
      · exact (withWeekTime_kept w s hw).trans (takeDue_kept _ hne)
      · refine (withWeekTime_kept w s hw).trans (Kept.setStaging _ _ ?_)
        intro hs
        simp only [TariffSound] at hs ⊢
        obtain ⟨h1, h2, h3, h4, h5, h6, h7, h8, h9⟩ := hs
        refine ⟨h1, h2, h3, h4, h5, h6, h7, h8, ?_⟩
        simp only [State.staging_setStaging]
        exact ⟨fun _ => hst, fun _ => rfl⟩
  · exact withWeekTime_kept w s hw

theorem handleSetClock_kept (d m : Option Nat) (s : State) : Kept s (handleSetClock d m s).state := by
  simp only [handleSetClock]
  split
  · rename_i d m
    split
    · exact Kept.refl s
    · rename_i h
      refine setWeekClock_kept _ s ?_
      simp only [not_or, Nat.not_le, Config.day, Config.week] at h ⊢
      omega
  · exact Kept.refl s

theorem loseHolder_kept (p : Port) (s : State) :
    Kept s { s with tariff := { s.tariff with staging := loseHolder p s.tariff.staging, losses := s.tariff.losses.erase p } } := by
  refine ⟨PortsTold.of_ports rfl, ?_, fun h => h, rfl⟩
  intro hs
  simp only [TariffSound] at hs ⊢
  obtain ⟨h1, h2, h3, h4, h5, h6, h7, h8, h9⟩ := hs
  simp only [loseHolder]
  split
  · cases hst : s.tariff.staging.state <;> simp only [hst] at *
    · exact ⟨h1, h2, h3, h4, fun g hg => (by cases hg), by simp [Staging.empty], by simp [Staging.empty],
        by simp [Staging.empty], by simp [Staging.empty]⟩
    · exact ⟨h1, h2, h3, h4, fun g hg => (by cases hg), by simp [Staging.empty], by simp [Staging.empty],
        by simp [Staging.empty], by simp [Staging.empty]⟩
    · exact ⟨h1, h2, h3, h4, h5, by simpa using h6, by simp, by simpa using h8, by simpa using h9⟩
    · exact ⟨h1, h2, h3, h4, h5, by simpa using h6, by simp, by simpa using h8, by simpa using h9⟩
  · exact ⟨h1, h2, h3, h4, h5, h6, h7, h8, h9⟩

end Sys2Proof.Machine
end

