-- ==== Sys2Proof/Laws/Plant.lean ====
section
/-! SUPPORT. The plant store's invariant (R2): what each operation on circuits does to the idle set and the counts of the
groups, and that the operations of the other blocks leave the plant store alone. -/

namespace Sys2Proof.Machine

/-! ## A write in a canonical list -/

theorem entries_split_at {α : Type} {d : α} [DecidableEq α] (l : List (Nat × α)) (k : Nat)
    (h : l.Pairwise (fun e f => e.1 < f.1) ∧ ∀ e ∈ l, e.2 ≠ d) :
    ∃ lo hi, l = lo ++ (if lookupIn d l k = d then [] else [(k, lookupIn d l k)]) ++ hi ∧
      (∀ v, writeIn d l k v = lo ++ (if v = d then [] else [(k, v)]) ++ hi) ∧
      (∀ e ∈ lo, e.1 < k) ∧ ∀ e ∈ hi, k < e.1 := by
  induction l with
  | nil => exact ⟨[], [], by simp [lookupIn], fun v => by simp [writeIn], by simp, by simp⟩
  | cons f l ih =>
    obtain ⟨hp, hd⟩ := h
    obtain ⟨hf, hl⟩ := List.pairwise_cons.mp hp
    by_cases h1 : f.1 < k
    · obtain ⟨lo, hi, e1, e2, b1, b2⟩ := ih ⟨hl, fun e he => hd e (List.mem_cons_of_mem f he)⟩
      have hk : lookupIn d (f :: l) k = lookupIn d l k := by
        simp only [lookupIn]
        rw [if_neg (show ¬f.1 = k by omega), if_neg (show ¬k < f.1 by omega)]
      refine ⟨f :: lo, hi, ?_, fun v => ?_, ?_, b2⟩
      · rw [hk]
        simpa using e1
      · simp only [writeIn]
        rw [if_pos h1, e2 v]
        simp
      · intro e he
        rcases List.mem_cons.mp he with rfl | he
        · exact h1
        · exact b1 e he
    · by_cases h2 : f.1 = k
      · have hdw : l.dropWhile (fun e => decide (e.1 ≤ k)) = l := by
          cases l with
          | nil => rfl
          | cons g l =>
            have := hf g (by simp)
            rw [List.dropWhile_cons_of_neg (by simp; omega)]
        have hne : f.2 ≠ d := hd f (by simp)
        have hk : lookupIn d (f :: l) k = f.2 := by
          simp only [lookupIn]
          rw [if_pos h2]
        refine ⟨[], l, ?_, fun v => ?_, by simp, fun e he => h2 ▸ hf e he⟩
        · rw [hk, if_neg hne, ← h2]
          simp
        · simp only [writeIn]
          rw [if_neg h1, if_pos h2, hdw]
          by_cases hv : v = d <;> simp [hv]
      · have hk : lookupIn d (f :: l) k = d := by
          simp only [lookupIn]
          rw [if_neg h2, if_pos (by omega)]
        refine ⟨[], f :: l, ?_, fun v => ?_, by simp, ?_⟩
        · rw [hk]
          simp
        · simp only [writeIn]
          rw [if_neg h1, if_neg h2]
          by_cases hv : v = d <;> simp [hv]
        · intro e he
          rcases List.mem_cons.mp he with rfl | he
          · omega
          · have := hf e he; omega

/-- A canonical table seen from one number: what is listed below it, at it and above it, before and after a write. -/
theorem Table.split_at {α : Type} {d : α} [DecidableEq α] (t : Table α d) (k : Nat) (h : t.wf = true) :
    ∃ lo hi, t.entries = lo ++ (if t.get k = d then [] else [(k, t.get k)]) ++ hi ∧
      (∀ v, (t.set k v).entries = lo ++ (if v = d then [] else [(k, v)]) ++ hi) ∧
      (∀ e ∈ lo, e.1 < k) ∧ ∀ e ∈ hi, k < e.1 :=
  entries_split_at t.entries k ((Table.wf_iff t).mp h)

/-! ## Rising lists of numbers -/

theorem removeNumber_mid (a b : List Nat) (c : Nat) (ha : ∀ x ∈ a, x < c) (hb : ∀ x ∈ b, c < x) :
    removeNumber c (a ++ [c] ++ b) = a ++ b := by
  have ea : a.filter (fun i => decide (i ≠ c)) = a :=
    List.filter_eq_self.mpr (fun x hx => by have := ha x hx; simp; omega)
  have eb : b.filter (fun i => decide (i ≠ c)) = b :=
    List.filter_eq_self.mpr (fun x hx => by have := hb x hx; simp; omega)
  simp only [removeNumber, List.filter_append, ea, eb]
  simp

theorem insertNumber_above (b : List Nat) (c : Nat) (hb : ∀ x ∈ b, c < x) : insertNumber c b = c :: b := by
  cases b with
  | nil => rfl
  | cons x b => simp [insertNumber, hb x (by simp)]

theorem insertNumber_mid (a b : List Nat) (c : Nat) (ha : ∀ x ∈ a, x < c) (hb : ∀ x ∈ b, c < x) :
    insertNumber c (a ++ b) = a ++ [c] ++ b := by
  induction a with
  | nil => simpa using insertNumber_above b c hb
  | cons x a ih =>
    have hx := ha x (by simp)
    simp only [List.cons_append, insertNumber]
    rw [if_neg (by omega), if_neg (by omega), ih (fun y hy => ha y (by simp [hy]))]

/-! ## One circuit changes (R2) -/

/-- The circuits of a group listed by some circuit records. -/
def circuitsIn (n : Nat) (l : List (Nat × Option Equipped)) : List (Nat × Equipped) :=
  l.filterMap (fun e =>
    match e.2 with
    | some x => if x.group = n then some (e.1, x) else none
    | none => none)

theorem groupCircuits_eq (s : State) (n : Nat) : groupCircuits s n = circuitsIn n s.plant.circuits.entries := rfl

theorem circuitsIn_append (n : Nat) (a b : List (Nat × Option Equipped)) :
    circuitsIn n (a ++ b) = circuitsIn n a ++ circuitsIn n b := List.filterMap_append

theorem mem_circuitsIn {n : Nat} {l : List (Nat × Option Equipped)} {x : Nat × Equipped} (h : x ∈ circuitsIn n l) :
    (x.1, some x.2) ∈ l ∧ x.2.group = n := by
  obtain ⟨y, hy, e⟩ := List.mem_filterMap.mp h
  obtain ⟨c, o⟩ := y
  cases o with
  | none => simp at e
  | some z =>
    simp only at e
    split at e
    · rename_i hz
      obtain rfl := Option.some.inj e
      exact ⟨hy, hz⟩
    · cases e

/-- The circuits of a group, seen from one circuit: those below it, itself when it is of the group, those above it; and
what they are after its record is replaced. -/
theorem groupCircuits_split (s : State) (c n : Nat) (h : s.plant.circuits.wf = true) :
    ∃ A B, (∀ x ∈ A, x.1 < c) ∧ (∀ x ∈ B, c < x.1) ∧
      groupCircuits s n = A ++ circuitsIn n [(c, s.circuit c)] ++ B ∧
      ∀ v, groupCircuits (s.setCircuit c v) n = A ++ circuitsIn n [(c, v)] ++ B := by
  obtain ⟨lo, hi, e1, e2, b1, b2⟩ := s.plant.circuits.split_at c h
  have mid : ∀ v : Option Equipped, circuitsIn n (if v = none then [] else [(c, v)]) = circuitsIn n [(c, v)] := by
    intro v
    cases v with
    | none => rfl
    | some x => rfl
  refine ⟨circuitsIn n lo, circuitsIn n hi, fun x hx => b1 _ (mem_circuitsIn hx).1, fun x hx => b2 _ (mem_circuitsIn hx).1,
    ?_, fun v => ?_⟩
  · rw [groupCircuits_eq, e1, circuitsIn_append, circuitsIn_append, mid]; rfl
  · rw [groupCircuits_eq]
    show circuitsIn n (s.plant.circuits.set c v).entries = _
    rw [e2 v, circuitsIn_append, circuitsIn_append, mid]

/-- What a group record says of a list of its circuits. -/
def Counts (g : Group) (cs : List (Nat × Equipped)) : Prop :=
  g.idleSet = (inCondition .available cs).map Prod.fst ∧ g.available = (inCondition .available cs).length ∧
    g.blockedIdle = (inCondition .blockedIdle cs).length ∧ g.busyIn = (inCondition .busyIn cs).length ∧
    g.busyOut = (inCondition .busyOut cs).length ∧ g.inGuard = (inCondition .inGuard cs).length

theorem inCondition_append (k : Condition) (a b : List (Nat × Equipped)) :
    inCondition k (a ++ b) = inCondition k a ++ inCondition k b := List.filter_append ..

theorem inCondition_one (k : Condition) (x : Nat × Equipped) :
    inCondition k [x] = if x.2.condition = k then [x] else [] := by
  simp [inCondition, List.filter_cons]

/-- R2: moving from one count to another, over what each count holds of the other circuits. -/
theorem Group.move_counts (g : Group) (c : Nat) (old new : Condition) (ia ib : List Nat) (n1 n2 n3 n4 n5 : Nat)
    (hA : ∀ x ∈ ia, x < c) (hB : ∀ x ∈ ib, c < x)
    (h0 : g.idleSet = ia ++ (if old = .available then [c] else []) ++ ib)
    (h1 : g.available = n1 + if old = .available then 1 else 0)
    (h2 : g.blockedIdle = n2 + if old = .blockedIdle then 1 else 0)
    (h3 : g.busyIn = n3 + if old = .busyIn then 1 else 0) (h4 : g.busyOut = n4 + if old = .busyOut then 1 else 0)
    (h5 : g.inGuard = n5 + if old = .inGuard then 1 else 0) :
    (g.move c old new).idleSet = ia ++ (if new = .available then [c] else []) ++ ib ∧
      (g.move c old new).available = n1 + (if new = .available then 1 else 0) ∧
      (g.move c old new).blockedIdle = n2 + (if new = .blockedIdle then 1 else 0) ∧
      (g.move c old new).busyIn = n3 + (if new = .busyIn then 1 else 0) ∧
      (g.move c old new).busyOut = n4 + (if new = .busyOut then 1 else 0) ∧
      (g.move c old new).inGuard = n5 + (if new = .inGuard then 1 else 0) := by
  have rem := removeNumber_mid ia ib c hA hB
  have ins := insertNumber_mid ia ib c hA hB
  cases old <;> cases new <;>
    simp only [reduceCtorEq, if_true, if_false, List.append_nil, Nat.add_zero] at h0 h1 h2 h3 h4 h5 ⊢ <;>
    simp only [Group.move, Group.leave, Group.join, reduceCtorEq, if_true, if_false, h0, h1, h2, h3, h4, h5, rem, ins,
      Nat.add_sub_cancel, and_self]

/-- R2: a group record that leaves one count for another counts a list with the one circuit changed. -/
theorem Counts.move {g : Group} {A B : List (Nat × Equipped)} {c : Nat} {e e' : Equipped}
    (hA : ∀ x ∈ A, x.1 < c) (hB : ∀ x ∈ B, c < x.1) (h : Counts g (A ++ [(c, e)] ++ B)) :
    Counts (g.move c e.condition e'.condition) (A ++ [(c, e')] ++ B) := by
  have hA' : ∀ x ∈ (inCondition .available A).map Prod.fst, x < c := by
    intro x hx
    obtain ⟨y, hy, rfl⟩ := List.mem_map.mp hx
    exact hA y (List.mem_filter.mp hy).1
  have hB' : ∀ x ∈ (inCondition .available B).map Prod.fst, c < x := by
    intro x hx
    obtain ⟨y, hy, rfl⟩ := List.mem_map.mp hx
    exact hB y (List.mem_filter.mp hy).1
  have one : ∀ (x : Equipped) (k : Condition), (inCondition k [(c, x)]).map Prod.fst = if x.condition = k then [c] else [] := by
    intro x k
    rw [inCondition_one]
    by_cases hk : x.condition = k <;> simp [hk]
  have len : ∀ (x : Equipped) (k : Condition), (inCondition k [(c, x)]).length = if x.condition = k then 1 else 0 := by
    intro x k
    rw [inCondition_one]
    by_cases hk : x.condition = k <;> simp [hk]
  have tot : ∀ (x : Equipped) (k : Condition), (inCondition k (A ++ [(c, x)] ++ B)).length =
      ((inCondition k A).length + (inCondition k B).length) + if x.condition = k then 1 else 0 := by
    intro x k
    rw [inCondition_append, inCondition_append, List.length_append, List.length_append, len]
    omega
  have idl : ∀ x : Equipped, (inCondition .available (A ++ [(c, x)] ++ B)).map Prod.fst =
      (inCondition .available A).map Prod.fst ++ (if x.condition = .available then [c] else []) ++
        (inCondition .available B).map Prod.fst := by
    intro x
    rw [inCondition_append, inCondition_append, List.map_append, List.map_append, one]
  simp only [Counts, tot, idl] at h ⊢
  obtain ⟨h0, h1, h2, h3, h4, h5⟩ := h
  exact g.move_counts c e.condition e'.condition _ _ _ _ _ _ _ hA' hB' h0 h1 h2 h3 h4 h5

/-- R2: the group record after a circuit of the group has changed counts the circuits as they now are. -/
theorem changeCircuit_sound (c : Nat) (f : Equipped → Equipped) (hf : ∀ e, (f e).group = e.group) {s : State}
    (hs : PlantSound s) : PlantSound (changeCircuit c f s) := by
  simp only [changeCircuit]
  split
  · exact hs
  · rename_i e he
    obtain ⟨hw, hc, hg⟩ := hs
    have hin : ∀ i x, (s.setCircuit c (some (f e))).circuit i = some x → ∃ y, s.circuit i = some y ∧ y.group = x.group := by
      intro i x hx
      simp only [State.circuit, State.setCircuit, Table.get_set] at hx
      split at hx
      · rename_i h
        subst h
        obtain rfl := Option.some.inj hx
        exact ⟨e, he, (hf e).symm⟩
      · exact ⟨x, hx, rfl⟩
    have hout : ∀ i x, s.circuit i = some x → ∃ y, (s.setCircuit c (some (f e))).circuit i = some y ∧ y.group = x.group := by
      intro i x hx
      simp only [State.circuit, State.setCircuit, Table.get_set]
      split
      · rename_i h
        subst h
        rw [he] at hx
        obtain rfl := Option.some.inj hx
        exact ⟨f e, rfl, hf e⟩
      · exact ⟨x, hx, rfl⟩
    obtain ⟨ge, hge⟩ := Option.isSome_iff_exists.mp (hc c e he).2
    simp only [hge]
    have hgrp : ∀ n, ((s.setCircuit c (some (f e))).setGroup e.group
        (some (ge.move c e.condition (f e).condition))).group n =
        if n = e.group then some (ge.move c e.condition (f e).condition) else s.group n := by
      intro n
      simp only [State.group, State.setGroup, State.setCircuit, Table.get_set]
    refine ⟨Table.set_wf _ _ _ hw, ?_, ?_⟩
    · intro i x hx
      obtain ⟨y, hy, hyg⟩ := hin i x hx
      obtain ⟨h1, h2⟩ := hc i y hy
      refine ⟨h1, ?_⟩
      rw [hgrp, ← hyg]
      split
      · rfl
      · exact h2
    · intro n g hn
      rw [hgrp] at hn
      obtain ⟨A, B, hA, hB, e1, e2⟩ := groupCircuits_split s c n hw
      have e3 := e2 (some (f e))
      change groupCircuits ((s.setCircuit c (some (f e))).setGroup e.group (some (ge.move c e.condition (f e).condition))) n = _ at e3
      have rng : ∀ g0 : Group, GroupSound s n g0 → ∀ i, inRanges g0.ranges i = true ↔
          ∃ x, (s.setCircuit c (some (f e))).circuit i = some x ∧ x.group = n := by
        intro g0 h0 i
        rw [h0.2.2.2.2.2.2 i]
        constructor
        · rintro ⟨x, hx, hxn⟩
          obtain ⟨y, hy, hyg⟩ := hout i x hx
          exact ⟨y, hy, hyg.trans hxn⟩
        · rintro ⟨x, hx, hxn⟩
          obtain ⟨y, hy, hyg⟩ := hin i x hx
          exact ⟨y, hy, hyg.trans hxn⟩
      split at hn
      · rename_i hne
        subst hne
        obtain rfl := Option.some.inj hn
        have h0 := hg _ ge hge
        have hcnt : Counts ge (A ++ [(c, e)] ++ B) := by
          obtain ⟨a1, a2, a3, a4, a5, a6, -⟩ := h0
          have : circuitsIn e.group [(c, s.circuit c)] = [(c, e)] := by simp [circuitsIn, he]
          rw [this] at e1
          rw [e1] at a1 a2 a3 a4 a5 a6
          exact ⟨a1, a2, a3, a4, a5, a6⟩
        obtain ⟨b1, b2, b3, b4, b5, b6⟩ := hcnt.move (e' := f e) hA hB
        have : circuitsIn e.group [(c, some (f e))] = [(c, f e)] := by simp [circuitsIn, hf]
        rw [this] at e3
        have hr : (ge.move c e.condition (f e).condition).ranges = ge.ranges := by
          cases e.condition <;> cases (f e).condition <;> rfl
        refine ⟨by rw [e3]; exact b1, by rw [e3]; exact b2, by rw [e3]; exact b3, by rw [e3]; exact b4,
          by rw [e3]; exact b5, by rw [e3]; exact b6, ?_⟩
        rw [hr]
        exact rng ge h0
      · rename_i hne
        have h0 := hg n g hn
        have m1 : circuitsIn n [(c, s.circuit c)] = [] := by simp [circuitsIn, he, Ne.symm hne]
        have m2 : circuitsIn n [(c, some (f e))] = [] := by simp [circuitsIn, hf, Ne.symm hne]
        rw [m1] at e1
        rw [m2] at e3
        obtain ⟨a1, a2, a3, a4, a5, a6, a7⟩ := h0
        rw [e1, ← e3] at a1 a2 a3 a4 a5 a6
        exact ⟨a1, a2, a3, a4, a5, a6, rng g ⟨by rw [e1, ← e3]; exact a1, by rw [e1, ← e3]; exact a2,
          by rw [e1, ← e3]; exact a3, by rw [e1, ← e3]; exact a4, by rw [e1, ← e3]; exact a5, by rw [e1, ← e3]; exact a6, a7⟩⟩

/-! ## States with the same plant store -/

theorem PlantSound.of_plant {s t : State} (h : t.plant = s.plant) (hs : PlantSound s) : PlantSound t := by
  have e1 : t.circuit = s.circuit := by funext c; simp only [State.circuit, h]
  have e2 : t.group = s.group := by funext c; simp only [State.group, h]
  have e3 : groupCircuits t = groupCircuits s := by funext c; simp only [groupCircuits, h]
  simp only [PlantSound, GroupSound, e1, e2, e3, h] at hs ⊢
  exact hs

/-- Whatever happens, a sound plant store stays sound. -/
def PlantKept (s t : State) : Prop := PlantSound s → PlantSound t

theorem PlantKept.refl (s : State) : PlantKept s s := id

theorem PlantKept.trans {s t u : State} (h : PlantKept s t) (g : PlantKept t u) : PlantKept s u := fun x => g (h x)

theorem PlantKept.of_plant {s t : State} (h : t.plant = s.plant) : PlantKept s t := PlantSound.of_plant h

theorem PlantKept.foldl {α : Type} (f : State → α → State) (hf : ∀ s x, PlantKept s (f s x)) (l : List α) (s : State) :
    PlantKept s (l.foldl f s) := by
  induction l generalizing s with
  | nil => exact PlantKept.refl s
  | cons x l ih => exact (hf s x).trans (ih (f s x))

theorem Served.plant {s t : State} (h : Served s t) : t.plant = s.plant := by rw [h.1]

theorem Served.plantKept {s t : State} (h : Served s t) : PlantKept s t := PlantKept.of_plant h.plant

theorem Told.plantKept {s t : State} (h : Told s t) : PlantKept s t := PlantKept.of_plant h.plant

/-! ## The record of one group -/

/-- A group's record replaced by one with the same ranges, idle set and counts. -/
theorem setGroup_same_sound {s : State} {n : Nat} {g g' : Group} (hg : s.group n = some g) (hr : g'.ranges = g.ranges)
    (h0 : g'.idleSet = g.idleSet) (h1 : g'.available = g.available) (h2 : g'.blockedIdle = g.blockedIdle)
    (h3 : g'.busyIn = g.busyIn) (h4 : g'.busyOut = g.busyOut) (h5 : g'.inGuard = g.inGuard) :
    PlantKept s (s.setGroup n (some g')) := by
  intro hs
  obtain ⟨hw, hc, hgs⟩ := hs
  have hgrp : ∀ m, (s.setGroup n (some g')).group m = if m = n then some g' else s.group m := by
    intro m
    simp only [State.group, State.setGroup, Table.get_set]
  refine ⟨hw, ?_, ?_⟩
  · intro c e he
    obtain ⟨b1, b2⟩ := hc c e he
    refine ⟨b1, ?_⟩
    rw [hgrp]
    split
    · rfl
    · exact b2
  · intro m x hx
    rw [hgrp] at hx
    split at hx
    · rename_i hm
      subst hm
      obtain rfl := Option.some.inj hx
      obtain ⟨a0, a1, a2, a3, a4, a5, a6⟩ := hgs _ g hg
      exact ⟨h0.trans a0, h1.trans a1, h2.trans a2, h3.trans a3, h4.trans a4, h5.trans a5, by rw [hr]; exact a6⟩
    · exact hgs m x hx

theorem markSeized_plantKept (n c : Nat) (s : State) : PlantKept s (markSeized n c s) := by
  simp only [markSeized]
  split
  · rename_i g hg
    exact setGroup_same_sound hg rfl rfl rfl rfl rfl rfl rfl
  · exact PlantKept.refl s

/-! ## Changes of circuits -/

theorem report_plantKept (gs : List Nat) (b s : State) : PlantKept s (report gs b s) := (report_served gs b s).plantKept

theorem takeReports_plantKept (gs : List Nat) (b s : State) : PlantKept s (takeReports gs b s) :=
  (takeReports_served gs b s).plantKept

theorem changeCircuit_plantKept (c : Nat) (f : Equipped → Equipped) (hf : ∀ e, (f e).group = e.group) (s : State) :
    PlantKept s (changeCircuit c f s) := fun hs => changeCircuit_sound c f hf hs

theorem changeAndReport_plantKept (c : Nat) (f : Equipped → Equipped) (hf : ∀ e, (f e).group = e.group) (s : State) :
    PlantKept s (changeAndReport c f s) := by
  simp only [changeAndReport]
  split
  · exact PlantKept.refl s
  · exact (changeCircuit_plantKept c f hf s).trans (report_plantKept _ _ _)

theorem occupyOut_plantKept (n c : Nat) (call : CallRef) (s : State) : PlantKept s (occupyOut n c call s) :=
  ((changeCircuit_plantKept c _ (by intro; rfl) s).trans (markSeized_plantKept _ _ _)).trans (report_plantKept _ _ _)

theorem occupyIn_plantKept (c : Nat) (call : CallRef) (s : State) : PlantKept s (occupyIn c call s) :=
  changeAndReport_plantKept c _ (by intro; rfl) s

theorem undoInbound_plantKept (c : Nat) (f : Former) (s : State) : PlantKept s (undoInbound c f s) :=
  changeAndReport_plantKept c _ (by intro; rfl) s

theorem releaseLeg_plantKept (c : Nat) (call : CallRef) (fault : Bool) (s : State) :
    PlantKept s (releaseLeg c call fault s) := by
  simp only [releaseLeg]
  split
  · exact PlantKept.refl s
  · split
    · exact changeAndReport_plantKept c _ (by intro; rfl) s
    · exact PlantKept.refl s

theorem expireGuard_plantKept (c : Nat) (s : State) : PlantKept s (expireGuard c s) := by
  simp only [expireGuard]
  split
  · exact PlantKept.refl s
  · split
    · split
      · exact changeAndReport_plantKept c _ (by intro; rfl) s
      · exact PlantKept.refl s
    · exact PlantKept.refl s

theorem flagRange_plantKept (r : Range) (k : FlagKind) (v : Bool) (s : State) : PlantKept s (flagRange r k v s) :=
  (PlantKept.foldl _ (fun s x => changeCircuit_plantKept _ _ (by intro e; cases k <;> rfl) s) _ s).trans
    (report_plantKept _ _ _)

/-! ## Rebuilding (R7, R26) -/

/-- What of the invariant rebuilding does not need: everything but the idle sets and counts. -/
def PlantShape (s : State) : Prop :=
  s.plant.circuits.wf = true ∧
    (∀ c e, s.circuit c = some e → c < Config.circuits ∧ (s.group e.group).isSome = true) ∧
    ∀ n g, s.group n = some g → ∀ c, inRanges g.ranges c = true ↔ ∃ e, s.circuit c = some e ∧ e.group = n

/-- The idle sets and counts of the groups outside a list hold. -/
def CountsBut (gs : List Nat) (s : State) : Prop :=
  ∀ n g, s.group n = some g → n ∉ gs → Counts g (groupCircuits s n)

theorem plantSound_iff (s : State) : PlantSound s ↔ PlantShape s ∧ CountsBut [] s := by
  constructor
  · rintro ⟨h1, h2, h3⟩
    refine ⟨⟨h1, h2, fun n g hg => (h3 n g hg).2.2.2.2.2.2⟩, fun n g hg _ => ?_⟩
    obtain ⟨a0, a1, a2, a3, a4, a5, -⟩ := h3 n g hg
    exact ⟨a0, a1, a2, a3, a4, a5⟩
  · rintro ⟨⟨h1, h2, h3⟩, h4⟩
    refine ⟨h1, h2, fun n g hg => ?_⟩
    obtain ⟨a0, a1, a2, a3, a4, a5⟩ := h4 n g hg (by simp)
    exact ⟨a0, a1, a2, a3, a4, a5, h3 n g hg⟩

theorem rebuild_group (s : State) (n m : Nat) (g : Group) (h : (rebuild s n).group m = some g) :
    ∃ g0, s.group m = some g0 ∧ g.ranges = g0.ranges ∧ (m = n → Counts g (groupCircuits s n)) ∧ (m ≠ n → g = g0) := by
  simp only [rebuild] at h
  split at h
  · rename_i hn
    refine ⟨g, h, rfl, ?_, fun _ => rfl⟩
    intro hm
    rw [hm, hn] at h
    cases h
  · rename_i r hr
    simp only [State.group, State.setGroup, Table.get_set] at h
    split at h
    · rename_i hm
      obtain rfl := Option.some.inj h
      exact ⟨r, hm ▸ hr, rfl, fun _ => ⟨rfl, rfl, rfl, rfl, rfl, rfl⟩, fun hne => absurd hm hne⟩
    · rename_i hm
      exact ⟨g, h, rfl, fun e => absurd e hm, fun _ => rfl⟩

theorem rebuild_circuits (s : State) (n : Nat) : (rebuild s n).plant.circuits = s.plant.circuits := by
  simp only [rebuild]
  split <;> rfl

theorem rebuild_isSome (s : State) (n m : Nat) : ((rebuild s n).group m).isSome = (s.group m).isSome := by
  simp only [rebuild]
  split
  · rfl
  · rename_i r hr
    simp only [State.group, State.setGroup, Table.get_set]
    split
    · rename_i hm
      rw [hm]
      exact (by rw [show s.plant.groups.get n = some r from hr]; rfl)
    · rfl

theorem groupCircuits_of {s t : State} (h : t.plant.circuits = s.plant.circuits) (n : Nat) :
    groupCircuits t n = groupCircuits s n := by simp only [groupCircuits, h]

theorem circuit_of {s t : State} (h : t.plant.circuits = s.plant.circuits) (c : Nat) : t.circuit c = s.circuit c := by
  simp only [State.circuit, h]

/-- R2: rebuilding one group keeps the shape and takes that group off the list of those whose counts are open. -/
theorem rebuild_shape (s : State) (n : Nat) (gs : List Nat) (h1 : PlantShape s) (h2 : CountsBut (n :: gs) s) :
    PlantShape (rebuild s n) ∧ CountsBut gs (rebuild s n) := by
  have hc := rebuild_circuits s n
  obtain ⟨b1, b2, b3⟩ := h1
  refine ⟨⟨by rw [hc]; exact b1, ?_, ?_⟩, ?_⟩
  · intro c e he
    rw [circuit_of hc] at he
    obtain ⟨x1, x2⟩ := b2 c e he
    exact ⟨x1, by rw [rebuild_isSome]; exact x2⟩
  · intro m g hg c
    obtain ⟨g0, hg0, hr, -, -⟩ := rebuild_group s n m g hg
    rw [hr, circuit_of hc]
    exact b3 m g0 hg0 c
  · intro m g hg hm
    obtain ⟨g0, hg0, -, he, hne⟩ := rebuild_group s n m g hg
    rw [groupCircuits_of hc]
    by_cases h : m = n
    · rw [h]
      exact he h
    · rw [hne h]
      exact h2 m g0 hg0 (by simp [h, hm])

theorem rebuildAll_shape (gs : List Nat) (s : State) (h1 : PlantShape s) (h2 : CountsBut gs s) :
    PlantSound (gs.foldl rebuild s) := by
  induction gs generalizing s with
  | nil => exact (plantSound_iff s).mpr ⟨h1, h2⟩
  | cons n gs ih =>
    obtain ⟨x1, x2⟩ := rebuild_shape s n gs h1 h2
    exact ih _ x1 x2

/-! ## CLEAR_TRAFFIC (R26) -/

theorem mem_of_lookupIn {α : Type} {d : α} (l : List (Nat × α)) (k : Nat) (h : lookupIn d l k ≠ d) :
    (k, lookupIn d l k) ∈ l := by
  induction l with
  | nil => exact absurd rfl h
  | cons e l ih =>
    simp only [lookupIn] at h ⊢
    split at h
    · rename_i h1
      rw [if_pos h1, ← h1]
      simp
    · rename_i h1
      rw [if_neg h1]
      split at h
      · exact absurd rfl h
      · rename_i h2
        rw [if_neg h2]
        exact List.mem_cons_of_mem _ (ih h)

theorem mem_definedGroups {s : State} {n : Nat} (h : (s.group n).isSome = true) : n ∈ definedGroups s := by
  refine List.mem_filter.mpr ⟨?_, h⟩
  have : s.plant.groups.get n ≠ none := by
    intro e
    simp only [State.group] at h
    rw [e] at h
    cases h
  exact List.mem_map.mpr ⟨_, mem_of_lookupIn _ _ this, rfl⟩

theorem idleAll_circuit (s : State) (c : Nat) (h : s.plant.circuits.wf = true) :
    (idleAll s).circuit c = idleRecord (s.circuit c) := by
  simp only [State.circuit, idleAll]
  exact Table.get_mapValues (fun _ e => idleRecord e) _ c h rfl

theorem clearPlant_plantKept (s : State) : PlantKept s (clearPlant s) := by
  intro hs
  refine takeReports_plantKept _ _ _ (rebuildAll_shape _ _ ?_ ?_)
  · obtain ⟨h1, h2, h3⟩ := hs
    refine ⟨Table.mapValues_wf _ _ h1, ?_, ?_⟩
    · intro c e he
      rw [idleAll_circuit s c h1] at he
      obtain ⟨x, hx, rfl⟩ := Option.map_eq_some_iff.mp he
      exact h2 c x hx
    · intro n g hg c
      rw [(h3 n g hg).2.2.2.2.2.2 c, idleAll_circuit s c h1]
      constructor
      · rintro ⟨e, he, hn⟩
        exact ⟨{ e with occupancy := .idle }, by rw [he]; rfl, hn⟩
      · rintro ⟨e, he, hn⟩
        obtain ⟨x, hx, rfl⟩ := Option.map_eq_some_iff.mp he
        exact ⟨x, hx, hn⟩
  · intro n g hg hn
    exact absurd (mem_definedGroups (s := s) (by show (s.group n).isSome = true; rw [show s.group n = some g from hg]; rfl)) hn

/-! ## Defining and deleting a group (R6, R7, R9) -/

theorem mem_circuitsOfAll (rs : List Range) (c : Nat) : c ∈ circuitsOfAll rs ↔ inRanges rs c = true := by
  simp only [circuitsOfAll, inRanges, List.mem_flatMap, List.any_eq_true, circuitsOf, rangeHas, List.mem_range'_1,
    Bool.and_eq_true, decide_eq_true_eq]

theorem unequip_wf (g : Nat) (kept : List Range) (s : State) (h : s.plant.circuits.wf = true) :
    (unequip g kept s).plant.circuits.wf = true := Table.mapValues_wf _ _ h

/-- R7, R9: a circuit after its group lost what lies outside the given ranges. -/
theorem unequip_circuit (g : Nat) (kept : List Range) (s : State) (c : Nat) (h : s.plant.circuits.wf = true) :
    (unequip g kept s).circuit c =
      match s.circuit c with
      | some x => if x.group = g ∧ inRanges kept c = false then none else some x
      | none => none := by
  simp only [State.circuit, unequip]
  exact Table.get_mapValues _ _ c h rfl

theorem circuitsIn_unequip (g n : Nat) (kept : List Range) (hn : n ≠ g) (l : List (Nat × Option Equipped)) :
    circuitsIn n
        ((l.map (fun e => (e.1,
            match e.2 with
            | some x => if x.group = g ∧ inRanges kept e.1 = false then none else some x
            | none => none))).filter (fun e => decide (e.2 ≠ none))) = circuitsIn n l := by
  induction l with
  | nil => rfl
  | cons e l ih =>
    obtain ⟨c, o⟩ := e
    have cons : ∀ (x : Nat × Option Equipped) (m : List (Nat × Option Equipped)),
        circuitsIn n (x :: m) = circuitsIn n [x] ++ circuitsIn n m := fun x m => circuitsIn_append n [x] m
    cases o with
    | none =>
      rw [List.map_cons, List.filter_cons_of_neg (by simp), ih, cons]
      rfl
    | some x =>
      by_cases hx : x.group = g ∧ inRanges kept c = false
      · rw [List.map_cons, List.filter_cons_of_neg (by simp [hx]), ih, cons]
        simp [circuitsIn, hx.1, Ne.symm hn]
      · rw [List.map_cons, List.filter_cons_of_pos (by simp [hx]), cons, ih, cons (c, some x) l]
        simp [hx]

theorem unequip_groupCircuits (g n : Nat) (kept : List Range) (s : State) (hn : n ≠ g) :
    groupCircuits (unequip g kept s) n = groupCircuits s n := circuitsIn_unequip g n kept hn s.plant.circuits.entries

theorem equip_cons (g : Nat) (cs : List Nat) (s : State) (h : s.plant.circuits.wf = true) :
    let t := cs.foldr (fun c s =>
      match s.circuit c with
      | some _ => s
      | none => s.setCircuit c (some ⟨g, false, false, .idle⟩)) s
    t.plant.circuits.wf = true ∧ t.plant.groups = s.plant.groups ∧
      (∀ c, t.circuit c = if (s.circuit c).isNone ∧ c ∈ cs then some ⟨g, false, false, .idle⟩ else s.circuit c) ∧
      ∀ n, n ≠ g → groupCircuits t n = groupCircuits s n := by
  induction cs with
  | nil => exact ⟨h, rfl, fun c => by simp, fun _ _ => rfl⟩
  | cons k cs ih =>
    obtain ⟨i1, i2, i3, i4⟩ := ih
    simp only [List.foldr_cons]
    generalize hu : cs.foldr (fun c s =>
      match s.circuit c with
      | some _ => s
      | none => s.setCircuit c (some ⟨g, false, false, .idle⟩)) s = u at *
    cases hk : u.circuit k with
    | some x =>
      refine ⟨i1, i2, fun c => ?_, i4⟩
      simp only
      rw [i3 c]
      by_cases hc : c = k
      · subst hc
        rw [i3 c] at hk
        by_cases hcs : c ∈ cs
        · simp [hcs]
        · rw [if_neg (by simp [hcs])] at hk
          simp [hk]
      · simp [hc]
    | none =>
      simp only
      refine ⟨Table.set_wf _ _ _ i1, i2, fun c => ?_, fun n hn => ?_⟩
      · simp only [State.circuit, State.setCircuit, Table.get_set]
        split
        · rename_i hc
          subst hc
          rw [i3 c] at hk
          split at hk
          · cases hk
          · simp [show s.plant.circuits.get c = none from hk]
        · rename_i hc
          have := i3 c
          simp only [State.circuit] at this
          rw [this]
          simp [hc]
      · obtain ⟨A, B, -, -, e1, e2⟩ := groupCircuits_split u k n i1
        rw [← i4 n hn, e1, e2, hk]
        simp [circuitsIn, Ne.symm hn]

/-- R6, R7: what equipping the new ranges leaves. -/
theorem equip_spec (g : Nat) (rs : List Range) (s : State) (h : s.plant.circuits.wf = true) :
    (equip g rs s).plant.circuits.wf = true ∧ (equip g rs s).plant.groups = s.plant.groups ∧
      (∀ c, (equip g rs s).circuit c =
        if (s.circuit c).isNone ∧ inRanges rs c = true then some ⟨g, false, false, .idle⟩ else s.circuit c) ∧
      ∀ n, n ≠ g → groupCircuits (equip g rs s) n = groupCircuits s n := by
  obtain ⟨h1, h2, h3, h4⟩ := equip_cons g (circuitsOfAll rs) s h
  refine ⟨h1, h2, fun c => ?_, h4⟩
  simp only [mem_circuitsOfAll] at h3
  exact h3 c

/-- R5 check 7: no circuit of the ranges belongs to another group. -/
theorem not_assignedElsewhere {s : State} {g : Nat} {rs : List Range} (h : assignedElsewhere s g rs = false) {c : Nat}
    {e : Equipped} (he : s.circuit c = some e) (hc : inRanges rs c = true) : e.group = g := by
  by_contra hne
  have hm : (c, some e) ∈ s.plant.circuits.entries := by
    have := mem_of_lookupIn s.plant.circuits.entries c (d := none)
      (by show s.circuit c ≠ none; rw [he]; exact fun x => by cases x)
    have e2 : lookupIn none s.plant.circuits.entries c = some e := he
    rw [e2] at this
    exact this
  have : assignedElsewhere s g rs = true := List.any_eq_true.mpr ⟨_, hm, by simp [hc, hne]⟩
  rw [h] at this
  cases this

/-- R7: a circuit of the machine after a group's ranges were replaced. -/
theorem replaceRanges_circuit (g : Nat) (rs : List Range) (s : State) (c : Nat) (h : s.plant.circuits.wf = true) :
    (equip g rs (unequip g rs s)).circuit c =
      if inRanges rs c = true then some ((s.circuit c).getD ⟨g, false, false, .idle⟩)
      else
        match s.circuit c with
        | some x => if x.group = g then none else some x
        | none => none := by
  rw [(equip_spec g rs _ (unequip_wf g rs s h)).2.2.1 c, unequip_circuit g rs s c h]
  cases hc : s.circuit c with
  | none => by_cases hr : inRanges rs c = true <;> simp [hr]
  | some x =>
    by_cases hr : inRanges rs c = true
    · simp [hr]
    · by_cases hg : x.group = g <;> simp [hr, hg]

theorem replaceRanges_groupCircuits (g : Nat) (rs : List Range) (s : State) (n : Nat) (h : s.plant.circuits.wf = true)
    (hn : n ≠ g) : groupCircuits (equip g rs (unequip g rs s)) n = groupCircuits s n := by
  rw [(equip_spec g rs _ (unequip_wf g rs s h)).2.2.2 n hn, unequip_groupCircuits g n rs s hn]

theorem rangesFit_lt {rs : List Range} (h : rangesFit rs = true) {c : Nat} (hc : inRanges rs c = true) :
    c < Config.circuits := by
  obtain ⟨r, hr, hx⟩ := List.any_eq_true.mp hc
  have h1 := List.all_eq_true.mp h r hr
  simp only [rangeHas, Bool.and_eq_true, decide_eq_true_eq] at hx h1
  omega

/-- R6, R7: storing a group's record with new ranges, over circuits that fit, keeps the shape and opens that group's
counts alone. -/
theorem storeGroup_shape {s : State} {n : Nat} {rec : Group} (hs : PlantSound s) (hf : rangesFit rec.ranges = true)
    (ha : assignedElsewhere s n rec.ranges = false) :
    PlantShape ((equip n rec.ranges (unequip n rec.ranges s)).setGroup n (some rec)) ∧
      CountsBut [n] ((equip n rec.ranges (unequip n rec.ranges s)).setGroup n (some rec)) := by
  obtain ⟨hw, hc, hg⟩ := hs
  have hq := equip_spec n rec.ranges _ (unequip_wf n rec.ranges s hw)
  have hcir : ∀ c, ((equip n rec.ranges (unequip n rec.ranges s)).setGroup n (some rec)).circuit c = _ :=
    fun c => replaceRanges_circuit n rec.ranges s c hw
  have hgrp : ∀ m, ((equip n rec.ranges (unequip n rec.ranges s)).setGroup n (some rec)).group m =
      if m = n then some rec else s.group m := by
    intro m
    simp only [State.group, State.setGroup, Table.get_set]
    rw [hq.2.1]
    rfl
  refine ⟨⟨hq.1, ?_, ?_⟩, ?_⟩
  · intro c e he
    rw [hcir c] at he
    split at he
    · rename_i hr
      refine ⟨rangesFit_lt hf hr, ?_⟩
      obtain rfl := Option.some.inj he
      cases hsc : s.circuit c with
      | none => simp [hgrp]
      | some x =>
        simp only [Option.getD_some]
        rw [not_assignedElsewhere ha hsc hr, hgrp, if_pos rfl]
        rfl
    · split at he
      · rename_i x hx
        split at he
        · cases he
        · obtain rfl := Option.some.inj he
          obtain ⟨b1, b2⟩ := hc c _ hx
          refine ⟨b1, ?_⟩
          rw [hgrp]
          split
          · rfl
          · exact b2
      · cases he
  · intro m g hm c
    rw [hgrp] at hm
    rw [hcir c]
    split at hm
    · rename_i hmn
      subst hmn
      obtain rfl := Option.some.inj hm
      constructor
      · intro hr
        rw [if_pos hr]
        refine ⟨_, rfl, ?_⟩
        cases hsc : s.circuit c with
        | none => rfl
        | some x => exact not_assignedElsewhere ha hsc hr
      · rintro ⟨e, he, hem⟩
        by_contra hr
        rw [if_neg hr] at he
        split at he
        · split at he
          · cases he
          · rename_i hx
            obtain rfl := Option.some.inj he
            exact hx hem
        · cases he
    · rename_i hmn
      rw [(hg m g hm).2.2.2.2.2.2 c]
      constructor
      · rintro ⟨e, he, hem⟩
        have hr : ¬inRanges rec.ranges c = true := by
          intro hr
          exact hmn (hem.symm.trans (not_assignedElsewhere ha he hr))
        rw [if_neg hr, he]
        refine ⟨e, ?_, hem⟩
        simp only
        rw [if_neg (fun x => hmn (hem.symm.trans x))]
      · rintro ⟨e, he, hem⟩
        split at he
        · obtain rfl := Option.some.inj he
          cases hsc : s.circuit c with
          | none =>
            rw [hsc] at hem
            exact absurd hem.symm hmn
          | some x =>
            rw [hsc] at hem
            exact ⟨x, rfl, hem⟩
        · split at he
          · rename_i x hx
            split at he
            · cases he
            · obtain rfl := Option.some.inj he
              exact ⟨_, hx, hem⟩
          · cases he
  · intro m g hm hne
    rw [hgrp] at hm
    have hmn : m ≠ n := by simpa using hne
    rw [if_neg hmn] at hm
    have : groupCircuits ((equip n rec.ranges (unequip n rec.ranges s)).setGroup n (some rec)) m = groupCircuits s m :=
      replaceRanges_groupCircuits n rec.ranges s m hw hmn
    rw [this]
    obtain ⟨a0, a1, a2, a3, a4, a5, -⟩ := hg m g hm
    exact ⟨a0, a1, a2, a3, a4, a5⟩

theorem defineGroup_sound (d : GroupDefinition) (dir : Direction) (gl : GlareRule) (hu : HuntMode) {s : State}
    (hf : rangesFit d.ranges = true) (ha : assignedElsewhere s d.group d.ranges = false) (hs : PlantSound s) :
    PlantSound (defineGroup d dir gl hu s) := by
  simp only [defineGroup]
  refine report_plantKept _ _ _ ?_
  have key : ∀ s1 : State, s1.plant = s.plant → ∀ rec : Group, rec.ranges = d.ranges →
      PlantSound (rebuild ((equip d.group d.ranges (unequip d.group d.ranges s1)).setGroup d.group (some rec)) d.group) := by
    intro s1 h1 rec hr
    have ha1 : assignedElsewhere s1 d.group rec.ranges = false := by
      simp only [assignedElsewhere, h1, hr]
      exact ha
    obtain ⟨x1, x2⟩ := storeGroup_shape (PlantSound.of_plant h1 hs) (hr ▸ hf) ha1
    rw [hr] at x1 x2
    obtain ⟨y1, y2⟩ := rebuild_shape _ d.group [] x1 x2
    exact (plantSound_iff _).mpr ⟨y1, y2⟩
  split
  · exact key s rfl (definedRecord d dir gl hu _) rfl
  · exact key (s.setSvc d.group .initial) rfl (definedRecord d dir gl hu _) rfl

theorem deleteGroup_plantKept (n : Nat) (s : State) : PlantKept s (deleteGroup n s) := by
  intro hs
  have h2 : (deleteGroup n s).plant = ((unequip n [] s).setGroup n none).plant := by
    simp only [deleteGroup]
    rw [(reevaluate_served _ _ _).plant]
    simp only [clearGroupLevel]
    split
    · rfl
    · rw [(reportLevel_told _ _ _).plant]
      rfl
  refine PlantSound.of_plant h2 ?_
  obtain ⟨hw, hc, hg⟩ := hs
  have hcir : ∀ c, ((unequip n [] s).setGroup n none).circuit c = _ := fun c => unequip_circuit n [] s c hw
  have hgrp : ∀ m, ((unequip n [] s).setGroup n none).group m = if m = n then none else s.group m := by
    intro m
    simp only [State.group, State.setGroup, Table.get_set]
    rfl
  refine ⟨unequip_wf n [] s hw, ?_, ?_⟩
  · intro c e he
    rw [hcir c] at he
    split at he
    · rename_i x hx
      split at he
      · cases he
      · rename_i hne
        obtain rfl := Option.some.inj he
        obtain ⟨b1, b2⟩ := hc c _ hx
        refine ⟨b1, ?_⟩
        rw [hgrp, if_neg (by intro h; exact hne ⟨h, rfl⟩)]
        exact b2
    · cases he
  · intro m g hm
    rw [hgrp] at hm
    split at hm
    · cases hm
    · rename_i hmn
      obtain ⟨a0, a1, a2, a3, a4, a5, a6⟩ := hg m g hm
      have hgc : groupCircuits ((unequip n [] s).setGroup n none) m = groupCircuits s m :=
        unequip_groupCircuits n m [] s hmn
      refine ⟨by rw [hgc]; exact a0, by rw [hgc]; exact a1, by rw [hgc]; exact a2, by rw [hgc]; exact a3,
        by rw [hgc]; exact a4, by rw [hgc]; exact a5, fun c => ?_⟩
      rw [a6 c, hcir c]
      constructor
      · rintro ⟨e, he, hem⟩
        rw [he]
        refine ⟨e, ?_, hem⟩
        simp only
        rw [if_neg (fun x => hmn (hem.symm.trans x.1))]
      · rintro ⟨e, he, hem⟩
        split at he
        · rename_i x hx
          split at he
          · cases he
          · obtain rfl := Option.some.inj he
            exact ⟨_, hx, hem⟩
        · cases he

end Sys2Proof.Machine
end

