-- ==== Sys2Proof/Laws/PlantKept.lean ====
section
/-! SUPPORT. Every operation of every block keeps a sound plant store sound (R2). -/

namespace Sys2Proof.Machine

/-! ## The route selector -/

theorem setMemorySet_plantKept (s : State) (k : Nat) (m : MemorySet) : PlantKept s (s.setMemorySet k m) :=
  PlantKept.of_plant rfl

theorem outcome_plantKept (f : MemoryEntry → MemoryEntry) (d p i : Nat) (s : State) : PlantKept s (outcome f d p i s) := by
  simp only [outcome]
  split
  · exact PlantKept.refl s
  · split
    · exact setMemorySet_plantKept s _ _
    · exact PlantKept.refl s

theorem afterLookup_plantKept (d p : Nat) (s : State) : PlantKept s (afterLookup d p s) := by
  simp only [afterLookup]
  split
  · exact setMemorySet_plantKept s _ _
  · exact PlantKept.refl s

theorem tryStep_plantKept (c : WalkCall) (i : Nat) (st : PlanStep) (s : State) : PlantKept s (tryStep c i st s).state := by
  simp only [tryStep]
  split
  · split
    · exact occupyOut_plantKept _ _ _ s
    · exact PlantKept.refl s
  · exact PlantKept.refl s

theorem trySteps_plantKept (c : WalkCall) (l : List (Nat × PlanStep)) (s : State) :
    PlantKept s (trySteps c l s).state := by
  induction l generalizing s with
  | nil => exact PlantKept.refl s
  | cons x l ih =>
    obtain ⟨i, st⟩ := x
    have h := tryStep_plantKept c i st s
    simp only [trySteps]
    split
    · rename_i e; rw [e] at h; exact h
    · rename_i e; rw [e] at h; exact h.trans (ih _)

theorem tryIndex_plantKept (c : WalkCall) (steps : List PlanStep) (i : Option Nat) (s : State) :
    PlantKept s (tryIndex c steps i s).state := by
  simp only [tryIndex]
  split
  · exact PlantKept.refl s
  · split
    · exact tryStep_plantKept _ _ _ s
    · exact PlantKept.refl s

theorem poolPart_plantKept (c : WalkCall) (steps : List PlanStep) (s : State) : PlantKept s (poolPart c steps s).state := by
  have h1 : PlantKept s (afterChoice s c) := by
    simp only [afterChoice]
    split
    · exact afterLookup_plantKept _ _ s
    · exact PlantKept.refl s
  have h2 := h1.trans (tryIndex_plantKept c steps (poolChoice s c steps).step (afterChoice s c))
  simp only [poolPart]
  split
  · exact h2
  · refine h2.trans (PlantKept.trans ?_ (trySteps_plantKept _ _ _))
    simp only [handPoolFailure]
    split
    · exact outcome_plantKept _ _ _ _ _
    · exact PlantKept.refl _

theorem walk_plantKept (c : WalkCall) (steps : List PlanStep) (s : State) : PlantKept s (walk c steps s).state := by
  have h := trySteps_plantKept c (partSteps .primary c.start steps) s
  simp only [walk]
  split
  · exact h
  · split
    · exact h.trans (poolPart_plantKept c steps _)
    · exact h.trans (trySteps_plantKept _ _ _)

/-! ## Tariff store, pricing and settlement -/

theorem notifyAllUp_plant (n : Notice) (s : State) : (notifyAllUp n s).plant = s.plant := (notifyAllUp_told n s).plant

theorem notify_plant (p : Port) (n : Notice) (s : State) : (notify p n s).plant = s.plant := (notify_told p n s).plant

theorem activate_plant (held : Bool) (s : State) : (activate held s).plant = s.plant := by
  simp only [activate]
  split
  · rfl
  · rw [notifyAllUp_plant]; rfl

theorem takeDue_plant (s : State) : (takeDue s).plant = s.plant := by
  simp only [takeDue]
  split
  · exact activate_plant _ s
  · simp only [hold]
    split
    · rw [notify_plant]; rfl
    · rfl

theorem lower_plant (n : Nat) (s : State) : (lower n s).plant = s.plant := by
  simp only [lower]
  split
  · rfl
  · split
    · rfl
    · split
      · split
        · rw [activate_plant]
        · rfl
      · rfl

theorem priceRelease_plant (r : PricedRelease) (s : State) : (priceRelease r s).plant = s.plant := by
  simp only [priceRelease]
  split
  · rfl
  · split <;> rfl

theorem setWeekClock_plant (w : Nat) (s : State) : (setWeekClock w s).plant = s.plant := by
  simp only [setWeekClock]
  split
  · split
    · show (takeDue s).plant = _
      exact takeDue_plant s
    · split
      · rw [takeDue_plant]; rfl
      · rfl
  · rfl

theorem judgeBacklog_plant (s : State) : (judgeBacklog s).plant = s.plant := by
  simp only [judgeBacklog]
  split
  · rfl
  · rw [(reportLevel_told _ _ _).plant]

theorem evaluateHold_plant (s : State) (c : Nat) : (evaluateHold s c).plant = s.plant := by
  simp only [evaluateHold]
  split
  · rfl
  · rw [(reportLevel_told _ _ _).plant]; rfl

theorem accumulate_plant (r : PricedResult) (s : State) : (accumulate r s).plant = s.plant := by
  simp only [accumulate]
  rw [evaluateHold_plant]
  simp only [itemize]
  split
  · rw [judgeBacklog_plant]; rfl
  · rfl

theorem closePeriod_plant (s : State) : (closePeriod s).plant = s.plant := by
  simp only [closePeriod]
  rw [notifyAllUp_plant]
  have : ∀ (l : List Nat) (u : State), (l.foldl evaluateHold u).plant = u.plant := by
    intro l
    induction l with
    | nil => intro u; rfl
    | cons x l ih => intro u; rw [List.foldl_cons, ih, evaluateHold_plant]
  rw [this]
  rfl

/-! ## The call table -/

theorem setSlot_plantKept (s : State) (k : Nat) (v : Slot) : PlantKept s (s.setSlot k v) := PlantKept.of_plant rfl

theorem setCall_plantKept (s : State) (k : Nat) (c : Call) : PlantKept s (s.setCall k c) := PlantKept.of_plant rfl

theorem bindLive_plantKept (s : State) : PlantKept s (bindLive s) := PlantKept.of_plant rfl

theorem changeCall_plantKept (s : State) (k : Nat) (f : Call → Call) : PlantKept s (s.changeCall k f) := by
  simp only [State.changeCall]
  split
  · exact PlantKept.of_plant rfl
  · exact PlantKept.refl s

theorem priceAndLower_plant (r : CallRef) (c : Call) (cause : Cause) (time : Nat) (forced : Bool) (s : State) :
    (priceAndLower r c cause time forced s).plant = s.plant := by
  simp only [priceAndLower]
  split
  · rw [lower_plant, priceRelease_plant]
  · rfl

theorem endCall_plantKept (r : CallRef) (cause : Cause) (time : Nat) (forced : Bool) (s : State) :
    PlantKept s (endCall r cause time forced s) := by
  simp only [endCall]
  split
  · exact PlantKept.refl s
  · rename_i c hc
    refine PlantKept.trans (PlantKept.of_plant (priceAndLower_plant r c cause time forced s)) ?_
    refine PlantKept.trans (t := releaseLegs r c (priceAndLower r c cause time forced s)) ?_ (PlantKept.of_plant rfl)
    simp only [releaseLegs]
    split
    · exact (releaseLeg_plantKept _ _ _ _).trans (releaseLeg_plantKept _ _ _ _)
    · exact releaseLeg_plantKept _ _ _ _

theorem reselect_plantKept (r : CallRef) (cause : Cause) (s : State) : PlantKept s (reselect r cause s) := by
  simp only [reselect]
  split
  · exact PlantKept.refl s
  · split
    · exact PlantKept.of_plant rfl
    · exact ((setCall_plantKept s _ _).trans (walk_plantKept _ _ _)).trans (setCall_plantKept _ _ _)

theorem drainCall_plantKept (gs : List Nat) (s : State) (k : Nat) : PlantKept s (drainCall gs s k) := by
  simp only [drainCall]
  split
  · exact PlantKept.refl s
  · split
    · split
      · exact (endCall_plantKept _ _ _ _ s).trans (notify_told _ _ _).plantKept
      · exact endCall_plantKept _ _ _ _ s
    · exact PlantKept.refl s

theorem drawIn_plantKept (limit : Nat) (s : State) (k : Nat) : PlantKept s (drawIn limit s k) := changeCall_plantKept s k _

theorem loseCalls_plantKept (l : PortLoss) (s : State) : PlantKept s (loseCalls l s) := by
  simp only [loseCalls]
  split
  · refine PlantKept.trans ?_ (notify_told _ _ _).plantKept
    exact PlantKept.foldl _ (fun s k => changeCall_plantKept s k _) _ s
  · refine PlantKept.foldl _ (fun s k => ?_) _ s
    simp only [loseCall]
    split
    · exact PlantKept.refl s
    · split
      · split
        · exact endCall_plantKept _ _ _ _ s
        · exact (changeCall_plantKept s k _).trans (PlantKept.of_plant rfl)
      · exact endCall_plantKept _ _ _ _ s

theorem clearTraffic_plantKept (s : State) : PlantKept s (clearTraffic s) := by
  simp only [clearTraffic]
  refine PlantKept.trans ?_ (clearPlant_plantKept _)
  refine PlantKept.trans (t := s.slotsInUse.foldl clearCall s) ?_ (PlantKept.of_plant rfl)
  refine PlantKept.foldl _ (fun s k => ?_) _ s
  simp only [clearCall]
  split
  · exact PlantKept.refl s
  · exact PlantKept.trans (PlantKept.of_plant (priceAndLower_plant _ _ _ _ _ s)) (PlantKept.of_plant rfl)

theorem displace_plantKept (call : CallRef) (s : State) : PlantKept s (displace call s) := by
  simp only [displace]
  split
  · exact PlantKept.refl s
  · exact (changeCall_plantKept s _ _).trans (PlantKept.of_plant rfl)

/-! ## Requests -/

theorem refuse_plantKept (st : Status) (s : State) : PlantKept s (refuse st s).state := PlantKept.refl s

theorem handleDefineGroup_plantKept (d : GroupDefinition) (s : State) : PlantKept s (handleDefineGroup d s).state := by
  simp only [handleDefineGroup]
  split
  · split
    · exact PlantKept.refl s
    · rename_i dir gl hu _ _ _ h
      intro hs
      simp only [definitionRefusal] at h
      repeat' split at h
      all_goals cases h
      rename_i h4 h5 h6 h7
      exact defineGroup_sound d _ _ _ (by simpa using h4) (by simpa using h7) hs
  · exact PlantKept.refl s

theorem handleSetGroupParams_plantKept (n : Nat) (p : GroupChanges) (s : State) :
    PlantKept s (handleSetGroupParams n p s).state := by
  simp only [handleSetGroupParams]
  repeat' split
  all_goals first | exact PlantKept.refl s | skip
  rename_i g hg _
  have h1 : PlantKept s (s.setGroup n (some (changedRecord p g))) := setGroup_same_sound hg rfl rfl rfl rfl rfl rfl rfl
  show PlantKept s (changeGroup n p g s)
  simp only [changeGroup]
  split
  · exact h1.trans (rederive_served _ _).plantKept
  · exact h1

theorem handleDeleteGroup_plantKept (n : Nat) (s : State) : PlantKept s (handleDeleteGroup n s).state := by
  simp only [handleDeleteGroup]
  repeat' split
  all_goals first | exact PlantKept.refl s | exact deleteGroup_plantKept n s

theorem handleFlags_plantKept (v : Bool) (first count : Nat) (k : Arg FlagKind) (s : State) :
    PlantKept s (handleFlags v first count k s).state := by
  have h := (closeWindow_served s).plantKept
  simp only [handleFlags]
  repeat' split
  all_goals first | exact h | exact h.trans (flagRange_plantKept _ _ _ _)

theorem joinDraining_plantKept (n : Nat) (g : Group) (s : State) : PlantKept s (joinDraining n g s) := by
  simp only [joinDraining]
  split
  · split
    · exact PlantKept.trans (t := askRelease [n] s) (PlantKept.of_plant rfl) (memberTest_served _ _).plantKept
    · exact (memberTest_served _ _).plantKept
  · exact PlantKept.refl _

theorem joinBatch_plantKept (p : Port) (n : Nat) (g : Group) (d : Nat) (s : State) :
    PlantKept s (joinBatch p n g d s) :=
  PlantKept.trans (((openBatch_served d s).trans (addContributor_served p _)).trans (addMember_served n g _)).plantKept
    (joinDraining_plantKept _ _ _)

theorem handleDrainGroup_plantKept (p : Port) (n d : Nat) (s : State) : PlantKept s (handleDrainGroup p n d s).state := by
  simp only [handleDrainGroup]
  split
  · exact PlantKept.refl s
  · split
    · exact PlantKept.refl s
    · split
      · exact (addContributor_served p s).plantKept
      · split
        · exact PlantKept.refl s
        · split
          · exact PlantKept.refl s
          · exact joinBatch_plantKept _ _ _ _ _

theorem routeOffer_plantKept (p : Port) (circuit : Nat) (r : CallRef) (f : Former) (ds : List Nat) (cls : CallClass)
    (g c : Nat) (s : State) : PlantKept s (routeOffer p circuit r f ds cls g c s).state := by
  have gap : ∀ d, PlantKept s (afterGapCheck d cls s) := by
    intro d
    simp only [afterGapCheck]
    repeat' split
    all_goals exact PlantKept.refl s
  simp only [routeOffer]
  split
  · exact undoInbound_plantKept _ _ s
  · rename_i t _
    split
    · exact (gap t.destination).trans (undoInbound_plantKept _ _ _)
    · split
      · exact (gap t.destination).trans (undoInbound_plantKept _ _ _)
      · refine (gap t.destination).trans ?_
        simp only [walkOffer]
        split
        · exact walk_plantKept _ _ _
        · exact (walk_plantKept _ _ _).trans (undoInbound_plantKept _ _ _)

theorem seizeOffer_plantKept (p : Port) (c : Nat) (ds : List Nat) (cls : CallClass) (r : CallRef) (s : State) :
    PlantKept s (seizeOffer p c ds cls r s).state := by
  simp only [seizeOffer]
  have h := occupyIn_plantKept c r s
  split
  · exact PlantKept.refl s
  · exact h.trans (routeOffer_plantKept _ _ _ _ _ _ _ _ _)
  · rename_i d _
    exact (h.trans (displace_plantKept d _)).trans (routeOffer_plantKept _ _ _ _ _ _ _ _ _)

theorem checkOffer_plantKept (p : Port) (c : Nat) (ds : List Nat) (cls : Arg CallClass) (s : State) :
    PlantKept s (checkOffer p c ds cls s).1.state := by
  simp only [checkOffer]
  split
  · exact PlantKept.refl s
  · split
    · exact PlantKept.refl s
    · exact seizeOffer_plantKept _ _ _ _ _ _

theorem settleDisplaced_plantKept (o : OfferInProgress) (s : State) : PlantKept s (settleDisplaced o s) := by
  simp only [settleDisplaced]
  split
  · exact displace_plantKept _ s
  · exact PlantKept.refl s

theorem settleNoted_plantKept (o : OfferInProgress) (s : State) : PlantKept s (settleNoted o s) := by
  simp only [settleNoted]
  split
  · split
    · exact PlantKept.refl s
    · split
      · exact (endCall_plantKept _ _ _ _ s).trans (notify_told _ _ _).plantKept
      · exact endCall_plantKept _ _ _ _ s
  · exact PlantKept.refl s

theorem keepRecord_plantKept (o : OfferInProgress) (s : State) : PlantKept s (keepRecord o s) := by
  have h := (setCall_plantKept s o.ref.slot o.record).trans (settleDisplaced_plantKept o _)
  simp only [keepRecord]
  split
  · exact h.trans (settleNoted_plantKept o _)
  · exact (h.trans ((changeCall_plantKept _ _ _).trans (notify_told _ _ _).plantKept)).trans (settleNoted_plantKept o _)
  · exact h.trans (endCall_plantKept _ _ _ _ _)

theorem handleOffer_plantKept (r : Sender) (c : Nat) (ds : List Nat) (cls : Arg CallClass) (s : State) :
    PlantKept s (handleOffer r c ds cls s).state := by
  have h := checkOffer_plantKept r.port c ds cls s
  simp only [handleOffer]
  split
  · rename_i e; rw [e] at h; exact h
  · rename_i e; rw [e] at h; exact h.trans (keepRecord_plantKept _ _)

theorem handleAccepted_plantKept (p : Port) (r : CallRef) (s : State) : PlantKept s (handleAccepted p r s).state := by
  simp only [handleAccepted]
  repeat' split
  all_goals exact PlantKept.refl s

theorem handleAnswer_plantKept (p : Port) (r : CallRef) (s : State) : PlantKept s (handleAnswer p r s).state := by
  simp only [handleAnswer]
  repeat' split
  all_goals first | exact PlantKept.refl s | skip
  rename_i c _ _
  show PlantKept s (answerCall r c s)
  simp only [answerCall]
  split
  · exact ((bindLive_plantKept s).trans (setCall_plantKept _ _ _)).trans (outcome_plantKept _ _ _ _ _)
  · exact PlantKept.of_plant rfl

theorem handleReattempt_plantKept (p : Port) (r : CallRef) (cause : Arg Cause) (l : Option Nat) (s : State) :
    PlantKept s (handleReattempt p r cause l s).state := by
  simp only [handleReattempt]
  repeat' split
  all_goals first | exact PlantKept.refl s | skip
  rename_i c _ _ ca _ _
  show PlantKept s (reattemptCall r c ca l s)
  simp only [reattemptCall]
  refine PlantKept.trans ?_ (reselect_plantKept _ _ _)
  have h1 : PlantKept s (handLevel c l s) := by
    simp only [handLevel]
    split
    · exact (farReport_served _ _ _).plantKept
    · exact PlantKept.refl s
  have h2 : PlantKept (handLevel c l s) (handFailure c (handLevel c l s)) := by
    simp only [handFailure]
    split
    · exact outcome_plantKept _ _ _ _ _
    · exact PlantKept.refl _
  refine (h1.trans h2).trans ?_
  simp only [dropLeg]
  split
  · exact (releaseLeg_plantKept _ _ _ _).trans (PlantKept.of_plant rfl)
  · exact PlantKept.of_plant rfl

theorem handleRelease_plantKept (p : Port) (r : CallRef) (cause : Arg Cause) (s : State) :
    PlantKept s (handleRelease p r cause s).state := by
  simp only [handleRelease]
  repeat' split
  all_goals first | exact PlantKept.refl s | exact endCall_plantKept _ _ _ _ s

theorem handleAdopt_plantKept (p : Port) (q : Arg Port) (s : State) : PlantKept s (handleAdopt p q s).state := by
  simp only [handleAdopt]
  split
  · exact PlantKept.refl s
  · exact PlantKept.refl s
  · refine PlantKept.foldl _ (fun s k => ?_) _ s
    exact (changeCall_plantKept s k _).trans (PlantKept.of_plant rfl)

theorem handleOrphanLimit_plantKept (l : Option Nat) (s : State) : PlantKept s (handleOrphanLimit l s).state := by
  simp only [handleOrphanLimit]
  split
  · exact PlantKept.refl s
  · refine PlantKept.trans ?_ (PlantKept.foldl _ (fun s k => endCall_plantKept _ _ _ _ s) _ _)
    rename_i n
    exact PlantKept.trans (t := { s with calls := { s.calls with orphanLimit := clamp 0 3600 n } })
      (PlantKept.of_plant rfl) (PlantKept.foldl _ (fun s k => drawIn_plantKept (clamp 0 3600 n) s k) _ _)

theorem tellOwner_plantKept (r : CallRef) (s : State) : PlantKept s (tellOwner r s) := by
  simp only [tellOwner]
  split
  · exact PlantKept.refl s
  · split
    · exact (notify_told _ _ _).plantKept
    · exact PlantKept.refl s

theorem reselectDisplaced_plantKept (r : CallRef) (s : State) : PlantKept s (reselectDisplaced r s) := by
  simp only [reselectDisplaced]
  split
  · exact PlantKept.refl s
  · exact ((setCall_plantKept s _ _).trans (reselect_plantKept _ _ _)).trans (tellOwner_plantKept _ _)

/-- A sound plant store stays sound over a request whose handling keeps it so. -/
theorem request_plantSound {c : Instr} {r : Sender} {code : Nat} {f : State → Reply} (hf : ∀ s, PlantKept s (f s).state)
    {s t : State} (h : request c r code f s = .next t) (hs : PlantSound s) : PlantSound t :=
  request_keeps PlantSound (fun _ _ h => PlantSound.of_plant rfl h) (fun s h => hf s h) h hs

end Sys2Proof.Machine
end

