-- ==== Sys2Proof/Laws/Answers.lean ====
section
/-! SUPPORT. How a taken request is answered, in the words the statements use. -/

namespace Sys2Proof.Machine

/-- A request that is handled by `f` is answered with what `f` makes of it. -/
theorem answers_request {c : Instr} {r : Sender} {code : Nat} {f : State → Reply} {s u : State}
    (hr : requestOf c = some (r, code)) (he : exec c s = request c r code f s) (ht : Takes c s u) :
    Answers c s (f u).status (f u).result (f u).state := by
  simp only [Takes, hr] at ht
  simp only [Answers, hr]
  exact ⟨respond r code (f u), by rw [he]; simp [request, ht], respond_same r code (f u), respond_answered r code (f u)⟩

/-- The same, when the reply is known. -/
theorem answers_of {c : Instr} {r : Sender} {code : Nat} {f : State → Reply} {s u v : State} {st : Status} {x : Result}
    (hr : requestOf c = some (r, code)) (he : exec c s = request c r code f s) (ht : Takes c s u)
    (hf : f u = ⟨v, st, x⟩) : Answers c s st x v := by
  have h := answers_request hr he ht
  rw [hf] at h
  exact h

/-- Taking a request changes the port's queue of requests alone. -/
theorem takes_blocks {c : Instr} {s u : State} (h : Takes c s u) : u = { s with ports := u.ports } := by
  simp only [Takes] at h
  split at h
  · exact (taken_blocks h).1
  · exact h.elim

theorem takes_plant {c : Instr} {s u : State} (h : Takes c s u) : u.plant = s.plant := by
  rw [takes_blocks h]

/-- A table of checks that all pass refuses nothing. -/
theorem AllPass.none {l : List (Prop × Status)} (h : AllPass l) (st : Status) : ¬FirstOf l st := by
  induction l with
  | nil => exact fun x => x
  | cons k l ih =>
    rintro (⟨hk, -⟩ | ⟨-, hl⟩)
    · exact h k (by simp) hk
    · exact ih (fun x hx => h x (by simp [hx])) hl

end Sys2Proof.Machine
end

