-- ==== Sys2Proof/WellFormed.lean ====
section
/-! DEFINITION. Which commands can reach the block at all: a request's code is one byte (R196), a call reference holds an
8-bit generation (R103), an ACK_ALARM source of 65,535 means ALL (section 11.2), and an event names something the device
has. A request without parameters has no form that fails (R196), so no UNKNOWN_REQUEST has its code. A number that a REQUEST
names outside its range is well formed: its rule refuses or clamps it. -/

namespace Sys2Proof

/-- R103: the generation of a reference is 0 to 255. -/
def CallRef.fits (r : CallRef) : Bool := decide (r.generation < 256)

/-- R103, R104: the reference names a slot of the table. -/
def CallRef.names (r : CallRef) : Bool := decide (r.slot < Config.slots) && r.fits

/-- Section 11.2: one source is spelled by 2 bytes other than 65,535. -/
def ackSourceFits (source : Option Nat) : Bool := source.all (fun n => decide (n < 65535))

/-- R196: a frame from a processor is a list of bytes of at most 8 + 4,096. Longer ones are sent too, and are invalid, so
any list is well formed. The other checks are those of the header of this file. -/
def Instr.wellFormed : Instr → Bool
  | .defineGroup _ _ => true
  | .setGroupParams _ _ _ => true
  | .deleteGroup _ _ => true
  | .blockCircuits _ _ _ _ => true
  | .unblockCircuits _ _ _ _ => true
  | .lockPlant _ => true
  | .queryGroup _ _ => true
  | .queryCircuit _ _ => true
  | .unlockPlant _ => true
  | .reportFarCongestion _ _ _ => true
  | .drainGroup _ _ _ => true
  | .drainSuspend _ => true
  | .drainResume _ => true
  | .returnGroup _ _ => true
  | .queryDrain _ => true
  | .addPrefix _ _ _ => true
  | .removePrefix _ _ => true
  | .writeDest _ _ _ _ _ => true
  | .setGap _ _ _ _ => true
  | .clearGap _ _ => true
  | .queryGap _ _ => true
  | .writePlan _ _ _ => true
  | .queryPlan _ _ => true
  | .setReattemptLimit _ _ => true
  | .flushRouteMemory _ => true
  | .queryRouteMemory _ _ _ => true
  | .offer _ _ _ _ => true
  | .accepted _ call => call.fits
  | .answer _ call => call.fits
  | .reattempt _ call _ _ => call.fits
  | .release _ call _ => call.fits
  | .adopt _ _ => true
  | .queryCall _ call => call.fits
  | .clearTraffic _ => true
  | .setOrphanLimit _ _ => true
  | .setClock _ _ _ => true
  | .stageOpen _ => true
  | .stageWriteTariff _ _ _ _ => true
  | .stageWriteMargin _ _ _ => true
  | .stageWriteSchedule _ _ _ _ => true
  | .stageWriteWeek _ _ => true
  | .stageActivate _ _ => true
  | .stageAbort _ => true
  | .queryTariff _ _ _ => true
  | .setFetchBlock _ _ => true
  | .fetchRecords _ => true
  | .setExposureLimit _ _ _ => true
  | .closePeriod _ => true
  | .readClosed _ _ => true
  | .releaseClosed _ _ => true
  | .queryPair _ _ _ => true
  | .attach _ _ => true
  | .detach _ => true
  | .subscribe _ _ _ => true
  | .ackAlarm _ _ source => ackSourceFits source
  | .sync _ => true
  | .identify _ => true
  | .unknownRequest _ code => decide (code < 256) && decide (code ∉ Machine.bareCodes)
  | .frameReceived _ _ => true
  | .linkLoss _ => true
  | .detachComplete _ => true
  | .callTablePortLoss _ => true
  | .tariffHolderLoss _ => true
  | .drainContributorLoss _ => true
  | .noticeSent _ => true
  | .tick => true
  | .guardExpiry circuit => decide (circuit < Config.circuits)
  | .decayExpiry group => decide (group < Config.groups)
  | .windowExpiry => true
  | .deadlineExpiry => true
  | .drainReleaseList => true
  | .gapLifeExpiry destination => decide (destination < Config.destinations)
  | .orphanExpiry => true
  | .activationDue => true
  | .glareReselection call => call.names
  | .accumulation => true
  | .resetN => true
  | .powerOn => true
  | .responseSent _ => true

end Sys2Proof
end

