-- ==== Sys2Proof/Laws/PerInstr.lean ====
section
/-! SUPPORT. The form of every command: a request that can reach the block has a code that one byte
spells (R196). -/

namespace Sys2Proof.Laws

/-- R196: a well-formed command that is a request has a code of one byte. -/
def Form.Statement (i : Instr) : Prop :=
  i.wellFormed = true → ∀ r code, Machine.requestOf i = some (r, code) → code < 256

theorem Form.defineGroup (r : Sender) (d : GroupDefinition) :
    Form.Statement (.defineGroup r d) := by
  intro _ _ _ h
  cases h
  decide

theorem Form.setGroupParams (r : Sender) (group : Nat) (p : GroupChanges) :
    Form.Statement (.setGroupParams r group p) := by
  intro _ _ _ h
  cases h
  decide

theorem Form.deleteGroup (r : Sender) (group : Nat) :
    Form.Statement (.deleteGroup r group) := by
  intro _ _ _ h
  cases h
  decide

theorem Form.blockCircuits (r : Sender) (first count : Nat) (kind : Arg FlagKind) :
    Form.Statement (.blockCircuits r first count kind) := by
  intro _ _ _ h
  cases h
  decide

theorem Form.unblockCircuits (r : Sender) (first count : Nat) (kind : Arg FlagKind) :
    Form.Statement (.unblockCircuits r first count kind) := by
  intro _ _ _ h
  cases h
  decide

theorem Form.lockPlant (r : Sender) :
    Form.Statement (.lockPlant r) := by
  intro _ _ _ h
  cases h
  decide

theorem Form.queryGroup (r : Sender) (group : Nat) :
    Form.Statement (.queryGroup r group) := by
  intro _ _ _ h
  cases h
  decide

theorem Form.queryCircuit (r : Sender) (circuit : Nat) :
    Form.Statement (.queryCircuit r circuit) := by
  intro _ _ _ h
  cases h
  decide

theorem Form.unlockPlant (r : Sender) :
    Form.Statement (.unlockPlant r) := by
  intro _ _ _ h
  cases h
  decide

theorem Form.reportFarCongestion (r : Sender) (group level : Nat) :
    Form.Statement (.reportFarCongestion r group level) := by
  intro _ _ _ h
  cases h
  decide

theorem Form.drainGroup (r : Sender) (group deadline : Nat) :
    Form.Statement (.drainGroup r group deadline) := by
  intro _ _ _ h
  cases h
  decide

theorem Form.drainSuspend (r : Sender) :
    Form.Statement (.drainSuspend r) := by
  intro _ _ _ h
  cases h
  decide

theorem Form.drainResume (r : Sender) :
    Form.Statement (.drainResume r) := by
  intro _ _ _ h
  cases h
  decide

theorem Form.returnGroup (r : Sender) (group : Nat) :
    Form.Statement (.returnGroup r group) := by
  intro _ _ _ h
  cases h
  decide

theorem Form.queryDrain (r : Sender) :
    Form.Statement (.queryDrain r) := by
  intro _ _ _ h
  cases h
  decide

theorem Form.addPrefix (r : Sender) (digits : List Nat) (destination : Nat) :
    Form.Statement (.addPrefix r digits destination) := by
  intro _ _ _ h
  cases h
  decide

theorem Form.removePrefix (r : Sender) (digits : List Nat) :
    Form.Statement (.removePrefix r digits) := by
  intro _ _ _ h
  cases h
  decide

theorem Form.writeDest (r : Sender) (destination plan : Option Nat) (barred inUse : Option Bool) :
    Form.Statement (.writeDest r destination plan barred inUse) := by
  intro _ _ _ h
  cases h
  decide

theorem Form.setGap (r : Sender) (destination : Nat) (interval life : Option Nat) :
    Form.Statement (.setGap r destination interval life) := by
  intro _ _ _ h
  cases h
  decide

theorem Form.clearGap (r : Sender) (destination : Nat) :
    Form.Statement (.clearGap r destination) := by
  intro _ _ _ h
  cases h
  decide

theorem Form.queryGap (r : Sender) (q : GapQuery) :
    Form.Statement (.queryGap r q) := by
  intro _ _ _ h
  cases h
  decide

theorem Form.writePlan (r : Sender) (plan : Nat) (steps : List StepArg) :
    Form.Statement (.writePlan r plan steps) := by
  intro _ _ _ h
  cases h
  decide

theorem Form.queryPlan (r : Sender) (plan : Nat) :
    Form.Statement (.queryPlan r plan) := by
  intro _ _ _ h
  cases h
  decide

theorem Form.setReattemptLimit (r : Sender) (limit : Option Nat) :
    Form.Statement (.setReattemptLimit r limit) := by
  intro _ _ _ h
  cases h
  decide

theorem Form.flushRouteMemory (r : Sender) :
    Form.Statement (.flushRouteMemory r) := by
  intro _ _ _ h
  cases h
  decide

theorem Form.queryRouteMemory (r : Sender) (destination set : Option Nat) :
    Form.Statement (.queryRouteMemory r destination set) := by
  intro _ _ _ h
  cases h
  decide

theorem Form.offer (r : OfferStep) (circuit : Nat) (digits : List Nat) (cls : Arg CallClass) :
    Form.Statement (.offer r circuit digits cls) := by
  intro _ _ _ h
  obtain ⟨_, part⟩ := r
  cases part <;> cases h <;> decide

theorem Form.accepted (r : Sender) (call : CallRef) :
    Form.Statement (.accepted r call) := by
  intro _ _ _ h
  cases h
  decide

theorem Form.answer (r : Sender) (call : CallRef) :
    Form.Statement (.answer r call) := by
  intro _ _ _ h
  cases h
  decide

theorem Form.reattempt (r : Sender) (call : CallRef) (cause : Arg Cause) (level : Option Nat) :
    Form.Statement (.reattempt r call cause level) := by
  intro _ _ _ h
  cases h
  decide

theorem Form.release (r : Sender) (call : CallRef) (cause : Arg Cause) :
    Form.Statement (.release r call cause) := by
  intro _ _ _ h
  cases h
  decide

theorem Form.adopt (r : Sender) (former : Arg Port) :
    Form.Statement (.adopt r former) := by
  intro _ _ _ h
  cases h
  decide

theorem Form.queryCall (r : Sender) (call : CallRef) :
    Form.Statement (.queryCall r call) := by
  intro _ _ _ h
  cases h
  decide

theorem Form.clearTraffic (r : Sender) :
    Form.Statement (.clearTraffic r) := by
  intro _ _ _ h
  cases h
  decide

theorem Form.setOrphanLimit (r : Sender) (limit : Option Nat) :
    Form.Statement (.setOrphanLimit r limit) := by
  intro _ _ _ h
  cases h
  decide

theorem Form.setClock (r : Sender) (day msOfDay : Option Nat) :
    Form.Statement (.setClock r day msOfDay) := by
  intro _ _ _ h
  cases h
  decide

theorem Form.stageOpen (r : Sender) :
    Form.Statement (.stageOpen r) := by
  intro _ _ _ h
  cases h
  decide

theorem Form.stageWriteTariff (r : Sender) (carrier tariffClass : Nat) (f : TariffFields) :
    Form.Statement (.stageWriteTariff r carrier tariffClass f) := by
  intro _ _ _ h
  cases h
  decide

theorem Form.stageWriteMargin (r : Sender) (carrier : Nat) (margin : Option Nat) :
    Form.Statement (.stageWriteMargin r carrier margin) := by
  intro _ _ _ h
  cases h
  decide

theorem Form.stageWriteSchedule (r : Sender) (day : Arg DayType) (first : Nat) (bands : List (Arg Band)) :
    Form.Statement (.stageWriteSchedule r day first bands) := by
  intro _ _ _ h
  cases h
  decide

theorem Form.stageWriteWeek (r : Sender) (days : List (Nat × Arg DayType)) :
    Form.Statement (.stageWriteWeek r days) := by
  intro _ _ _ h
  cases h
  decide

theorem Form.stageActivate (r : Sender) (target : Option ActivationTarget) :
    Form.Statement (.stageActivate r target) := by
  intro _ _ _ h
  cases h
  decide

theorem Form.stageAbort (r : Sender) :
    Form.Statement (.stageAbort r) := by
  intro _ _ _ h
  cases h
  decide

theorem Form.queryTariff (r : Sender) (bank : Arg Bank) (item : Arg TariffItem) :
    Form.Statement (.queryTariff r bank item) := by
  intro _ _ _ h
  cases h
  decide

theorem Form.setFetchBlock (r : Sender) (code : Option Nat) :
    Form.Statement (.setFetchBlock r code) := by
  intro _ _ _ h
  cases h
  decide

theorem Form.fetchRecords (r : Sender) :
    Form.Statement (.fetchRecords r) := by
  intro _ _ _ h
  cases h
  decide

theorem Form.setExposureLimit (r : Sender) (carrier : Nat) (limit : Option Nat) :
    Form.Statement (.setExposureLimit r carrier limit) := by
  intro _ _ _ h
  cases h
  decide

theorem Form.closePeriod (r : Sender) :
    Form.Statement (.closePeriod r) := by
  intro _ _ _ h
  cases h
  decide

theorem Form.readClosed (r : Sender) (item : Arg ClosedItem) :
    Form.Statement (.readClosed r item) := by
  intro _ _ _ h
  cases h
  decide

theorem Form.releaseClosed (r : Sender) (period : Option Nat) :
    Form.Statement (.releaseClosed r period) := by
  intro _ _ _ h
  cases h
  decide

theorem Form.queryPair (r : Sender) (inbound outbound : Nat) :
    Form.Statement (.queryPair r inbound outbound) := by
  intro _ _ _ h
  cases h
  decide

theorem Form.attach (r : Sender) (partner : Arg Port) :
    Form.Statement (.attach r partner) := by
  intro _ _ _ h
  cases h
  decide

theorem Form.detach (r : Sender) :
    Form.Statement (.detach r) := by
  intro _ _ _ h
  cases h
  decide

theorem Form.subscribe (r : Sender) (cls : Arg AlarmClass) (on : Option Bool) :
    Form.Statement (.subscribe r cls on) := by
  intro _ _ _ h
  cases h
  decide

theorem Form.ackAlarm (r : Sender) (cls : Arg AlarmClass) (source : Option Nat) :
    Form.Statement (.ackAlarm r cls source) := by
  intro _ _ _ h
  cases h
  decide

theorem Form.sync (r : Sender) :
    Form.Statement (.sync r) := by
  intro _ _ _ h
  cases h
  decide

theorem Form.identify (r : Sender) :
    Form.Statement (.identify r) := by
  intro _ _ _ h
  cases h
  decide

theorem Form.unknownRequest (r : Sender) (code : Nat) :
    Form.Statement (.unknownRequest r code) := by
  intro hw q n h
  cases h
  exact of_decide_eq_true (Bool.and_eq_true_iff.mp hw).1

theorem Form.frameReceived (port : Port) (bytes : List Byte) :
    Form.Statement (.frameReceived port bytes) := by
  intro _ _ _ h
  cases h

theorem Form.linkLoss (port : Port) :
    Form.Statement (.linkLoss port) := by
  intro _ _ _ h
  cases h

theorem Form.detachComplete (port : Port) :
    Form.Statement (.detachComplete port) := by
  intro _ _ _ h
  cases h

theorem Form.callTablePortLoss (port : Port) :
    Form.Statement (.callTablePortLoss port) := by
  intro _ _ _ h
  cases h

theorem Form.tariffHolderLoss (port : Port) :
    Form.Statement (.tariffHolderLoss port) := by
  intro _ _ _ h
  cases h

theorem Form.drainContributorLoss (port : Port) :
    Form.Statement (.drainContributorLoss port) := by
  intro _ _ _ h
  cases h

theorem Form.noticeSent (port : Port) :
    Form.Statement (.noticeSent port) := by
  intro _ _ _ h
  cases h

theorem Form.tick : Form.Statement .tick := by
  intro _ _ _ h
  cases h

theorem Form.guardExpiry (circuit : Nat) :
    Form.Statement (.guardExpiry circuit) := by
  intro _ _ _ h
  cases h

theorem Form.decayExpiry (group : Nat) :
    Form.Statement (.decayExpiry group) := by
  intro _ _ _ h
  cases h

theorem Form.windowExpiry : Form.Statement .windowExpiry := by
  intro _ _ _ h
  cases h

theorem Form.deadlineExpiry : Form.Statement .deadlineExpiry := by
  intro _ _ _ h
  cases h

theorem Form.drainReleaseList : Form.Statement .drainReleaseList := by
  intro _ _ _ h
  cases h

theorem Form.gapLifeExpiry (destination : Nat) :
    Form.Statement (.gapLifeExpiry destination) := by
  intro _ _ _ h
  cases h

theorem Form.orphanExpiry : Form.Statement .orphanExpiry := by
  intro _ _ _ h
  cases h

theorem Form.activationDue : Form.Statement .activationDue := by
  intro _ _ _ h
  cases h

theorem Form.glareReselection (call : CallRef) :
    Form.Statement (.glareReselection call) := by
  intro _ _ _ h
  cases h

theorem Form.accumulation : Form.Statement .accumulation := by
  intro _ _ _ h
  cases h

theorem Form.resetN : Form.Statement .resetN := by
  intro _ _ _ h
  cases h

theorem Form.powerOn : Form.Statement .powerOn := by
  intro _ _ _ h
  cases h

theorem Form.responseSent (port : Port) :
    Form.Statement (.responseSent port) := by
  intro _ _ _ h
  cases h

end Sys2Proof.Laws
end

