-- ==== Sys2Proof/Laws/Ports.lean ====
section
/-! SUPPORT. The operations of chapter 10 on the port records: each leaves the blocks as they were, and keeps sound port
records sound. -/

namespace Sys2Proof.Machine

/-- Only the port records differ. -/
def PortsOnly (s t : State) : Prop := t = { s with ports := t.ports }

theorem PortsOnly.refl (s : State) : PortsOnly s s := rfl

theorem PortsOnly.trans {s t u : State} (h : PortsOnly s t) (g : PortsOnly t u) : PortsOnly s u := by
  have e : u = { t with ports := u.ports } := g
  rw [show t = { s with ports := t.ports } from h] at e
  exact e

theorem PortsOnly.same {s t : State} (h : PortsOnly s t) : SameBlocks s t := by
  rw [show t = { s with ports := t.ports } from h]
  exact ⟨rfl, rfl, rfl, rfl, rfl, rfl, rfl, rfl, rfl⟩

theorem PortsOnly.setPort (s : State) (p : Port) (r : PortRecord) : PortsOnly s (s.setPort p r) := rfl

theorem Told.portsOnly {s t : State} (h : Told s t) (hl : t.levels = s.levels) : PortsOnly s t := by
  have := h.1
  rw [hl] at this
  exact this

theorem notify_ports (p : Port) (n : Notice) (s : State) : PortsOnly s (notify p n s) :=
  (notify_told p n s).portsOnly (notify_levels p n s)

theorem notifyOthersUp_ports (p : Port) (n : Notice) (s : State) : PortsOnly s (notifyOthersUp p n s) :=
  (notifyOthersUp_told p n s).portsOnly (notifyUp_levels _ n s)

theorem rescan_ports (p : Port) (s : State) : PortsOnly s (rescan p s) :=
  (rescan_told p s).portsOnly (rescan_levels p s)

theorem settleSync_ports (p : Port) (s : State) : PortsOnly s (settleSync p s) := rfl

theorem scanClass_ports (p : Port) (s : State) (c : AlarmClass) : PortsOnly s (scanClass p s c) :=
  (scanClass_told p s c).portsOnly (scanClass_levels p s c)

/-- A told state keeps sound port records sound. -/
theorem Told.sound {s t : State} (h : Told s t) (hs : PortsSound s) : PortsSound t := h.2.2 hs

/-! ## ATTACH and DETACH (R182, R183) -/

theorem comeUp_ports (p : Port) (q : Option Port) (s : State) : PortsOnly s (comeUp p q s) :=
  (PortsOnly.setPort s _ _).trans (notifyOthersUp_ports _ _ _)

theorem comeUp_sound (p : Port) (q : Option Port) {s : State} (hs : PortsSound s) : PortsSound (comeUp p q s) := by
  refine (notifyOthersUp_told _ _ _).sound (hs.setPort ?_)
  obtain ⟨h1, h2, h3, h4, h5, -⟩ := hs p
  exact ⟨h1, h2, h3, h4, h5, fun h => (by cases h)⟩

theorem replacePartner_ports (p : Port) (q : Option Port) (s : State) : PortsOnly s (replacePartner p q s) :=
  (PortsOnly.setPort s _ _).trans (notifyOthersUp_ports _ _ _)

theorem replacePartner_sound (p : Port) (q : Option Port) {s : State} (hu : (s.port p).state = .up) (hs : PortsSound s) :
    PortsSound (replacePartner p q s) := by
  refine (notifyOthersUp_told _ _ _).sound (hs.setPort ?_)
  obtain ⟨h1, h2, h3, h4, h5, -⟩ := hs p
  exact ⟨h1, h2, h3, h4, h5, fun h => (by rw [show (s.port p).state = .down from h] at hu; cases hu)⟩

theorem attachTo_ports (p : Port) (q : Option Port) (s : State) : PortsOnly s (attachTo p q s).state := by
  simp only [attachTo]
  split
  · exact replacePartner_ports p q s
  · exact comeUp_ports p q s

theorem attachTo_sound (p : Port) (q : Option Port) {s : State} (hs : PortsSound s) :
    PortsSound (attachTo p q s).state := by
  simp only [attachTo]
  split
  · rename_i h; exact replacePartner_sound p q h hs
  · exact comeUp_sound p q hs

theorem handleAttach_ports (p : Port) (q : Arg Port) (s : State) : PortsOnly s (handleAttach p q s).state := by
  simp only [handleAttach]
  repeat' split
  all_goals first
    | exact PortsOnly.refl s
    | exact attachTo_ports p _ s

theorem handleAttach_sound (p : Port) (q : Arg Port) {s : State} (hs : PortsSound s) :
    PortsSound (handleAttach p q s).state := by
  simp only [handleAttach]
  repeat' split
  all_goals first
    | exact hs
    | exact attachTo_sound p _ hs

theorem startDetach_ports (r : Sender) (s : State) : PortsOnly s (startDetach r s) :=
  ((PortsOnly.setPort s _ _).trans (notifyOthersUp_ports _ _ _)).trans (settleSync_ports _ _)

theorem startDetach_sound (r : Sender) {s : State} (hs : PortsSound s) : PortsSound (startDetach r s) := by
  refine (settleSync_told _ _).sound ((notifyOthersUp_told _ _ _).sound (hs.setPort ?_))
  obtain ⟨-, h2, h3, h4, h5, -⟩ := hs r.port
  exact ⟨Nat.zero_le _, h2, h3, h4, h5, fun h => (by cases h)⟩

/-! ## SUBSCRIBE, ACK_ALARM and SYNC (R191 to R193) -/

theorem setMask_ports (p : Port) (c : AlarmClass) (on : Bool) (s : State) : PortsOnly s (setMask p c on s) := by
  simp only [setMask]
  split
  · exact (PortsOnly.setPort s _ _).trans (rescan_ports _ _)
  · exact (PortsOnly.setPort s _ _).trans (settleSync_ports _ _)

theorem setMask_sound (p : Port) (c : AlarmClass) (on : Bool) {s : State} (hu : (s.port p).state = .up)
    (hs : PortsSound s) : PortsSound (setMask p c on s) := by
  have h : PortsSound (s.setPort p { s.port p with mask := (s.port p).mask.set c on }) := by
    refine hs.setPort ?_
    obtain ⟨h1, h2, h3, h4, h5, -⟩ := hs p
    exact ⟨h1, h2, h3, h4, h5, fun h => (by rw [show (s.port p).state = .down from h] at hu; cases hu)⟩
  simp only [setMask]
  split
  · exact (rescan_told _ _).sound h
  · exact (settleSync_told _ _).sound h

theorem clearFlag_ports (p : Port) (s : State) (a : AlarmSource) : PortsOnly s (clearFlag p s a) := by
  simp only [clearFlag]
  split
  · exact PortsOnly.setPort s _ _
  · exact PortsOnly.refl s

/-- R192: clearing a flag changes the alarm records alone. -/
theorem clearFlag_told (p : Port) (s : State) (a : AlarmSource) : Told s (clearFlag p s a) := by
  simp only [clearFlag]
  split
  · rename_i ho
    refine Told.setPort s p _ (by simp [SamePortFacts]) ?_
    intro hs
    obtain ⟨h1, h2, h3, h4, h5, h6⟩ := hs
    refine ⟨h1, h2, h3, h4, h5, ?_⟩
    intro hd
    have he := (h6 hd).2.2.2.2.2.2.2
    rw [he] at ho
    cases ho
  · exact Told.refl s

theorem ackSources_told (p : Port) (c : AlarmClass) (as : List AlarmSource) (s : State) : Told s (ackSources p c as s) :=
  (Told.foldl _ (clearFlag_told p) as s).trans (scanClass_told _ _ _)

theorem handleAckAlarm_told (p : Port) (c : Arg AlarmClass) (n : Option Nat) (s : State) :
    Told s (handleAckAlarm p c n s).state := by
  simp only [handleAckAlarm]
  repeat' split
  all_goals first
    | exact Told.refl s
    | exact (ackSources_told _ _ _ s).trans (settleSync_told _ _)

theorem holdSync_ports (r : Sender) (s : State) : PortsOnly s (holdSync r s) :=
  (PortsOnly.setPort s _ _).trans (settleSync_ports _ _)

theorem holdSync_sound (r : Sender) {s : State} (hu : (s.port r.port).state = .up) (hs : PortsSound s) :
    PortsSound (holdSync r s) := by
  refine (settleSync_told _ _).sound (hs.setPort ?_)
  obtain ⟨h1, h2, h3, h4, h5, -⟩ := hs r.port
  exact ⟨h1, h2, h3, h4, h5, fun h => (by rw [show (s.port r.port).state = .down from h] at hu; cases hu)⟩

/-! ## The link (R181, R184, R188) -/

theorem restartCount_sound (p : Port) {s : State} (hs : PortsSound s) : PortsSound (restartCount p s) := by
  simp only [restartCount]
  split
  · exact hs
  · exact hs.setPort (hs p)

theorem takeFrame_ports (p : Port) (j : Judged) (s : State) : PortsOnly s (takeFrame p j s) := by
  have h : PortsOnly s (restartCount p s) := by
    simp only [restartCount]
    split
    · exact PortsOnly.refl s
    · exact PortsOnly.setPort s _ _
  simp only [takeFrame]
  split
  · exact PortsOnly.refl s
  · exact h
  · exact h.trans (arrive_blocks _ _ _)

theorem takeFrame_sound (p : Port) (j : Judged) {s : State} (hs : PortsSound s) : PortsSound (takeFrame p j s) := by
  simp only [takeFrame]
  split
  · exact hs
  · exact restartCount_sound p hs
  · exact arrive_sound _ _ (restartCount_sound p hs)

/-- R184 step 5: the record of a port that has gone DOWN is sound. -/
theorem lost_sound (r : PortRecord) : r.lost.Sound := by
  simp [PortRecord.Sound, PortRecord.lost, PortRecord.initial]

theorem portDown_sound (p : Port) (c : PortCause) (tag : Option Byte) {s : State} (hs : PortsSound s) :
    PortsSound (portDown p c tag s) :=
  (notifyOthersUp_told _ _ _).sound (hs.setPort (lost_sound (s.port p)))

theorem noticeLeft_ports (p : Port) (s : State) : PortsOnly s (noticeLeft p s) := by
  simp only [noticeLeft]
  split
  · exact PortsOnly.refl s
  · exact (PortsOnly.setPort s _ _).trans (rescan_ports _ _)

/-- R189: the record of a port whose oldest notice has left. -/
theorem fillOverflow_sound (r : PortRecord) (n : Notice) (rest : List Notice) (h : List Held) (hn : r.notices = n :: rest)
    (hs : r.Sound) : (fillOverflow { r with notices := rest, held := h }).Sound := by
  obtain ⟨h1, h2, h3, h4, h5, h6⟩ := hs
  rw [hn] at h2 h4
  have hd : r.state ≠ .down := by
    intro hd
    have := (h6 hd).2.2.2.1
    rw [hn] at this
    cases this
  simp only [fillOverflow]
  split
  · rename_i h0
    have h0 : r.drops = 0 := h0
    refine ⟨h1, ?_, h3, ?_, h5, fun h => absurd h hd⟩
    · simp at h2; show rest.length ≤ _; omega
    · intro hp; exact absurd hp (by show ¬ 0 < r.drops; omega)
  · refine ⟨h1, ?_, Nat.zero_le _, ?_, h5, fun h => absurd h hd⟩
    · simpa using h2
    · intro hp; exact absurd hp (by simp)

theorem noticeLeft_sound (p : Port) {s : State} (hs : PortsSound s) : PortsSound (noticeLeft p s) := by
  simp only [noticeLeft]
  split
  · exact hs
  · rename_i n rest hn
    exact (rescan_told _ _).sound (hs.setPort (fillOverflow_sound _ n rest _ hn (hs p)))

theorem responseLeft_sound (r : PortRecord) (hs : r.Sound) : (responseLeft r).Sound := by
  simp only [responseLeft]
  split <;> exact hs

theorem tickPort_sound (line : Bool) (r : PortRecord) (hs : r.Sound) : (tickPort line r).Sound := by
  simp only [tickPort]
  repeat' split
  all_goals exact hs

end Sys2Proof.Machine
end

