-- ==== Sys2Proof/Tests/Slice0.lean ====
section
/-! SUPPORT. Tests of the model. The expected values come from spec/: its tables of ordered checks, its worked sequences
(1.10, 2.7, 2.8, 3.8, 3.9, 4.7, 5.5, 6.9, 7.8, 8.7 to 8.9, 9.7, 10.10) and its layouts. The second half gives, for each
statement with hypotheses, states and operands that meet them. -/

open Sys2Proof Sys2Proof.Machine

namespace Sys2Proof.Tests

set_option Elab.async false

/-! ## Well-formedness: one ill-formed command for each check -/

theorem test_wf_accepted : (Instr.accepted ⟨.a, 1⟩ ⟨0, 256⟩).wellFormed = false := by decide
theorem test_wf_answer : (Instr.answer ⟨.a, 1⟩ ⟨0, 256⟩).wellFormed = false := by decide
theorem test_wf_reattempt : (Instr.reattempt ⟨.a, 1⟩ ⟨0, 256⟩ .absent none).wellFormed = false := by decide
theorem test_wf_release : (Instr.release ⟨.a, 1⟩ ⟨0, 256⟩ .absent).wellFormed = false := by decide
theorem test_wf_query_call : (Instr.queryCall ⟨.a, 1⟩ ⟨0, 256⟩).wellFormed = false := by decide
theorem test_wf_ack_alarm : (Instr.ackAlarm ⟨.a, 1⟩ .absent (some 65535)).wellFormed = false := by decide
theorem test_wf_unknown_request : (Instr.unknownRequest ⟨.a, 1⟩ 256).wellFormed = false := by decide
/-- Section 11.3: a request without parameters has no form to miss. -/
theorem test_wf_unknown_request_without_parameters : (Instr.unknownRequest ⟨.a, 1⟩ 35).wellFormed = false := by decide
theorem test_wf_guard_expiry : (Instr.guardExpiry 16384).wellFormed = false := by decide
theorem test_wf_decay_expiry : (Instr.decayExpiry 256).wellFormed = false := by decide
theorem test_wf_gap_life_expiry : (Instr.gapLifeExpiry 2048).wellFormed = false := by decide
theorem test_wf_reselection_slot : (Instr.glareReselection ⟨8192, 0⟩).wellFormed = false := by decide
theorem test_wf_reselection_generation : (Instr.glareReselection ⟨0, 256⟩).wellFormed = false := by decide
theorem test_wf_at_the_bounds :
    [Instr.queryCall ⟨.a, 1⟩ ⟨8192, 255⟩, .ackAlarm ⟨.a, 1⟩ .absent (some 65534), .unknownRequest ⟨.a, 1⟩ 255,
      .guardExpiry 16383, .decayExpiry 255, .gapLifeExpiry 2047, .glareReselection ⟨8191, 255⟩].all
      Instr.wellFormed = true := by decide

/-! ## Frames and layouts (chapter 11) -/

/-- The check value of the digits 1 to 9 under polynomial 0x1021 with initial value 0xFFFF, most significant bit first: the
published check word of that code, 0x29B1. -/
theorem test_check_value :
    checkValue [0x31#8, 0x32#8, 0x33#8, 0x34#8, 0x35#8, 0x36#8, 0x37#8, 0x38#8, 0x39#8] = 0x29B1#16 := by
  decide +kernel

/-- Section 11.3 names these two codes. -/
theorem test_request_codes : RequestKind.offer.code = 96 ∧ RequestKind.identify.code = 149 := by decide

/-- R196: kind, tag, body length, code, status and body stand at offsets 0, 1, 2 to 3, 4, 5 and 6. -/
theorem test_frame_layout :
    (encodeFrame 1 9 133 0 [0x12#8, 0x34#8]).take 8 = [1#8, 9#8, 0#8, 2#8, 133#8, 0#8, 0x12#8, 0x34#8] := by
  decide +kernel

/-- R196: a kind other than 0 and 1, and a changed check value, make a frame invalid. -/
theorem test_frame_invalid :
    judgeFrame (encodeFrame 2 0 0 0 []) = .invalid ∧
      judgeFrame [1#8, 0#8, 0#8, 0#8, 21#8, 0#8, 0#8, 0#8] = .invalid := by decide +kernel

/-- The table gives no row any bits. -/
theorem test_no_word_spells_a_command : decodeTableWord 16 0 = none ∧ State.reset.withFetchWord 16 0 = State.reset := by
  decide +kernel

/-- R197: the offsets of the call 12/5 of section 6.9 at 70,000, in its settlement record: period 1, slots and carriers, the
flags byte with ALT_PREMIUM, an answer week time absent under TIME_UNSET (all bytes 255), the duration 69,100. -/
def record125 : SettlementRecord :=
  { period := 1
    result :=
      { call := ⟨12, 5⟩, inCarrier := 4, outCarrier := 22, inGroup := 10, outGroup := 91, generation := 7,
        tariffClass := 1, stepKind := .final, answerWeekTime := none, duration := 69100, billed := 70, seconds0 := 70,
        seconds1 := 0, seconds2 := 0, seconds3 := 0, payable := 0, receivable := 0, cause := .normal,
        flags := ⟨true, false, false, true, false, false⟩ } }

theorem test_settlement_record :
    (settlementBytes record125).length = 56 ∧
      (settlementBytes record125).take 24 =
        [0#8, 1#8, 0#8, 12#8, 5#8, 4#8, 22#8, 10#8, 91#8, 0#8, 7#8, 1#8, 2#8, 0#8, 9#8, 0#8, 255#8, 255#8, 255#8, 255#8,
          0#8, 1#8, 13#8, 236#8] := by decide +kernel

theorem test_alarm_body : alarmBytes ⟨.carrierHold, 7⟩ 1 = [2#8, 0#8, 7#8, 1#8] := by decide

/-! ## States -/

/-- An UP port with no partner. -/
def portUp : PortRecord := { PortRecord.initial with state := .up }

/-- Ports A and B UP at a monotonic time, nothing else. -/
def upAt (t : Nat) : State :=
  { State.reset with
    ports := ⟨portUp, portUp, .initial, .initial⟩
    tariff := { State.reset.tariff with monotonic := t } }

/-- The requests of these tests come in on port A with tag 7. -/
def a : Sender := ⟨.a, 7⟩

/-- A group definition with every value present. -/
def groupDef (n carrier first count threshold : Nat) (dir : Direction) (gl : GlareRule) (kept : Bool) : GroupDefinition :=
  { group := n, carrier := carrier, direction := .given dir, glare := .given gl, ranges := [⟨first, count⟩],
    hunt := .given .firstUp, guardTime := some 500, threshold := some threshold, hysteresis := some 4, decay := some 5,
    drainProtected := some kept }

/-- Group 40 of section 1.10. -/
def def40 : GroupDefinition := groupDef 40 12 1000 4 1 .both .winEven false

/-- Group 41, of carrier 5. -/
def def41 : GroupDefinition := groupDef 41 5 2000 2 0 .both .yieldAll true

/-- Group 42, of the operator's own carrier 0. -/
def def42 : GroupDefinition := groupDef 42 0 3000 1 0 .outOnly .winAll false

/-- Groups 40, 41 and 42 defined at 10,000 ms. -/
def plant : State :=
  (handleDefineGroup def42 (handleDefineGroup def41 (handleDefineGroup def40 (upAt 10000)).state).state).state

/-- The plant after event 1 of section 1.10, with 1,001 BUSY_IN for call 205/1 and 1,002 in GUARD to 10,500. -/
def busy : State :=
  changeCircuit 1002 (fun e => { e with occupancy := .guard 10500 }) (occupyIn 1001 ⟨205, 1⟩ (occupyOut 40 1000 ⟨17, 3⟩ plant))

/-- The last response composed for port A. -/
def lastOf (s : State) : Option (Status × Result) := (s.port .a).outbox.getLast?.map (fun x => (x.status, x.result))

/-- The state a command leaves. -/
def after (c : Instr) (s : State) : State :=
  match exec c s with
  | .next t => t
  | .fault _ => s
  | .refused _ => s

/-- The response that a command of port A is given. -/
def reply (c : Instr) (s : State) : Option (Status × Result) := lastOf (after c s)

/-- The status of that response. -/
def statusOf (c : Instr) (s : State) : Option Status := (reply c s).map Prod.fst

/-- The five counts of a group and its idle set. -/
def counts (s : State) (n : Nat) : Option (List Nat × List Nat) :=
  (s.group n).map (fun g => ([g.available, g.blockedIdle, g.busyIn, g.busyOut, g.inGuard], g.idleSet))

/-! ## Chapter 1 -/

theorem test_define_group : counts plant 40 = some ([4, 0, 0, 0, 0], [1000, 1001, 1002, 1003]) := by decide +kernel

theorem test_define_group_checks :
    [.defineGroup a { def40 with group := 256 }, .defineGroup a { def40 with carrier := 64 },
      .defineGroup a { def40 with ranges := [] }, .defineGroup a { def40 with ranges := [⟨16383, 2⟩] },
      .defineGroup a { def40 with ranges := [⟨5, 2⟩, ⟨6, 1⟩] }, .defineGroup a { def40 with ranges := [⟨2000, 1⟩] },
      .defineGroup a { def40 with hunt := .undefined }].map (fun c => statusOf c plant) =
      [some .outOfRange, some .outOfRange, some .badRequest, some .outOfRange, some .badRequest, some .circuitAssigned,
        some .badRequest] ∧
      statusOf (.defineGroup a def40) busy = some .groupBusy := by decide +kernel

/-- Section 1.10, events 1 and 3 as `busy` makes them. -/
theorem test_seizures : counts busy 40 = some ([1, 0, 1, 1, 1], [1003]) := by decide +kernel

theorem test_set_group_params :
    reply (.setGroupParams a 40 ⟨none, .absent, .absent, .absent, some 10001, none, none, none, none⟩) plant =
        some (.adjusted, .nothing) ∧
      statusOf (.setGroupParams a 43 ⟨none, .absent, .absent, .absent, none, none, none, none, none⟩) plant =
        some .wrongState := by decide +kernel

theorem test_delete_group :
    statusOf (.deleteGroup a 40) busy = some .groupBusy ∧ (after (.deleteGroup a 41) plant).circuit 2000 = none ∧
      (after (.deleteGroup a 41) plant).circuit 1000 = some ⟨40, false, false, .idle⟩ := by decide +kernel

/-- Section 1.10, events 6 and 7, on circuit 1,002. -/
theorem test_block_circuits :
    reply (.blockCircuits a 1002 1 (.given .localFlag)) busy = some (.ok, .flagsChanged 1 0) ∧
      counts (after (.blockCircuits a 1002 1 (.given .localFlag)) busy) 40 = some ([1, 0, 1, 1, 1], [1003]) := by
  decide +kernel

theorem test_guard_expiry_of_a_blocked_circuit :
    counts (expireGuard 1002 { after (.blockCircuits a 1002 1 (.given .localFlag)) busy with tariff := (upAt 10500).tariff })
      40 = some ([1, 1, 1, 1, 0], [1003]) := by decide +kernel

theorem test_unblock_circuits :
    reply (.unblockCircuits a 1001 2048 (.given .remoteFlag)) plant = some (.ok, .flagsChanged 0 2042) ∧
      statusOf (.unblockCircuits a 16384 1 (.given .remoteFlag)) plant = some .outOfRange := by decide +kernel

theorem test_plant_lock :
    statusOf (.defineGroup a def40) (after (.lockPlant a) plant) = some .plantLocked ∧
      (after (.unlockPlant a) (after (.lockPlant a) plant)).plant.locked = false := by decide +kernel

/-- R24: the listed values of group 40 of section 1.10, and no others. -/
theorem test_query_group :
    reply (.queryGroup a 255) plant = some (.ok, .groupUndefined) ∧
      reply (.queryGroup a 40) busy =
        some (.ok, .group
          ⟨12, .both, .winEven, [⟨1000, 4⟩], .firstUp, some 1000, 500, 1, 4, 5, false, 1, 0, 1, 1, 1, 1, .opened, 0,
            .inService, none⟩) := by decide +kernel

theorem test_query_circuit :
    reply (.queryCircuit a 1002) busy =
      some (.ok, .circuit ⟨.guard, false, false, some 40, none, some 500⟩) := by decide +kernel

/-- Section 1.10, event 4: 1,000 is even, its call is ROUTED, and this exchange wins. -/
theorem test_glare_won : statusOf (.offer ⟨a, .whole⟩ 1000 [4] (.given .normal)) busy = some .glare := by decide +kernel

theorem test_offer_on_a_busy_in_circuit : statusOf (.offer ⟨a, .whole⟩ 1001 [4] (.given .normal)) busy = some .circuitBusy := by
  decide +kernel

/-! ## Chapter 2 -/

/-- Section 2.7: R is 3 and H is 2. -/
theorem test_congestion_with_hysteresis :
    [nextCongestion .opened 10 3 2, nextCongestion .opened 4 3 2, nextCongestion .opened 3 3 2,
      nextCongestion .reserved 0 3 2, nextCongestion .full 1 3 2, nextCongestion .reserved 4 3 2,
      nextCongestion .reserved 5 3 2] = [.opened, .opened, .reserved, .full, .reserved, .reserved, .opened] := by decide

theorem test_report_far_congestion :
    reply (.reportFarCongestion a 40 9) plant = some (.adjusted, .farLevel 3) ∧
      ((after (.reportFarCongestion a 40 2) plant).svc 40).decayExpiry = some 15000 := by decide +kernel

theorem test_decay_expiry :
    (after (.decayExpiry 40) (plant.setSvc 40 ⟨.opened, 2, some 10000, .inService⟩)).svc 40 =
      ⟨.opened, 1, some 15000, .inService⟩ := by decide +kernel

/-- Section 2.8 at 0: port A's DRAIN_GROUP opens a batch whose window runs 2,000 ms. -/
theorem test_drain_group :
    reply (.drainGroup a 40 300) plant = some (.ok, .drainJoined .forming (some .pending) 300) ∧
      (after (.drainGroup a 40 300) plant).service.batch.windowExpiry = some 12000 := by decide +kernel

/-- A batch of group 40 PENDING and group 41 PROTECTED, as section 2.8 has it after 1,200. -/
def forming (s : State) : State :=
  (s.setBatch ⟨.forming, [⟨40, .pending⟩, ⟨41, .isProtected⟩], ⟨true, true, false, false⟩, 300, some 10000, none, none,
    false⟩).setSvc 40 { s.svc 40 with service := .draining }

/-- Section 2.8 at 2,000: the window closes, and the deadline runs 300 s. -/
theorem test_window_expiry :
    (after .windowExpiry (forming busy)).service.batch.state = .draining ∧
      (after .windowExpiry (forming busy)).service.batch.deadlineExpiry = some 310000 ∧
      (after .windowExpiry (forming plant)).service.batch = .empty ∧
      ((after .windowExpiry (forming plant)).svc 40).service = .outOfService := by decide +kernel

/-- The batch of section 2.8 while DRAINING, with the deadline at 302,000. -/
def draining (s : State) : State :=
  (s.setBatch ⟨.draining, [⟨40, .pending⟩, ⟨41, .isProtected⟩], ⟨true, true, false, false⟩, 300, none, some 302000, none,
    false⟩).setSvc 40 { s.svc 40 with service := .draining }

/-- Section 2.8 at 50,000 and 80,000. -/
theorem test_drain_suspend :
    reply (.drainSuspend a) (draining { busy with tariff := (upAt 50000).tariff }) =
      some (.ok, .drainSuspended .suspended (some 252000)) := by decide +kernel

theorem test_drain_resume :
    (after (.drainResume a)
        { after (.drainSuspend a) (draining { busy with tariff := (upAt 50000).tariff }) with
          tariff := (upAt 80000).tariff }).service.batch.deadlineExpiry = some 332000 := by decide +kernel

/-- Section 2.8, last paragraph: RETURN_GROUP of the last pending member completes the batch. -/
theorem test_return_group :
    reply (.returnGroup a 40) (draining busy) = some (.ok, .service .inService) ∧
      (after (.returnGroup a 40) (draining busy)).service.batch = .empty ∧
      ((after (.returnGroup a 40) (draining busy)).port .a).notices =
        [.drainDone [⟨40, .returned⟩, ⟨41, .isProtected⟩] 0] := by decide +kernel

theorem test_deadline_expiry :
    (after .deadlineExpiry { draining busy with tariff := (upAt 302000).tariff }).calls.releaseLists = [[40]] := by
  decide +kernel

theorem test_drain_contributor_loss :
    (after (.drainContributorLoss .b)
        { draining busy with service := { (draining busy).service with losses := [.b] } }).service.batch.contributors =
      ⟨true, false, false, false⟩ := by decide +kernel

theorem test_query_drain :
    ((reply (.queryDrain a) (draining busy)).map Prod.fst) = some .ok := by decide +kernel

/-! ## Chapter 3 -/

/-- The prefix table of section 3.8, with destination 310 of section 3.9. -/
def analyser : Analyser where
  prefixes := (((((Table.empty.set (prefixKey [0]) (some 5)).set (prefixKey [4, 4]) (some 120)).set (prefixKey [4, 4, 1])
    (some 121)).set (prefixKey [4, 4, 1, 7]) (some 122)).set (prefixKey [9]) (some 900))
  destinations := ((((Table.empty.set 5 ⟨3, false, true⟩).set 120 ⟨3, false, true⟩).set 121 ⟨50, false, true⟩).set 122
    ⟨3, true, true⟩).set 900 ⟨3, false, true⟩
  gaps := Table.empty.set 310 (some ⟨20, 60, some 70000, 12000, 0⟩)

/-- The plant with that analyser, at a time. -/
def numbers (t : Nat) : State := { plant with analyser := analyser, tariff := (upAt t).tariff }

/-- Section 3.8. -/
theorem test_longest_prefix :
    longestMatch (numbers 10000) [4, 4, 1, 2, 3, 4, 5] = some (3, 121) ∧
      findTarget (numbers 10000) [4, 4, 1, 7, 0, 0, 0] = .error .barred ∧
      longestMatch (numbers 10000) [4, 4, 1] = some (3, 121) ∧ longestMatch (numbers 10000) [4, 4] = some (2, 120) ∧
      findTarget (numbers 10000) [4, 5] = .error .noRoute ∧
      longestMatch (numbers 10000) [0, 2, 0, 7] = some (1, 5) := by decide +kernel

theorem test_add_prefix :
    reply (.addPrefix a [4, 4, 1] 2047) (numbers 10000) = some (.ok, .prefixAdded (some 121) 5) ∧
      statusOf (.addPrefix a [10] 1) (numbers 10000) = some .badRequest := by decide +kernel

theorem test_remove_prefix :
    reply (.removePrefix a [4, 4, 1]) (numbers 10000) = some (.ok, .prefixRemoved (some 121) 4) ∧
      longestMatch (after (.removePrefix a [4, 4, 1]) (numbers 10000)) [4, 4, 1, 2, 3, 4, 5] = some (2, 120) := by
  decide +kernel

theorem test_write_dest :
    reply (.writeDest a (some 122) (some 3) (some false) (some true)) (numbers 10000) =
      some (.ok, .destinationBefore ⟨3, true, true⟩) := by decide +kernel

/-- Section 3.9 at 10,000, 13,000 and 21,000. -/
theorem test_set_gap :
    reply (.setGap a 311 (some 20) (some 60)) (numbers 10000) = some (.ok, .gapSet true 20 60 2) ∧
      (after (.setGap a 310 (some 50) (some 0)) (numbers 13000)).gap 310 = some ⟨50, 0, none, 12000, 0⟩ := by
  decide +kernel

/-- Section 3.9 at 10,500, 11,950 and 12,000. -/
theorem test_gap_check :
    gapAdmits (numbers 10500) 310 .normal = false ∧ gapAdmits (numbers 11950) 310 .priority = true ∧
      gapAdmits (numbers 12000) 310 .normal = true ∧
      (afterGapCheck 310 .normal (numbers 12000)).gap 310 = some ⟨20, 60, some 70000, 14000, 0⟩ ∧
      (afterGapCheck 310 .normal (numbers 10500)).gap 310 = some ⟨20, 60, some 70000, 12000, 1⟩ := by decide +kernel

theorem test_clear_gap : reply (.clearGap a 310) (numbers 21000) = some (.ok, .gapCleared (some 0)) := by decide +kernel

theorem test_gap_life_expiry :
    (after (.gapLifeExpiry 310) (numbers 69999)).gap 310 ≠ none ∧
      (after (.gapLifeExpiry 310) (numbers 70000)).gap 310 = none := by decide +kernel

theorem test_query_gap :
    reply (.queryGap a (.one 310)) (numbers 10000) = some (.ok, .gap (some ⟨310, 20, 60, some 60000, 2000, 0⟩)) := by
  decide +kernel

/-! ## Chapters 4 and 5 -/

/-- A plan of PRIMARY group 41, POOL group 40 and FINAL group 42. -/
def steps50 : List PlanStep := [⟨41, .primary, 0⟩, ⟨40, .pool, 1⟩, ⟨42, .final, 1⟩]

theorem test_write_plan :
    reply (.writePlan a 50 [⟨some 41, .given .primary, some 0⟩, ⟨some 40, .given .pool, some 1⟩]) plant =
        some (.ok, .planWritten 0 2) ∧
      statusOf (.writePlan a 50 [⟨some 41, .given .pool, some 0⟩, ⟨some 40, .given .primary, some 1⟩]) plant =
        some .badPlan := by decide +kernel

theorem test_query_plan :
    reply (.queryPlan a 50) { plant with routes := ⟨Table.empty.set 50 [⟨41, .primary, 0⟩, ⟨9, .final, 1⟩], 3⟩ } =
      some (.ok, .plan [⟨⟨41, .primary, 0⟩, true⟩, ⟨⟨9, .final, 1⟩, false⟩] false) := by decide +kernel

theorem test_set_reattempt_limit :
    reply (.setReattemptLimit a (some 8)) plant = some (.adjusted, .limitChanged 3 7) := by decide +kernel

/-- Set 77 of section 5.5 with its way 1 valid after event 1. -/
def set77 : MemorySet :=
  ⟨[some ⟨1, 512, 1, 3⟩, some ⟨0, 300, 2, 2⟩, some ⟨2, 600, 2, 4⟩, some ⟨3, 601, 3, 1⟩], 0⟩

/-- The state of section 5.5: plan 300, destination 77, the carriers' rates in every band, set 77. -/
def memory (m : MemorySet) : State :=
  { (handleDefineGroup (groupDef 22 7 800 1 0 .both .winAll false)
      (handleDefineGroup (groupDef 21 6 700 1 0 .both .winAll false)
        (handleDefineGroup (groupDef 20 5 600 1 0 .both .winAll false) (upAt 10000)).state).state).state with
    analyser := ⟨.empty, (Table.empty.set 77 ⟨300, false, true⟩).set 1101 ⟨300, false, true⟩, .empty⟩
    routes := ⟨Table.empty.set 300 [⟨10, .primary, 0⟩, ⟨20, .pool, 1⟩, ⟨21, .pool, 1⟩, ⟨22, .pool, 2⟩, ⟨30, .final, 3⟩], 3⟩
    memory := ⟨Table.empty.set 77 m⟩
    tariff :=
      { (upAt 10000).tariff with
        live :=
          ⟨0, 0,
            { Tariffs.initial with
              entries :=
                ((Table.empty.set (entryKey 5 1) { TariffEntry.initial with rate0 := 9000 }).set (entryKey 6 1)
                  { TariffEntry.initial with rate0 := 7500 }).set (entryKey 7 2)
                  { TariffEntry.initial with rate0 := 7500 } }⟩ } }

/-- Section 5.5, event 1. -/
theorem test_allocation_takes_the_lowest_invalid_way :
    lookup (memory ⟨[some ⟨1, 512, 1, 3⟩, none, some ⟨2, 600, 2, 4⟩, some ⟨3, 601, 3, 1⟩], 0⟩) 77 300 = .allocated 2 ∧
      (afterLookup 77 300
        (memory ⟨[some ⟨1, 512, 1, 3⟩, none, some ⟨2, 600, 2, 4⟩, some ⟨3, 601, 3, 1⟩], 0⟩)).memorySet 77 = set77 := by
  decide +kernel

/-- Section 5.5, events 2 to 4, 6 and 7. -/
theorem test_outcomes :
    (failureOutcome 77 300 2 (memory set77)).memorySet 77 = ⟨set77.ways.set 1 (some ⟨0, 300, 2, 1⟩), 0⟩ ∧
      (failureOutcome 77 300 2 (memory ⟨set77.ways.set 1 (some ⟨0, 300, 2, 0⟩), 0⟩)).memorySet 77 =
        ⟨set77.ways.set 1 (some ⟨0, 300, 3, 2⟩), 0⟩ ∧
      (successOutcome 77 300 2 (memory ⟨set77.ways.set 1 (some ⟨0, 300, 3, 3⟩), 0⟩)).memorySet 77 =
        ⟨set77.ways.set 1 (some ⟨0, 300, 3, 3⟩), 0⟩ := by decide +kernel

/-- Section 5.5, event 8: a full set gives up the way at the pointer. -/
theorem test_eviction :
    ((afterLookup 1101 300 (memory set77)).memorySet 77) = ⟨set77.ways.set 0 (some ⟨4, 300, 2, 2⟩), 1⟩ := by
  decide +kernel

theorem test_flush : reply (.flushRouteMemory a) (memory set77) = some (.ok, .flushed 4) := by decide +kernel

theorem test_query_route_memory :
    reply (.queryRouteMemory a (some 77) none) (memory set77) =
      some (.ok, .memoryEntry 77 0 (some ⟨1, 300, 2, some 21, 2⟩)) := by decide +kernel

/-! ## Chapter 6 -/

/-- A record of a call of port A: in on circuit 1,001 of group 40, out on circuit 1,000 as BUSY_OUT 17/3 is. -/
def call : Call :=
  { state := .routed, owner := some .a, inCircuit := 2000, inGroup := 41, inCarrier := 5,
    leg := some ⟨1000, 40, 12, true, false⟩, destination := 77, plan := 50, cls := .normal, stepIndex := 1,
    stepKind := .pool, tariffClass := 1, poolTried := true, memoryFlag := true, reattempts := 0,
    reselectionPending := false, answer := none, former := none, orphanDeadline := none, lastCause := none }

/-- Destination 77, reached by the digit 4, names plan 50: PRIMARY group 41, POOL group 40, FINAL group 42. -/
def routes (s : State) : State :=
  { s with
    analyser := ⟨Table.empty.set (prefixKey [4]) (some 77), Table.empty.set 77 ⟨50, false, true⟩, .empty⟩
    routes := ⟨Table.empty.set 50 steps50, 3⟩
    service :=
      { s.service with
        planSets := ((Table.empty.set 40 [50]).set 41 [50]).set 42 [50] } }

/-- The busy plant with the routes and the call 17/3 as a record. -/
def withCall (c : Call) : State := (routes busy).setSlot 17 ⟨3, some c⟩

/-- An ANSWERED call, bound to the live generation 0 at 9,100 ms, the week clock UNSET. -/
def answered : Call := { call with state := .answered, answer := some ⟨9100, none, 0⟩ }

/-- The state with an ANSWERED call, which the live generation's count includes. -/
def withAnswered : State :=
  { withCall answered with
    tariff := { (withCall answered).tariff with live := ⟨0, 1, (withCall answered).tariff.live.tariffs⟩ } }

/-- An orphan of port B since 9,000, with the deadline of section 6.9. -/
def orphaned : Call := { answered with owner := none, former := some ⟨.b, 9000⟩, orphanDeadline := some 129000 }

/-- The state with that orphan, at a time. -/
def withOrphan (t : Nat) : State :=
  { withCall orphaned with
    calls := { (withCall orphaned).calls with orphans := [17] }
    tariff := { (withCall orphaned).tariff with monotonic := t, live := ⟨0, 1, .initial⟩ } }

/-- The call of an OFFER of circuit 1,003 up to the end of its walk. -/
def walked : State := after (.offer ⟨a, .walk⟩ 1003 [4] (.given .normal)) (withCall call)

/-- The end of that OFFER. -/
def kept (s : State) : State := after (.offer ⟨a, .keep⟩ 1003 [4] (.given .normal)) s

/-- Sections 4.7 and 6.2: a NORMAL call in on group 40 of the free slot 0 takes the PRIMARY step 0. -/
theorem test_offer :
    reply (.offer ⟨a, .whole⟩ 1003 [4] (.given .normal)) (withCall call) = some (.ok, .offered ⟨0, 0⟩ 2000 41) ∧
      (after (.offer ⟨a, .whole⟩ 1003 [4] (.given .normal)) (withCall call)).circuit 1003 =
        some ⟨40, false, false, .busyIn ⟨0, 0⟩⟩ := by decide +kernel

/-- R103, R110: the walk holds slot 0 and answers nothing; its end keeps the record there and answers. -/
theorem test_offer_in_parts :
    (walked.call ⟨0, 0⟩ = none ∧ lastOf walked = lastOf (withCall call) ∧ lowestFreeSlot walked = some 1) ∧
      ((kept walked).call ⟨0, 0⟩).map (·.owner) = some (some .a) ∧
      lastOf (kept walked) = some (.ok, .offered ⟨0, 0⟩ 2000 41) := by decide +kernel

/-- Section 6.9 at 40: under WIN_EVEN, 1,001 odd; with a ROUTED call BUSY_OUT there the offer displaces it. -/
theorem test_offer_yields :
    (after (.offer ⟨a, .whole⟩ 1001 [4] (.given .normal))
        (withCall call |> changeCircuit 1001 (fun e => { e with occupancy := .busyOut ⟨17, 3⟩ }))).calls.reselections =
      [⟨17, 3⟩] := by decide +kernel

theorem test_accepted :
    ((after (.accepted a ⟨17, 3⟩) (withCall call)).call ⟨17, 3⟩).map (·.state) = some .proceeding ∧
      statusOf (.accepted a ⟨17, 4⟩) (withCall call) = some .noCall := by decide +kernel

theorem test_answer :
    reply (.answer a ⟨17, 3⟩) (withCall call) = some (.ok, .answered 10000 0) ∧
      (after (.answer a ⟨17, 3⟩) (withCall call)).tariff.live.references = 1 := by decide +kernel

/-- Section 4.8: the leg on 1,000 goes to GUARD, the count rises to 1, and the walk goes on from step 2. -/
theorem test_reattempt :
    reply (.reattempt a ⟨17, 3⟩ (.given .farRefused) none) (withCall call) = some (.ok, .rerouted 3000 42 2 1) ∧
      (after (.reattempt a ⟨17, 3⟩ (.given .farRefused) none) (withCall call)).circuit 1000 =
        some ⟨40, false, false, .guard 10500⟩ := by decide +kernel

/-- Section 4.8, last paragraphs: above the limit the call goes UNROUTED, REATTEMPTS_EXHAUSTED. -/
theorem test_reattempts_exhausted :
    reply (.reattempt a ⟨17, 3⟩ (.given .circuitFault) none) (withCall { call with reattempts := 3 }) =
        some (.ok, .unrouted (some .reattemptsExhausted) 4) ∧
      (after (.reattempt a ⟨17, 3⟩ (.given .circuitFault) none) (withCall { call with reattempts := 3 })).circuit 1000 =
        some ⟨40, true, false, .idle⟩ := by decide +kernel

/-- Section 6.9 at 70,000: an ANSWERED call is priced and its slot's generation steps. -/
theorem test_release :
    reply (.release a ⟨17, 3⟩ (.given .normal)) withAnswered = some (.ok, .released .answered (some 10000)) ∧
      (after (.release a ⟨17, 3⟩ (.given .normal)) withAnswered).slot 17 = ⟨4, none⟩ ∧
      (after (.release a ⟨17, 3⟩ (.given .normal)) withAnswered).settlement.handed.map (·.duration) = [900] ∧
      (after (.release a ⟨17, 3⟩ (.given .normal)) withAnswered).tariff.live.references = 0 := by decide +kernel

/-- Section 6.9 at 60,000. -/
theorem test_adopt :
    reply (.adopt a (.given .b)) (withOrphan 60000) = some (.ok, .adopted [⟨17, 3⟩]) ∧
      ((after (.adopt a (.given .b)) (withOrphan 60000)).call ⟨17, 3⟩).map (·.owner) = some (some .a) := by
  decide +kernel

theorem test_query_call :
    (reply (.queryCall a ⟨17, 3⟩) (withOrphan 60000)).map (fun x => ((x.2.body.getD []).length, (x.2.body.getD []).take 4)) =
      some (60, [0#8, 17#8, 3#8, 3#8]) ∧
      statusOf (.queryCall a ⟨8192, 0⟩) plant = some .outOfRange := by decide +kernel

theorem test_clear_traffic :
    reply (.clearTraffic a) (withOrphan 60000) = some (.ok, .cleared 1 1 1) ∧
      counts (after (.clearTraffic a) (withOrphan 60000)) 40 = some ([4, 0, 0, 0, 0], [1000, 1001, 1002, 1003]) := by
  decide +kernel

/-- R127: CLEAR_TRAFFIC waits behind an OFFER in progress of another port. -/
theorem test_clear_traffic_waits :
    ((after (.clearTraffic ⟨.b, 9⟩) walked).port .b).requests = [⟨9, 103, .command (.clearTraffic ⟨.b, 9⟩)⟩] ∧
      ((after (.clearTraffic ⟨.b, 9⟩) walked).call ⟨17, 3⟩).isSome = true := by decide +kernel

/-- R124: the loss time 9,000 and a limit of 60 s draw the deadline in to 69,000; a limit of 51 s makes it due at once. -/
theorem test_set_orphan_limit :
    reply (.setOrphanLimit a (some 60)) (withOrphan 60000) = some (.ok, .orphanLimit 120 60 1 0) ∧
      reply (.setOrphanLimit a (some 51)) (withOrphan 60000) = some (.ok, .orphanLimit 120 51 1 1) := by decide +kernel

/-- Section 6.9, third variation. -/
theorem test_orphan_expiry :
    (after .orphanExpiry (withOrphan 129005)).settlement.handed.map (fun x => (x.duration, x.cause, x.flags.forced)) =
        [(119900, .orphanExpired, true)] ∧
      (after .orphanExpiry (withOrphan 128999)).calls.orphans = [17] := by decide +kernel

/-- Section 6.9 at 40, the reselection; and its second variation, with the reattempt limit 0. -/
theorem test_glare_reselection :
    ((after (.glareReselection ⟨17, 3⟩)
        { withCall { call with leg := none, reselectionPending := true } with
          calls :=
            { (withCall { call with leg := none, reselectionPending := true }).calls with
              reselections := [⟨17, 3⟩] } }).port .a).notices = [.routeChanged ⟨17, 3⟩ 3000 42 2 1] := by decide +kernel

/-- The state after the walk with port A lost, its partner as given. -/
def lost (partner : Option Port) : State :=
  portDown .a .linkLoss none { walked with ports := ⟨{ portUp with partner := partner }, portUp, .initial, .initial⟩ }

/-- Section 6.6: the calls with a leg on a group of the list end. -/
theorem test_drain_release_list :
    (after .drainReleaseList
        { withCall call with calls := { (withCall call).calls with releaseLists := [[40]] } }).slot 17 = ⟨4, none⟩ := by
  decide +kernel

/-- The loss of port A, whose partner B is UP or not, handed to the call table. -/
def lossOf (s : State) (partner : Option Port) : State :=
  { s with calls := { s.calls with losses := [⟨.a, partner, none⟩] } }

/-- R120: a drain release list that names the inbound group notes the OFFER in progress, whose call ends as it is kept. -/
theorem test_offer_noted :
    (kept (after .drainReleaseList { walked with calls := { walked.calls with releaseLists := [[40]] } })).slot 0 =
        ⟨1, none⟩ ∧
      ((kept (after .drainReleaseList { walked with calls := { walked.calls with releaseLists := [[40]] } })).port
        .a).notices.contains (.callCleared ⟨0, 0⟩ .drained .released) = true := by decide +kernel

/-- R110: the requesting port is lost between the walk and its end: the partner takes the call over, or the call ends. -/
theorem test_offer_port_lost :
    (((kept (after (.callTablePortLoss .a) (lost (some .b)))).call ⟨0, 0⟩).map (·.owner) = some (some .b)) ∧
      ((kept (after (.callTablePortLoss .a) (lost (some .b)))).port .b).notices.contains (.takeover .a 1) = true ∧
      (kept (after (.callTablePortLoss .a) (lost none))).slot 0 = ⟨1, none⟩ ∧
      (((kept (lost none)).call ⟨0, 0⟩).map (·.owner) = some (some .a)) := by decide +kernel

/-- Section 6.9 at 5,000 and 9,000. -/
theorem test_call_table_port_loss :
    ((after (.callTablePortLoss .a) (lossOf (withCall call) (some .b))).port .b).notices = [.takeover .a 1] ∧
      (after (.callTablePortLoss .a) (lossOf (withCall call) none)).slot 17 = ⟨4, none⟩ ∧
      ((after (.callTablePortLoss .a) (lossOf withAnswered none)).call ⟨17, 3⟩).map (·.orphanDeadline) =
        some (some 130000) := by decide +kernel

/-! ## Chapter 7 -/

/-- Section 7.8: generation 41 live with count 3, 40 retired with count 1, the week clock at a value. -/
def clocked (w : Nat) (st : Staging) : State :=
  { plant with
    tariff := { (upAt 10000).tariff with
      weekTime := some w, live := ⟨41, 3, .initial⟩, retired := some ⟨40, 1, .initial⟩, staging := st } }

/-- The staging record of section 7.8, OPEN with generation 42 held by port A. -/
def staged : Staging := ⟨.opened, some .a, some ⟨42, .initial⟩, none, none⟩

/-- The same SCHEDULED at 237,600,000, with the advance left. -/
def scheduled (advance : Nat) : Staging := ⟨.scheduled, some .a, some ⟨42, .initial⟩, some 237600000, some advance⟩

theorem test_tick :
    (after .tick (clocked 604799999 (scheduled 5))).tariff.weekTime = some 0 ∧
      (after .tick (clocked 604799999 (scheduled 5))).now = 10001 ∧
      (after .tick (clocked 604799999 (scheduled 5))).tariff.staging.advance = some 4 := by decide +kernel

/-- Section 7.8: the jump that crosses 18:00 makes the activation due, and the one back to 17:30 sets the advance anew. -/
theorem test_set_clock :
    (after (.setClock a (some 2) (some 65100000)) (clocked 236500000 (scheduled 1100000))).tariff.staging.state = .held ∧
      (after (.setClock a (some 2) (some 63000000)) (clocked 236500000 (scheduled 1100000))).tariff.staging.advance =
        some 1800000 ∧
      statusOf (.setClock a (some 7) (some 0)) plant = some .outOfRange := by decide +kernel

theorem test_stage_open :
    reply (.stageOpen a) (clocked 236410000 .empty) = some (.ok, .staged 42 41) ∧
      reply (.stageOpen a) (clocked 236410000 staged) = some (.stageBusy, .stageBusy .opened (some .a)) := by
  decide +kernel

/-- Section 7.8, the first write and the late one. -/
theorem test_stage_write_tariff :
    reply (.stageWriteTariff a 12 1 ⟨none, none, some 11000, none, none, none, none, none, some 1200, none⟩)
        (clocked 236420000 staged) =
        some (.adjusted, .tariffEntry { TariffEntry.initial with rate1 := 11000, congestionPremium := 1000 }) ∧
      statusOf (.stageWriteTariff a 12 1 ⟨none, none, some 11000, none, none, none, none, none, none, none⟩)
        (clocked 236470000 (scheduled 1130000)) = some .activationPending := by decide +kernel

/-- Section 7.8, the write of a port that is not the holder. -/
theorem test_stage_write_margin :
    reply (.stageWriteMargin a 7 (some 140)) (clocked 0 staged) = some (.ok, .margin 140) ∧
      statusOf (.stageWriteMargin a 7 (some 140)) (clocked 0 { staged with holder := some .b }) =
        some .notStageHolder := by decide +kernel

theorem test_stage_write_schedule :
    (reply (.stageWriteSchedule a (.given .restday) 47 [.given .band3]) (clocked 0 staged)).map Prod.fst = some .ok ∧
      statusOf (.stageWriteSchedule a (.given .restday) 47 [.given .band3, .given .band3]) (clocked 0 staged) =
        some .outOfRange := by decide +kernel

theorem test_stage_write_week :
    reply (.stageWriteWeek a [(6, .given .restday)]) (clocked 0 staged) =
        some (.ok, .weekMap [.workday, .workday, .workday, .workday, .workday, .workday, .restday]) ∧
      statusOf (.stageWriteWeek a [(7, .given .restday)]) (clocked 0 staged) = some .outOfRange := by decide +kernel

theorem test_stage_activate :
    reply (.stageActivate a (some (.at 237600000))) (clocked 236460000 staged) =
        some (.ok, .scheduledActivation 1140000) ∧
      reply (.stageActivate a (some .now)) (clocked 236460000 staged) = some (.ok, .heldActivation 40 1) := by
  decide +kernel

/-- Section 7.8, the RELEASE of 880/2: within the same item the held activation takes place. -/
theorem test_held_activation :
    (lower 40 (clocked 237960000 { staged with state := .held, holder := none })).tariff.live = ⟨42, 0, .initial⟩ ∧
      (lower 40 (clocked 237960000 { staged with state := .held, holder := none })).tariff.retired =
        some ⟨41, 3, .initial⟩ := by decide +kernel

theorem test_activation_due :
    (after .activationDue (clocked 0 (scheduled 0))).tariff.staging.state = .held ∧
      (after .activationDue (clocked 0 (scheduled 1))).tariff.staging.state = .scheduled := by decide +kernel

theorem test_stage_abort : reply (.stageAbort a) (clocked 0 staged) = some (.ok, .aborted .opened (some 42)) := by
  decide +kernel

/-- Section 7.8 at 237,910,000: the holder of a held activation becomes NONE. -/
theorem test_tariff_holder_loss :
    (after (.tariffHolderLoss .a)
        { clocked 0 { staged with state := .held } with
          tariff := { (clocked 0 { staged with state := .held }).tariff with losses := [.a] } }).tariff.staging =
      { staged with state := .held, holder := none } := by decide +kernel

theorem test_query_tariff :
    reply (.queryTariff a (.given .retired) (.given (.margin 63))) (clocked 0 staged) = some (.ok, .margin 0) ∧
      statusOf (.queryTariff a (.given .retired) (.given .weekMap)) plant = some .wrongState := by decide +kernel

/-! ## Chapter 8 -/

/-- Section 8.7: F is 60 s and N is 6 s. -/
theorem test_billed_seconds :
    [0, 1, 60000, 60001, 66000, 66001, 86400000].map (fun d => billedSeconds (conversationSeconds d) 60 6) =
      [60, 60, 60, 66, 66, 72, 86400] := by decide +kernel

/-- The generation of section 8.8, with margin 125 for carrier 7. -/
def tariffs88 : Tariffs :=
  { Tariffs.initial with
    entries :=
      Table.empty.set (entryKey 12 1) ⟨1500, 24000, 12000, 6000, 3000, 60, 6, 150, 80, 2000000⟩
    margins := Table.empty.set 7 125
    workday := Table.empty.set 36 .band1 }

/-- The release of section 8.8. -/
def release88 : PricedRelease :=
  { call := ⟨402, 6⟩, inCarrier := 7, outCarrier := 12, inGroup := 10, outGroup := 40, generation := 0,
    tariffClass := 1, stepKind := .pool, answered := 4512000, answerWeekTime := some 237510000, released := 4699400,
    altPremium := true, congPremium := true, cause := .normal, forced := false }

/-- Section 8.8, with its variation of a call answered while the clock was UNSET (base 78,300). -/
theorem test_price_across_a_band_boundary :
    ((price tariffs88 release88).billed, (price tariffs88 release88).seconds0, (price tariffs88 release88).seconds1,
        (price tariffs88 release88).payable, (price tariffs88 release88).receivable) = (192, 90, 102, 71217, 80119) ∧
      baseCharge (tariffs88.entry 12 1) (bandSplit tariffs88 none 187400 192) = 78300 := by decide +kernel

/-- The generation of section 8.9. -/
def tariffs89 : Tariffs :=
  { Tariffs.initial with
    entries := Table.empty.set (entryKey 9 3) ⟨0, 0, 0, 6000, 3000, 30, 30, 0, 0, 80000⟩
    workday := Table.empty.set 0 .band2
    restday := Table.empty.set 47 .band3
    weekMap := Table.empty.set 6 .restday }

/-- Section 8.9. -/
theorem test_price_across_the_week_wrap :
    ((fun x => (x.billed, x.seconds3, x.seconds2, x.payable, x.receivable, x.flags.capped))
      (price tariffs89
        { release88 with
          inCarrier := 0, outCarrier := 9, tariffClass := 3, answerWeekTime := some 603600000, released := 6012250,
          altPremium := false, congPremium := false })) = (1530, 1200, 330, 80000, 0, true) := by decide +kernel

/-! ## Chapter 9 -/

/-- The first result of section 9.7. -/
def result1 : PricedResult := price tariffs88 release88

/-- The ledger of section 9.7 at its start, with one result handed and a queue of `n` records. -/
def ledger (n : Nat) : State :=
  { plant with
    settlement :=
      { pairs := Table.empty.set (pairKey 7 12) ⟨10000000, 11250000, 140, 25000, 0, 0, 0, false⟩
        carriers := Table.empty.set 7 ⟨11800000, 11900000, false⟩
        queue := List.replicate n ⟨5, result1⟩
        backlog := decide (3072 ≤ n)
        period := 5
        closed := none
        handed := [result1] }
    ports := ⟨{ portUp with fetchBlock := some 64 }, portUp, .initial, .initial⟩ }

/-- Section 9.7, event 1. -/
theorem test_accumulation :
    (after .accumulation (ledger 4095)).pair (pairKey 7 12) = ⟨10071217, 11330119, 141, 25192, 0, 0, 0, false⟩ ∧
      (after .accumulation (ledger 4095)).carrier 7 = ⟨11880119, 11900000, false⟩ ∧
      (after .accumulation (ledger 4095)).settlement.queue.length = 4096 := by decide +kernel

/-- Section 9.7, event 2: a full queue keeps no record. -/
theorem test_accumulation_full :
    (after .accumulation (ledger 4096)).pair (pairKey 7 12) =
        ⟨10071217, 11330119, 141, 25192, 71217, 80119, 1, false⟩ ∧
      (after .accumulation (ledger 4096)).settlement.queue.length = 4096 := by decide +kernel

/-- R164: the flag is set when a field reaches its limit exactly, and not before. -/
theorem test_saturation_at_the_limit :
    reachesLimit (Config.fieldMax - 5) 5 = true ∧ reachesLimit (Config.fieldMax - 5) 4 = false := by decide

/-- Section 9.7, event 3. -/
theorem test_fetch_records :
    (after (.fetchRecords a) (ledger 4096)).settlement.queue.length = 4032 ∧
      (after (.fetchRecords a) (ledger 4096)).settlement.backlog = true ∧
      statusOf (.fetchRecords a) plant = some .noFetchBlock := by decide +kernel

theorem test_set_fetch_block :
    reply (.setFetchBlock a (some 0)) plant = some (.ok, .fetchBlock 64) ∧
      reply (.setFetchBlock a (some 65)) plant = some (.adjusted, .fetchBlock 64) := by decide +kernel

/-- Section 9.7, event 4, and a limit at the total. -/
theorem test_set_exposure_limit :
    reply (.setExposureLimit a 7 (some 12000000)) (ledger 0) = some (.ok, .exposure 11900000 12000000 11800000 false) ∧
      reply (.setExposureLimit a 7 (some 11800000)) (ledger 0) =
        some (.ok, .exposure 11900000 11800000 11800000 true) := by decide +kernel

/-- Section 9.7, events 5, 7 and 8. -/
theorem test_close_period :
    reply (.closePeriod a) (ledger 1) = some (.ok, .closed 5 6) ∧
      (after (.closePeriod a) (ledger 1)).pair (pairKey 7 12) = .zero ∧
      statusOf (.closePeriod a) (after (.closePeriod a) (ledger 1)) = some .closedBankFull := by decide +kernel

theorem test_release_closed :
    reply (.releaseClosed a (some 4)) (after (.closePeriod a) (ledger 1)) = some (.wrongState, .closedPeriodIs 5) ∧
      reply (.releaseClosed a (some 5)) (after (.closePeriod a) (ledger 1)) = some (.ok, .periodReleased 5) := by
  decide +kernel

theorem test_read_closed :
    reply (.readClosed a (.given (.pairs 460 1))) (after (.closePeriod a) (ledger 1)) =
      some (.ok, .closedPairs 5 [(7, 12, ⟨10000000, 11250000, 140, 25000, 0, 0, 0, false⟩)]) ∧
      (reply (.readClosed a (.given (.pairs 4095 2))) (after (.closePeriod a) (ledger 1))).map Prod.fst =
        some .adjusted := by decide +kernel

theorem test_query_pair :
    (reply (.queryPair a 7 12) (ledger 1)).map Prod.fst = some .ok ∧
      statusOf (.queryPair a 64 0) (ledger 1) = some .outOfRange := by decide +kernel

/-! ## Chapter 10 -/

theorem test_attach :
    reply (.attach a (.given .b)) plant = some (.ok, .partnerChanged none (some .b)) ∧
      reply (.attach a (.given .b)) { plant with ports := .all .initial } = some (.ok, .attached .a (some .b)) ∧
      statusOf (.attach a (.given .a)) plant = some .badRequest := by decide +kernel

theorem test_detach :
    ((after (.detach a) plant).port .a).state = .detaching ∧
      ((after (.detach a) plant).port .b).notices = [.portState .a .detaching .detach] := by decide +kernel

/-- Section 10.10, event 1: port A has GROUP_CONGESTION on and group 40 stands at level 1. -/
def alarmed (r : AlarmRecord) (level : Nat) : State :=
  { plant with
    levels := Table.empty.set 40 level
    ports :=
      ⟨{ portUp with mask := ⟨true, false, false, false⟩, alarms := Table.empty.set 40 r }, portUp, .initial, .initial⟩ }

/-- Section 10.10, events 4 and 7. -/
theorem test_ack_alarm :
    reply (.ackAlarm a (.given .groupCongestion) (some 40)) (alarmed ⟨1, true⟩ 1) = some (.ok, .acknowledged 1 0) ∧
      reply (.ackAlarm a (.given .groupCongestion) (some 40)) (alarmed ⟨1, true⟩ 2) = some (.ok, .acknowledged 1 1) := by
  decide +kernel

/-- Section 10.10, event 9. -/
theorem test_subscribe :
    ((after (.subscribe a (.given .groupCongestion) (some true)) (alarmed ⟨2, false⟩ 0)).port .a).notices =
      [.alarm ⟨.groupCongestion, 40⟩ 0] := by decide +kernel

theorem test_sync :
    reply (.sync a) plant = some (.ok, .synced 0 0) ∧
      ((after (.sync a) (alarmed ⟨0, true⟩ 0)).port .a).held = [] := by decide +kernel

theorem test_identify : (reply (.identify a) plant).map Prod.fst = some .ok := by rfl

theorem test_unknown_request : reply (.unknownRequest a 255) plant = some (.badRequest, .nothing) := by decide +kernel

/-- R185: a frame's request joins the queue of an UP port; a full queue answers QUEUE_FULL at once. -/
theorem test_frame_received :
    ((after (.frameReceived .a (encodeFrame 1 7 37 0 [])) plant).port .a).requests = [⟨7, 37, .bytes []⟩] ∧
      ((after (.frameReceived .c (encodeFrame 1 7 37 0 [])) plant).port .c).answers =
        [⟨37, 7, .notAttached, .nothing⟩] := by decide +kernel

/-- R196, R197: an ACK_ALARM frame of 2 body bytes can only be a bad request, one of 3 spells its class and source. -/
theorem test_frame_body :
    statusOf (.unknownRequest a 147) (after (.frameReceived .a (encodeFrame 1 7 147 0 [0, 0])) plant) =
        some .badRequest ∧
      lastOf (after (.ackAlarm a (.given .groupCongestion) (some 40))
        (after (.frameReceived .a (encodeFrame 1 7 147 0 [0, 0])) plant)) = none ∧
      standsFor ⟨7, 147, .bytes [2, 0, 40]⟩ (.ackAlarm a (.given .carrierHold) (some 40)) a 147 = true ∧
      standsFor ⟨7, 147, .bytes [2, 255, 255]⟩ (.ackAlarm a (.given .carrierHold) none) a 147 = true ∧
      standsFor ⟨7, 147, .bytes [2, 0, 41]⟩ (.ackAlarm a (.given .carrierHold) (some 40)) a 147 = false := by
  decide +kernel

/-- R196: a WRITE_DEST of one byte, and a SET_EXPOSURE_LIMIT of one, are too short for their values. -/
theorem test_short_bodies :
    standsFor ⟨7, 50, .bytes [1]⟩ (.writeDest a (some 1) (some 1) (some true) (some true)) a 50 = false ∧
      standsFor ⟨7, 130, .bytes [1]⟩ (.setExposureLimit a 1 (some 9)) a 130 = false ∧
      standsFor ⟨7, 130, .bytes [1]⟩ (.unknownRequest a 130) a 130 = true := by decide +kernel

/-- R184, R186: the ATTACH of a lost port waits for the response of its OFFER in progress. -/
theorem test_attach_waits :
    ((after (.attach ⟨.a, 9⟩ .absent) (lost none)).port .a).state = .down ∧
      ((after (.attach ⟨.a, 9⟩ .absent) (lost none)).port .a).requests.length = 1 ∧
      ((after (.attach ⟨.a, 9⟩ .absent) (kept (after (.attach ⟨.a, 9⟩ .absent) (lost none)))).port .a).state = .up := by
  decide +kernel

/-- R181: 20 ms of silence. -/
theorem test_link_loss :
    ((after (.linkLoss .a) { plant with ports := ⟨{ portUp with silence := 20 }, portUp, .initial, .initial⟩ }).port .a).state =
        .down ∧
      ((after (.linkLoss .a) { plant with ports := ⟨{ portUp with silence := 19 }, portUp, .initial, .initial⟩ }).port
        .a).state = .up := by decide +kernel

theorem test_detach_complete :
    ((after (.detachComplete .a) (after (.detach a) plant)).port .a).state = .down ∧
      (after (.detachComplete .a) (after (.detach a) plant)).calls.losses = [⟨.a, none, some 7⟩] := by decide +kernel

/-- Section 10.10, the full notice queue. -/
theorem test_notice_sent :
    ((after (.noticeSent .b)
        { plant with
          ports := ⟨portUp, { portUp with notices := List.replicate 64 (.takeover .a 0), drops := 2 }, .initial, .initial⟩
          }).port .b).notices.getLast? = some (.noticeOverflow 2) := by decide +kernel

theorem test_response_sent :
    ((after (.responseSent .a) (after (.queryDrain a) plant)).port .a).outbox = [] := by decide +kernel

/-- R195: the line is held from its assertion until its release, which is device reset. -/
theorem test_reset_n :
    after .resetN (after .resetN (withOrphan 1)) = State.reset ∧
      after .resetN (withOrphan 1) = { withOrphan 1 with resetLine := true } := by decide +kernel

/-- R195: while the line is held no frame is judged and nothing is sent. -/
theorem test_reset_held :
    (after (.frameReceived .a (encodeFrame 1 7 37 0 [])) (after .resetN plant)).port .a =
        (after .resetN plant).port .a ∧
      ((after (.noticeSent .a) (after .resetN (after (.detach ⟨.b, 1⟩) plant))).port .a).notices =
        [.portState .b .detaching .detach] := by decide +kernel

theorem test_power_on : after .powerOn (withOrphan 1) = State.reset := by decide +kernel

/-- A step runs the command at the front. -/
theorem test_step :
    step { plant with pending := [.tick, .lockPlant a] } =
      .next { after .tick plant with pending := [.lockPlant a] } := rfl

/-! ## Witnesses: what the hypotheses of each statement are met by -/

/-- Port A is UP and takes a request that arrives. -/
def ready (s : State) : Bool :=
  (s.port .a).state == .up && (s.port .a).requests.isEmpty && (s.port .a).inProgress.isNone && s.calls.losses.isEmpty &&
    s.calls.offers.isEmpty && !s.resetLine

theorem takes {s : State} (h : ready s = true) {c : Instr} {code : Nat} (hr : requestOf c = some (a, code)) :
    Takes c s s := by
  simp only [ready, Bool.and_eq_true, beq_iff_eq, List.isEmpty_iff, Option.isNone_iff_eq_none, Bool.not_eq_true'] at h
  obtain ⟨⟨⟨⟨⟨h1, h2⟩, h3⟩, h4⟩, h5⟩, h6⟩ := h
  have e : a.port = .a := rfl
  unfold Takes
  rw [hr]
  simp [taken, Machine.ready, takesCode, occupied, mustWait, e, h1, h2, h3, h4, h5, h6]

/-- What holds of a table's default and of its listed records holds of every record. -/
theorem table_all {α : Type} {d : α} (t : Table α d) (P : Nat → α → Prop) (hd : ∀ k, P k d)
    (hl : ∀ e ∈ t.entries, P e.1 e.2) (k : Nat) : P k (t.get k) := by
  by_cases h : t.get k = d
  · rw [h]; exact hd k
  · exact hl _ (mem_of_lookupIn t.entries k h)

theorem circuits_all {s : State} (p : Nat → Equipped → Bool)
    (h : s.plant.circuits.entries.all (fun e => e.2.all (p e.1)) = true) (c : Nat) (e : Equipped)
    (he : s.circuit c = some e) : p c e = true := by
  have := table_all s.plant.circuits (fun k v => v.all (p k) = true) (fun _ => rfl)
    (fun e he => List.all_eq_true.mp h e he) c
  simp only [State.circuit] at he
  rw [he] at this
  simpa using this

theorem calls_all {s : State} (p : Nat → Call → Bool)
    (h : s.calls.slots.entries.all (fun e => e.2.call.all (p e.1)) = true) (k : Nat) (c : Call)
    (hc : (s.slot k).call = some c) : p k c = true := by
  have := table_all s.calls.slots (fun k v => v.call.all (p k) = true) (fun _ => rfl)
    (fun e he => List.all_eq_true.mp h e he) k
  simp only [State.slot] at hc
  rw [hc] at this
  simpa using this

/-! ### Sound states -/

theorem upAt_sound (t : Nat) : PlantSound (upAt t) :=
  ⟨rfl, fun _ _ h => (nomatch (show (none : Option Equipped) = some _ from h)),
    fun _ _ h => (nomatch (show (none : Option Group) = some _ from h))⟩

theorem plant_sound : PlantSound plant :=
  handleDefineGroup_plantKept _ _ (handleDefineGroup_plantKept _ _ (handleDefineGroup_plantKept _ _ (upAt_sound 10000)))

theorem busy_sound : PlantSound busy :=
  have h1 : PlantSound (occupyOut 40 1000 ⟨17, 3⟩ plant) := occupyOut_plantKept 40 1000 ⟨17, 3⟩ plant plant_sound
  have h2 : PlantSound (occupyIn 1001 ⟨205, 1⟩ (occupyOut 40 1000 ⟨17, 3⟩ plant)) := occupyIn_plantKept 1001 _ _ h1
  changeCircuit_plantKept 1002 (fun e => { e with occupancy := .guard 10500 }) (fun _ => rfl) _ h2

theorem withCall_sound (c : Call) : PlantSound (withCall c) := PlantSound.of_plant rfl busy_sound

theorem analyser_sound {s : State} (hg : s.analyser.gaps = analyser.gaps)
    (hd : s.analyser.destinations = analyser.destinations) (hw : s.analyser.prefixes.wf = true)
    (hn : s.analyser.prefixes.size ≤ 4096) : AnalyserSound s := by
  refine ⟨hw, hn, by rw [hg]; decide +kernel, by rw [hg]; decide +kernel, fun d g h => ?_, fun d => ?_⟩
  · have hp := table_all (d := (none : Option Gap)) analyser.gaps
      (fun d v => v.all (fun g => decide (d < Config.destinations ∧ 1 ≤ g.interval ∧ g.interval ≤ 6000 ∧ g.life ≤ 86400 ∧
        (g.lifeExpiry.isSome = true ↔ g.life ≠ 0) ∧ g.refused ≤ Config.refusedMax)) = true) (fun _ => rfl)
      (by decide +kernel) d
    unfold State.gap at h
    rw [hg] at h
    rw [h] at hp
    exact of_decide_eq_true hp
  · unfold State.dest
    rw [hd]
    exact table_all analyser.destinations (fun _ v => v.plan < 1024) (fun _ => by decide) (by decide +kernel) d

theorem numbers_sound (t : Nat) : AnalyserSound (numbers t) :=
  analyser_sound rfl rfl (show analyser.prefixes.wf = true by decide +kernel)
    (show analyser.prefixes.size ≤ 4096 by decide +kernel)

/-- The valid entries of one set are those of section 5.5, of plans that hold the POOL steps their members name. -/
theorem memory_sound : MemorySound (memory ⟨[none, some ⟨0, 300, 2, 2⟩, some ⟨4, 300, 1, 0⟩, none], 0⟩) := by
  refine ⟨by decide +kernel, fun k => ?_⟩
  by_cases hk : k = 77
  · subst hk
    refine ⟨by decide +kernel, by decide +kernel, ?_, ?_⟩
    · intro e he
      have he' : some e ∈ [none, some (⟨0, 300, 2, 2⟩ : MemoryEntry), some ⟨4, 300, 1, 0⟩, none] := he
      simp at he'
      rcases he' with rfl | rfl
      · exact ⟨by decide, by decide, by decide +kernel, ⟨21, .pool, 1⟩, by decide +kernel, rfl⟩
      · exact ⟨by decide, by decide, by decide +kernel, ⟨20, .pool, 1⟩, by decide +kernel, rfl⟩
    · intro i j e f hi hj ht
      have hi' : [none, some (⟨0, 300, 2, 2⟩ : MemoryEntry), some ⟨4, 300, 1, 0⟩, none][i]? = some (some e) := hi
      have hj' : [none, some (⟨0, 300, 2, 2⟩ : MemoryEntry), some ⟨4, 300, 1, 0⟩, none][j]? = some (some f) := hj
      rcases i with _ | _ | _ | _ | i <;> rcases j with _ | _ | _ | _ | j <;> simp at hi' hj' ⊢
      all_goals (subst hi'; subst hj'; simp at ht)
  · have : (memory ⟨[none, some ⟨0, 300, 2, 2⟩, some ⟨4, 300, 1, 0⟩, none], 0⟩).memorySet k = .initial :=
      (Table.get_set_other Table.empty 77 k _ hk)
    rw [this]
    refine ⟨rfl, by decide, ?_, ?_⟩
    · intro e he; simp [MemorySet.initial] at he
    · intro i j e f hi; rcases i with _ | _ | _ | _ | i <;> simp [MemorySet.initial] at hi

/-- One plan of one step, and the sets that go with it. -/
def onePlan : State :=
  { plant with
    routes := ⟨Table.empty.set 50 [⟨40, .primary, 7⟩], 7⟩
    service := { plant.service with planSets := Table.empty.set 40 [50] } }

theorem onePlan_sound : RoutesSound onePlan := by
  refine ⟨by decide, fun p n => ?_, fun p => ?_⟩
  · have h1 : onePlan.service.planSets.get n = if n = 40 then [50] else [] := Table.get_set Table.empty 40 n _
    have h2 : onePlan.plan p = if p = 50 then [⟨40, .primary, 7⟩] else [] := Table.get_set Table.empty 50 p _
    rw [h1, h2]
    by_cases hn : n = 40 <;> by_cases hp : p = 50 <;> (simp [hn, hp]; try omega)
  · have h2 : onePlan.plan p = if p = 50 then [⟨40, .primary, 7⟩] else [] := Table.get_set Table.empty 50 p _
    rw [h2]
    by_cases hp : p = 50 <;> simp [hp, Config.groups, Config.tariffClasses]

/-- The state with an orphan: its slot is the orphan list. -/
theorem withOrphan_sound (t : Nat) : CallsSound (withOrphan t) := by
  have hs : ∀ k, (withOrphan t).slot k = if k = 17 then ⟨3, some orphaned⟩ else Slot.free :=
    fun k => Table.get_set Table.empty 17 k _
  refine ⟨show (Table.empty.set 17 (⟨3, some orphaned⟩ : Slot) : Table Slot Slot.free).wf = true by decide +kernel,
    show 120 ≤ 3600 by decide, show [17].Nodup by decide, fun k => ?_, fun k => ?_, fun k c h => ?_, List.nodup_nil,
    fun o h => absurd h List.not_mem_nil⟩
  · rw [hs]; by_cases hk : k = 17 <;> simp [hk, Slot.free]
  · rw [hs, show (withOrphan t).calls.orphans = [17] from rfl]
    by_cases hk : k = 17 <;> simp [hk, Slot.free, orphaned]
  · rw [hs] at h
    by_cases hk : k = 17
    · simp [hk] at h; subst h; simp [hk, orphaned, Config.slots]
    · simp [hk, Slot.free] at h

/-- A batch of one group of no circuits in use, and its service state. -/
theorem batch_sound {b : DrainBatch} {v : ServiceState} (hm : b.members = [⟨40, .pending⟩, ⟨41, .isProtected⟩])
    (hd : b.deadline = 300) (hv : v = if b.state = .suspended then .drainSuspended else .draining)
    (hs : b.state ≠ .none) (hw : b.windowExpiry.isSome = true ↔ b.state = .forming)
    (he : b.deadlineExpiry.isSome = true ↔ b.state = .draining ∧ b.deadlinePassed = false)
    (hr : b.remaining.isSome = true ↔ b.state = .suspended) (hp : b.deadlinePassed = true → b.state = .draining)
    {s : State} (hg : (s.group 40).isSome = true) (hsv : s.svc 40 = { GroupService.initial with service := v })
    (ho : ∀ n, n ≠ 40 → (s.svc n).service = .inService) (hb : s.service.batch = b) : BatchSound s := by
  unfold BatchSound
  rw [hb, hm, hd]
  refine ⟨by decide, by decide, by decide, fun h => absurd h hs, hw, ?_, ?_, hp, ?_, ?_, fun n => ⟨?_, ?_⟩⟩
  · simpa using he
  · simpa using hr
  · intro _ m h; simp at h; rcases h with rfl | rfl <;> simp
  · intro _; exact ⟨⟨40, .pending⟩, by simp, rfl⟩
  · intro h; simp at h; subst h; rw [hsv]; exact ⟨hg, by rw [hv]⟩
  · intro h
    by_cases hn : n = 40
    · subst hn; simp
    · rw [ho n hn] at h; simp at h

/-- No call, and no OFFER in progress. -/
theorem no_calls_sound {s : State} (hs : s.calls.slots = .empty) (ho : s.calls.orphans = []) (hf : s.calls.offers = [])
    (hl : s.calls.orphanLimit ≤ 3600 := by decide) : CallsSound s := by
  have e : ∀ k, s.slot k = .free := fun k => by unfold State.slot; rw [hs]; rfl
  refine ⟨by rw [hs]; rfl, hl, by rw [ho]; exact List.nodup_nil, fun k => ?_, fun k => ?_, fun k c h => ?_, ?_, ?_⟩
  · rw [e]; decide
  · rw [e, ho]; exact ⟨fun h => absurd h List.not_mem_nil, fun ⟨_, h, _⟩ => nomatch h⟩
  · rw [e] at h; exact nomatch h
  · rw [hf]; exact List.nodup_nil
  · rw [hf]; exact fun o h => absurd h List.not_mem_nil

/-- No drain batch, and every group in service. -/
theorem no_batch_sound {s : State} (hb : s.service.batch = .empty) (hg : s.service.groups = .empty) : BatchSound s := by
  have e : ∀ n, s.svc n = .initial := fun n => by unfold State.svc; rw [hg]; rfl
  unfold BatchSound
  rw [hb]
  refine ⟨by decide, by decide, by decide, fun _ => rfl, by decide, by decide, by decide, by decide, by decide,
    by decide, fun n => ⟨fun h => absurd h List.not_mem_nil, fun h => ?_⟩⟩
  rw [e] at h
  simp [GroupService.initial] at h

/-- Every group has an available circuit, no plan is written, and no alarm level stands. -/
def quiet (s : State) : Bool :=
  s.plant.groups.wf &&
    s.plant.groups.entries.all (fun e => e.2.all (fun g => decide (e.1 < 256 ∧ g.available ≠ 0))) &&
    decide (s.service.groups = .empty ∧ s.routes.plans = .empty ∧ s.service.exhausted = .empty) &&
    decide (s.settlement.carriers = .empty ∧ s.levels = .empty) && !s.settlement.backlog

theorem levels_sound {s : State} (h : quiet s = true) : LevelsSound s := by
  simp only [quiet, Bool.and_eq_true, decide_eq_true_eq, Bool.not_eq_true'] at h
  obtain ⟨⟨⟨⟨hw, hg⟩, hv, hp, he⟩, hc, hl⟩, hb⟩ := h
  have v : ∀ n, s.svc n = .initial := fun n => by unfold State.svc; rw [hv]; rfl
  have q : ∀ p, s.plan p = [] := fun p => by unfold State.plan; rw [hp]; rfl
  have c : ∀ k, s.carrier k = .initial := fun k => by unfold State.carrier; rw [hc]; rfl
  have l : ∀ x, s.level x = 0 := fun x => by unfold State.level; rw [hl]; rfl
  have x : ∀ p, s.service.exhausted.get p = false := fun p => by rw [he]; rfl
  refine ⟨hw, fun n g h => ?_, fun n _ => v n, fun p _ => q p, fun p => ?_, fun k _ => ?_, fun n _ => ?_, fun p _ => ?_,
    fun k _ => ?_, ?_⟩
  · have a := table_all s.plant.groups (fun n w => w.all (fun g => decide (n < 256 ∧ g.available ≠ 0)) = true)
      (fun _ => rfl) (fun e he => List.all_eq_true.mp hg e he) n
    simp only [State.group] at h
    rw [h] at a
    have b := of_decide_eq_true a
    exact ⟨b.1, by rw [v]; simp [GroupService.initial, b.2]⟩
  · rw [x]; simp [planExhausted, q]
  · rw [c]; exact ⟨rfl, rfl⟩
  · rw [l, v]; rfl
  · rw [l, x]; rfl
  · rw [l, c]; rfl
  · rw [l, hb]; rfl

/-- No plan written. -/
def planless (s : State) : Bool :=
  decide (s.routes.plans = .empty ∧ s.service.planSets = .empty ∧ s.routes.reattemptLimit ≤ 7)

theorem no_plans_sound {s : State} (h : planless s = true) : RoutesSound s := by
  obtain ⟨hp, hs, hl⟩ := of_decide_eq_true h
  have q : ∀ p, s.plan p = [] := fun p => by unfold State.plan; rw [hp]; rfl
  have w : ∀ n, s.service.planSets.get n = [] := fun n => by rw [hs]; rfl
  exact ⟨hl, fun p n => by simp [q, w], fun p => by simp [q]⟩

theorem plant_batch : BatchSound plant := no_batch_sound (by decide +kernel) (by decide +kernel)
theorem plant_routes : RoutesSound plant :=
  no_plans_sound (by decide +kernel)
theorem plant_levels : LevelsSound plant :=
  levels_sound (by decide +kernel)

/-- No batch is DRAINING. -/
theorem not_draining {s : State} (h : s.service.batch.state ≠ .draining) : PendingBusy s := fun e => absurd e h

/-- The plant at 10,500 with circuit 1,002 in GUARD to 10,500, blocked or not. -/
def guarded (flag : Bool) : State :=
  { changeCircuit 1002 (fun e => { e with localFlag := flag, occupancy := .guard 10500 }) plant with
    tariff := (upAt 10500).tariff }

theorem guarded_sound (flag : Bool) : PlantSound (guarded flag) :=
  PlantSound.of_plant rfl (changeCircuit_plantKept 1002
    (fun e => { e with localFlag := flag, occupancy := .guard 10500 }) (fun _ => rfl) plant plant_sound)

theorem guarded_rest (flag : Bool) :
    BatchSound (guarded flag) ∧ PendingBusy (guarded flag) ∧ RoutesSound (guarded flag) ∧ LevelsSound (guarded flag) := by
  cases flag <;>
  exact ⟨no_batch_sound (by decide +kernel) (by decide +kernel), not_draining (by decide +kernel),
    no_plans_sound (by decide +kernel),
    levels_sound (by decide +kernel)⟩

/-- The two legs of the call 17/3, on 2,000 and on 1,000, among idle circuits. -/
def legs : State := occupyIn 2000 ⟨17, 3⟩ (occupyOut 40 1000 ⟨17, 3⟩ plant)

/-- That call as an orphan bound to a generation, with a tariff store. -/
def bound (generation : Nat) (store : TariffStore) : State :=
  { legs.setSlot 17 ⟨3, some { orphaned with answer := some ⟨9100, none, generation⟩ }⟩ with
    calls :=
      { (legs.setSlot 17 ⟨3, some { orphaned with answer := some ⟨9100, none, generation⟩ }⟩).calls with
        orphans := [17] }
    tariff := store }

theorem bound_slot (n : Nat) (t : TariffStore) (k : Nat) :
    (bound n t).slot k =
      if k = 17 then ⟨3, some { orphaned with answer := some ⟨9100, none, n⟩ }⟩ else Slot.free :=
  Table.get_set Table.empty 17 k _

theorem legs_plant_sound : PlantSound legs :=
  occupyIn_plantKept 2000 _ _ (occupyOut_plantKept 40 1000 ⟨17, 3⟩ plant plant_sound)

theorem bound_calls (n : Nat) (t : TariffStore) : CallsSound (bound n t) := by
  refine ⟨show (Table.empty.set 17 (⟨3, some { orphaned with answer := some ⟨9100, none, n⟩ }⟩ : Slot)).wf = true from rfl,
    show 120 ≤ 3600 by decide, show [17].Nodup by decide, fun k => ?_, fun k => ?_, fun k c h => ?_, List.nodup_nil,
    fun o h => absurd h List.not_mem_nil⟩
  · rw [bound_slot]; by_cases hk : k = 17 <;> simp [hk, Slot.free]
  · rw [bound_slot, show (bound n t).calls.orphans = [17] from rfl]
    by_cases hk : k = 17 <;> simp [hk, Slot.free, orphaned]
  · rw [bound_slot] at h
    by_cases hk : k = 17
    · simp [hk] at h; subst h; simp [hk, orphaned, Config.slots]
    · simp [hk, Slot.free] at h

/-- What the circuits of `legs` are busy with. -/
def legOf (c : Nat) (e : Equipped) : Bool :=
  match e.occupancy with
  | .busyIn r => decide (c = 2000 ∧ r = ⟨17, 3⟩)
  | .busyOut r => decide (c = 1000 ∧ r = ⟨17, 3⟩)
  | _ => true

theorem bound_legs (n : Nat) (t : TariffStore) : LegsSound (bound n t) := by
  have hc : ∀ c e, (bound n t).circuit c = some e → legOf c e = true := fun c e h =>
    circuits_all (s := legs) legOf (by decide +kernel) c e h
  have hx : (bound n t).call ⟨17, 3⟩ = some { orphaned with answer := some ⟨9100, none, n⟩ } := by
    unfold State.call; rw [bound_slot]; rfl
  have h1 : (bound n t).circuit 2000 = some ⟨41, false, false, .busyIn ⟨17, 3⟩⟩ := by
    show legs.circuit 2000 = _; decide +kernel
  have h2 : (bound n t).circuit 1000 = some ⟨40, false, false, .busyOut ⟨17, 3⟩⟩ := by
    show legs.circuit 1000 = _; decide +kernel
  refine ⟨fun c e r h ho => ?_, fun c e r h ho => ?_, fun k x h => ?_, fun o h => absurd h List.not_mem_nil,
    List.nodup_nil, fun r => ⟨fun h => absurd h List.not_mem_nil, fun ⟨x, h, hp⟩ => ?_⟩⟩
  · have := hc c e h
    simp only [legOf, ho, decide_eq_true_eq] at this
    exact .inl ⟨_, by rw [this.2]; exact hx, this.1.symm⟩
  · have := hc c e h
    simp only [legOf, ho, decide_eq_true_eq] at this
    exact .inl ⟨_, ⟨1000, 40, 12, true, false⟩, by rw [this.2]; exact hx, rfl, this.1.symm⟩
  · rw [bound_slot] at h
    by_cases hk : k = 17
    · subst hk
      simp at h
      subst h
      have hr : (bound n t).refOf 17 = ⟨17, 3⟩ := by unfold State.refOf; rw [bound_slot]; rfl
      rw [hr]
      refine ⟨⟨_, h1, rfl, rfl⟩, fun l hl => ?_, by simp [FieldsFit, orphaned, answered, call]⟩
      rw [show ({ orphaned with answer := some ⟨9100, none, n⟩ } : Call).leg = some ⟨1000, 40, 12, true, false⟩ from rfl] at hl
      cases hl
      exact ⟨_, h2, rfl, rfl⟩
    · simp [hk, Slot.free] at h
  · unfold State.call at h
    rw [bound_slot] at h
    by_cases hk : r.slot = 17
    · simp [hk] at h; rw [← h.2] at hp; simp [orphaned, answered, call] at hp
    · simp [hk, Slot.free] at h

theorem bound_levels (n : Nat) (t : TariffStore) : LevelsSound (bound n t) :=
  levels_sound (show quiet legs = true by decide +kernel)

/-- The orphan bound to the live generation 0. -/
def boundLive : State := bound 0 { (upAt 60000).tariff with live := ⟨0, 1, .initial⟩ }

/-- The orphan bound to the retired generation 40, for which an activation is held. -/
def boundRetired : State :=
  bound 40
    { (upAt 60000).tariff with
      live := ⟨41, 0, .initial⟩
      retired := some ⟨40, 1, .initial⟩
      staging := ⟨.held, some .a, some ⟨42, .initial⟩, none, none⟩ }

theorem boundLive_tariff : TariffSound boundLive :=
  ⟨by decide, fun w h => (nomatch (show (none : Option Nat) = some w from h)), by decide,
    fun b h => (nomatch (show (none : Option BankRecord) = some b from h)),
    fun g h => (nomatch (show (none : Option StagedGeneration) = some g from h)), by decide, by decide, by decide, by decide⟩

theorem boundRetired_tariff : TariffSound boundRetired := by
  refine ⟨by decide, fun w h => (nomatch (show (none : Option Nat) = some w from h)), by decide, fun b h => ?_,
    fun g h => ?_, by decide, by decide, by decide, by decide⟩
  · rw [show boundRetired.tariff.retired = some ⟨40, 1, .initial⟩ from rfl] at h; cases h; decide
  · rw [show boundRetired.tariff.staging.generation = some ⟨42, .initial⟩ from rfl] at h; cases h; decide

theorem boundLive_references : ReferencesSound boundLive := by
  refine ⟨by decide +kernel, fun b h => (nomatch (show (none : Option BankRecord) = some b from h)),
    fun k c x h hx => .inl ?_⟩
  rw [show boundLive.slot k = _ from bound_slot _ _ k] at h
  by_cases hk : k = 17
  · simp [hk] at h; subst h; cases hx; rfl
  · simp [hk, Slot.free] at h

theorem boundRetired_references : ReferencesSound boundRetired := by
  refine ⟨by decide +kernel, fun b h => ?_, fun k c x h hx => .inr ⟨⟨40, 1, .initial⟩, rfl, ?_⟩⟩
  · rw [show boundRetired.tariff.retired = some ⟨40, 1, .initial⟩ from rfl] at h; cases h; decide +kernel
  · rw [show boundRetired.slot k = _ from bound_slot _ _ k] at h
    by_cases hk : k = 17
    · simp [hk] at h; subst h; cases hx; rfl
    · simp [hk, Slot.free] at h

/-- A state with the ports and the handed losses of a ready one. -/
theorem ready_of {s t : State} (h : ready t = true) (hp : s.ports = t.ports) (hl : s.calls.losses = t.calls.losses)
    (ho : s.calls.offers = t.calls.offers := by rfl) (hr : s.resetLine = t.resetLine := by rfl) : ready s = true := by
  unfold ready State.port at *
  rw [hp, hl, ho, hr]
  exact h

/-! ### Chapter 1 -/

theorem ready_plant : ready plant = true := by decide +kernel
theorem ready_busy : ready busy = true := by decide +kernel

theorem witness_PlantLockAndQueries :
    Takes (.lockPlant a) plant plant ∧ Takes (.unlockPlant a) plant plant ∧ Takes (.queryGroup a 256) plant plant ∧
      (Takes (.queryGroup a 255) plant plant ∧ plant.group 255 = none) ∧
      (Takes (.queryGroup a 40) plant plant ∧ (plant.group 40).isSome = true) ∧
      Takes (.queryCircuit a 16384) plant plant ∧
      (Takes (.queryCircuit a 16383) plant plant ∧ plant.circuit 16383 = none) ∧
      (Takes (.queryCircuit a 1002) busy busy ∧
        busy.circuit 1002 = some ⟨40, false, false, .guard 10500⟩) :=
  ⟨takes ready_plant rfl, takes ready_plant rfl, takes ready_plant rfl, ⟨takes ready_plant rfl, by decide +kernel⟩,
    ⟨takes ready_plant rfl, by decide +kernel⟩, takes ready_plant rfl, ⟨takes ready_plant rfl, by decide +kernel⟩,
    ⟨takes ready_busy rfl, by decide +kernel⟩⟩

/-- Group 255 with the last circuit, where every number is at the end of its range. -/
def def255 : GroupDefinition := groupDef 255 63 16380 4 255 .inOnly .winOdd false

theorem witness_DefineGroupChecks :
    PlantSound plant ∧ PlantSound busy ∧ Takes (.defineGroup a { def255 with group := 256 }) plant plant ∧
      Takes (.defineGroup a { def255 with glare := .undefined }) plant plant ∧
      (Takes (.defineGroup a def40) busy busy ∧ busy.plant.locked = false ∧ (busy.group 40).isSome = true ∧
        busy.circuit 1000 = some ⟨40, false, false, .busyOut ⟨17, 3⟩⟩) ∧
      (Takes (.defineGroup a { def255 with ranges := [⟨2000, 1⟩] }) plant plant ∧ plant.group 255 = none ∧
        inRanges [⟨2000, 1⟩] 2000 = true ∧ plant.circuit 2000 = some ⟨41, false, false, .idle⟩) :=
  ⟨plant_sound, busy_sound, takes ready_plant rfl, takes ready_plant rfl,
    ⟨takes ready_busy rfl, by decide +kernel, by decide +kernel, by decide +kernel⟩,
    ⟨takes ready_plant rfl, by decide +kernel, by decide +kernel, by decide +kernel⟩⟩

theorem witness_DefineGroupNew :
    PlantSound plant ∧ BatchSound plant ∧ Takes (.defineGroup a def255) plant plant ∧ def255.direction = .given .inOnly ∧
      def255.glare = .given .winOdd ∧ def255.hunt = .given .firstUp ∧ def255.group ≤ 255 ∧ def255.carrier ≤ 63 ∧
      rangesWellFormed def255.ranges = true ∧ rangesFit def255.ranges = true ∧ plant.plant.locked = false ∧
      plant.group 255 = none ∧ ∀ c, inRanges def255.ranges c = true → plant.circuit c = none := by
  refine ⟨plant_sound, plant_batch, takes ready_plant rfl, rfl, rfl, rfl, by decide, by decide, by decide, by decide,
    by decide +kernel, by decide +kernel, fun c h => ?_⟩
  cases hc : plant.circuit c with
  | none => rfl
  | some e =>
    have := circuits_all (s := plant) (fun k _ => decide (inRanges def255.ranges k = false)) (by decide +kernel) c e hc
    simp [h] at this

theorem witness_DefineGroupAgain :
    PlantSound plant ∧ BatchSound plant ∧ PendingBusy plant ∧
      Takes (.defineGroup a { def40 with ranges := [⟨1002, 3⟩] }) plant plant ∧
      rangesWellFormed [⟨1002, 3⟩] = true ∧ rangesFit [⟨1002, 3⟩] = true ∧ plant.plant.locked = false ∧
      (plant.group 40).isSome = true ∧ (∀ c e, plant.circuit c = some e → e.group = 40 → e.occupancy = .idle) ∧
      ∀ c e, inRanges [⟨1002, 3⟩] c = true → plant.circuit c = some e → e.group = 40 := by
  refine ⟨plant_sound, plant_batch, not_draining (by decide +kernel), takes ready_plant rfl, by decide, by decide,
    by decide +kernel, by decide +kernel, fun c e h _ => ?_, fun c e hr h => ?_⟩
  · exact of_decide_eq_true
      (circuits_all (s := plant) (fun _ e => decide (e.occupancy = .idle)) (by decide +kernel) c e h)
  · have := circuits_all (s := plant) (fun k e => !inRanges [⟨1002, 3⟩] k || decide (e.group = 40)) (by decide +kernel) c e h
    simpa [hr] using this

theorem witness_SetGroupParamsStores :
    Takes (.setGroupParams a 256 ⟨none, .absent, .absent, .undefined, none, none, none, none, none⟩) plant plant ∧
      Takes (.setGroupParams a 256 ⟨none, .absent, .absent, .absent, none, none, none, none, none⟩) plant plant ∧
      Takes (.setGroupParams a 40 ⟨some 63, .absent, .absent, .given .rotate, none, some 256, none, none, none⟩) plant
        plant ∧
      plant.plant.locked = false ∧ (plant.group 40).isSome = true :=
  ⟨takes ready_plant rfl, takes ready_plant rfl, takes ready_plant rfl, by decide +kernel, by decide +kernel⟩

theorem witness_DeleteGroupRemoves :
    PlantSound plant ∧ PlantSound busy ∧ Takes (.deleteGroup a 256) plant plant ∧
      (Takes (.deleteGroup a 40) { plant with plant := { plant.plant with locked := true } }
        { plant with plant := { plant.plant with locked := true } }) ∧
      (Takes (.deleteGroup a 255) plant plant ∧ plant.group 255 = none) ∧
      (Takes (.deleteGroup a 40) busy busy ∧ (busy.group 40).isSome = true ∧
        busy.circuit 1000 = some ⟨40, false, false, .busyOut ⟨17, 3⟩⟩) ∧
      (Takes (.deleteGroup a 40) plant plant ∧ plant.plant.locked = false ∧ (plant.group 40).isSome = true ∧
        (∀ c e, plant.circuit c = some e → e.group = 40 → e.occupancy = .idle) ∧
        plant.service.batch.resultOf 40 ≠ some .pending) := by
  refine ⟨plant_sound, busy_sound, takes ready_plant rfl, takes (by decide +kernel) rfl,
    ⟨takes ready_plant rfl, by decide +kernel⟩, ⟨takes ready_busy rfl, by decide +kernel, by decide +kernel⟩,
    ⟨takes ready_plant rfl, by decide +kernel, by decide +kernel, fun c e h _ => ?_, by decide +kernel⟩⟩
  exact of_decide_eq_true (circuits_all (s := plant) (fun _ e => decide (e.occupancy = .idle)) (by decide +kernel) c e h)

theorem witness_BlockAndUnblock :
    PlantSound busy ∧ BatchSound busy ∧ PendingBusy busy ∧ Takes (.blockCircuits a 16384 1 (.given .localFlag)) busy busy ∧
      (Takes (.unblockCircuits a 16383 2 (.given .localFlag)) busy busy ∧ 16384 < 16383 + clamp 1 2048 2) ∧
      (Takes (.blockCircuits a 16383 0 (.given .remoteFlag)) busy busy ∧ 16383 + clamp 1 2048 0 ≤ 16384) ∧
      Takes (.blockCircuits a 1000 2049 .undefined) busy busy :=
  ⟨busy_sound, no_batch_sound (by decide +kernel) (by decide +kernel), not_draining (by decide +kernel),
    takes ready_busy rfl, ⟨takes ready_busy rfl, by decide⟩, ⟨takes ready_busy rfl, by decide⟩, takes ready_busy rfl⟩

/-- A group with an idle set, a hunt mode and a last-seized circuit. -/
def hunting (h : HuntMode) (last : Option Nat) : Group :=
  ⟨12, .both, .winEven, [⟨1000, 4⟩], h, last, 500, 1, 4, 5, false, [1000, 1001, 1003], 3, 0, 0, 1, 0⟩

theorem witness_HuntModePicks :
    rising (hunting .rotate (some 1001)).idleSet = true ∧ pickCircuit (hunting .firstUp none) = some 1000 ∧
      pickCircuit (hunting .firstDown none) = some 1003 ∧ pickCircuit (hunting .rotate none) = some 1000 ∧
      pickCircuit (hunting .rotate (some 1001)) = some 1003 ∧ pickCircuit (hunting .rotate (some 1003)) = some 1000 := by
  decide

theorem witness_OutboundSeizure :
    PlantSound plant ∧ (plant.group 40).isSome = true ∧
      outboundPick plant 40 .normal .pool = some ⟨1000, 12, .opened⟩ :=
  ⟨plant_sound, by decide +kernel, by decide +kernel⟩

theorem witness_LegReleaseAndGuardExpiry :
    PlantSound busy ∧ busy.circuit 1000 = some ⟨40, false, false, .busyOut ⟨17, 3⟩⟩ ∧
      busy.circuit 1001 = some ⟨40, false, false, .busyIn ⟨205, 1⟩⟩ ∧
      busy.circuit 1003 = some ⟨40, false, false, .idle⟩ ∧ (busy.group 40).isSome = true ∧
      (busy.circuit 1002 = some ⟨40, false, false, .guard 10500⟩ ∧ busy.now < 10500) ∧
      ∀ flag, PlantSound (guarded flag) ∧ (guarded flag).now = 10500 ∧
        (guarded flag).circuit 1002 = some ⟨40, flag, false, .guard 10500⟩ ∧ ((guarded flag).group 40).isSome = true ∧
        BatchSound (guarded flag) ∧ PendingBusy (guarded flag) ∧ RoutesSound (guarded flag) ∧
        LevelsSound (guarded flag) :=
  ⟨busy_sound, by decide +kernel, by decide +kernel, by decide +kernel, by decide +kernel,
    ⟨by decide +kernel, by decide +kernel⟩,
    fun flag => ⟨guarded_sound flag, rfl, by cases flag <;> decide +kernel, by cases flag <;> decide +kernel,
      guarded_rest flag⟩⟩

/-! ### Chapter 2 -/

theorem witness_CongestionDerivation :
    (plant.group 40).map (fun g => nextCongestion (plant.svc 40).congestion g.available g.threshold g.hysteresis) =
        some (plant.svc 40).congestion ∧
      (busy.setSvc 40 .initial).group 40 = busy.group 40 ∧
      (busy.group 40).map (fun g => nextCongestion .opened g.available g.threshold g.hysteresis) = some .reserved := by
  decide +kernel

theorem witness_FarEndLevel :
    Takes (.reportFarCongestion a 256 0) plant plant ∧
      (Takes (.reportFarCongestion a 255 0) plant plant ∧ plant.group 255 = none) ∧
      (Takes (.reportFarCongestion a 40 4) plant plant ∧ (plant.group 40).isSome = true) ∧
      ((plant.setSvc 40 ⟨.opened, 1, some 10000, .inService⟩).svc 40).decayExpiry = some 10000 ∧ plant.now = 10000 ∧
      (plant.svc 40).decayExpiry = none ∧ plant.group 255 = none :=
  ⟨takes ready_plant rfl, ⟨takes ready_plant rfl, by decide +kernel⟩, ⟨takes ready_plant rfl, by decide +kernel⟩,
    by decide +kernel, by decide +kernel, by decide +kernel, by decide +kernel⟩

theorem witness_DrainGroupJoins :
    (Takes (.drainGroup a 256 0) plant plant ∧ Takes (.drainGroup a 255 0) plant plant ∧ plant.group 255 = none) ∧
      (Takes (.drainGroup a 40 3601) plant plant ∧ (plant.group 40).map (·.drainProtected) = some false ∧
        plant.service.batch = .empty ∧ (plant.svc 40).service = .inService) ∧
      (Takes (.drainGroup a 41 3600) plant plant ∧ (plant.group 41).map (·.drainProtected) = some true) ∧
      (Takes (.drainGroup a 41 0) (draining busy) (draining busy) ∧
        (draining busy).service.batch.resultOf 41 = some .isProtected) ∧
      (Takes (.drainGroup a 42 0) (draining busy) (draining busy) ∧ (draining busy).service.batch.resultOf 42 = none ∧
        (draining busy).service.batch.state = .draining ∧ (draining busy).busyTotal 42 = 0) ∧
      (Takes (.drainGroup a 40 0) (busy.setBatch ⟨.draining, [⟨42, .pending⟩], .all false, 0, none, none, none, true⟩)
          (busy.setBatch ⟨.draining, [⟨42, .pending⟩], .all false, 0, none, none, none, true⟩) ∧
        busy.busyTotal 40 = 2) :=
  ⟨⟨takes ready_plant rfl, takes ready_plant rfl, by decide +kernel⟩,
    ⟨takes ready_plant rfl, by decide +kernel, by decide +kernel, by decide +kernel⟩,
    ⟨takes ready_plant rfl, by decide +kernel⟩, ⟨takes (by decide +kernel) rfl, by decide +kernel⟩,
    ⟨takes (by decide +kernel) rfl, by decide +kernel, by decide +kernel, by decide +kernel⟩,
    ⟨takes (by decide +kernel) rfl, by decide +kernel⟩⟩

theorem witness_DrainSuspend :
    (Takes (.drainSuspend a) plant plant ∧ plant.service.batch.state = .none) ∧
      (Takes (.drainSuspend a) (plant.setBatch ⟨.forming, [⟨41, .isProtected⟩], .all false, 0, some 12000, none, none, false⟩)
        (plant.setBatch ⟨.forming, [⟨41, .isProtected⟩], .all false, 0, some 12000, none, none, false⟩)) ∧
      (Takes (.drainSuspend a) (forming busy) (forming busy) ∧ (forming busy).service.batch.state = .forming ∧
        (⟨40, .pending⟩ : Member) ∈ (forming busy).service.batch.members) ∧
      (Takes (.drainSuspend a) (draining busy) (draining busy) ∧ (draining busy).service.batch.state = .draining ∧
        (draining busy).service.batch.deadlinePassed = false ∧
        (draining busy).service.batch.deadlineExpiry.map (· - (draining busy).now) = some 292000) :=
  ⟨⟨takes ready_plant rfl, by decide +kernel⟩, takes (by decide +kernel) rfl,
    ⟨takes (by decide +kernel) rfl, by decide +kernel, by decide +kernel⟩,
    ⟨takes (by decide +kernel) rfl, by decide +kernel, by decide +kernel, by decide +kernel⟩⟩

/-- The batch of section 2.8 while SUSPENDED, over a plant. -/
def suspended (s : State) : State :=
  (s.setBatch ⟨.suspended, [⟨40, .pending⟩, ⟨41, .isProtected⟩], ⟨true, true, false, false⟩, 300, none, none, some 252000,
    false⟩).setSvc 40 ⟨.opened, 0, none, .drainSuspended⟩

theorem others_in_service {s : State} (h : s.service.groups = Table.empty.set 40 ⟨.opened, 0, none, (s.svc 40).service⟩)
    (n : Nat) (hn : n ≠ 40) : (s.svc n).service = .inService := by
  unfold State.svc at h ⊢
  rw [h, Table.get_set_other _ _ _ _ hn]
  rfl

theorem suspended_sound : BatchSound (suspended plant) :=
  batch_sound rfl rfl rfl (by decide) (by decide) (by decide) (by decide) (by decide) (by decide +kernel)
    (by decide +kernel) (others_in_service (by decide +kernel)) rfl

theorem witness_DrainResume :
    (Takes (.drainResume a) (suspended plant) (suspended plant) ∧ BatchSound (suspended plant) ∧
        (suspended plant).service.batch.state = .suspended) ∧
      (Takes (.drainResume a) plant plant ∧ plant.service.batch.state ≠ .suspended) :=
  ⟨⟨takes (by decide +kernel) rfl, suspended_sound, rfl⟩, ⟨takes ready_plant rfl, by decide +kernel⟩⟩

theorem witness_ReturnGroup :
    (Takes (.returnGroup a 256) plant plant ∧ plant.service.batch.state ≠ .forming) ∧
      (Takes (.returnGroup a 256) (forming plant) (forming plant) ∧ (forming plant).service.batch.state = .forming) ∧
      (Takes (.returnGroup a 40) (forming plant) (forming plant) ∧
        (forming plant).service.batch.resultOf 40 = some .pending) ∧
      (Takes (.returnGroup a 40) (suspended plant) (suspended plant) ∧
        (suspended plant).service.batch.resultOf 40 = some .pending) ∧
      (Takes (.returnGroup a 42) (plant.setSvc 42 ⟨.opened, 0, none, .outOfService⟩)
          (plant.setSvc 42 ⟨.opened, 0, none, .outOfService⟩) ∧
        plant.service.batch.resultOf 42 ≠ some .pending) ∧
      (Takes (.returnGroup a 42) plant plant ∧ (plant.svc 42).service = .inService) :=
  ⟨⟨takes ready_plant rfl, by decide +kernel⟩, ⟨takes (by decide +kernel) rfl, by decide +kernel⟩,
    ⟨takes (by decide +kernel) rfl, by decide +kernel⟩, ⟨takes (by decide +kernel) rfl, by decide +kernel⟩,
    ⟨takes (by decide +kernel) rfl, by decide +kernel⟩, ⟨takes ready_plant rfl, by decide +kernel⟩⟩

theorem forming_sound : BatchSound (forming plant) :=
  batch_sound (v := .draining) rfl rfl rfl (by decide) (by decide) (by decide) (by decide) (by decide) (by decide +kernel)
    (by decide +kernel) (others_in_service (by decide +kernel)) rfl

theorem witness_WindowCloses :
    (BatchSound (forming plant) ∧ (forming plant).service.batch.windowExpiry = some 10000 ∧ (forming plant).now = 10000 ∧
        (forming plant).service.batch.state = .forming ∧
        (⟨40, .pending⟩ : Member) ∈ (forming plant).service.batch.members) ∧
      (BatchSound (suspended plant) ∧ (suspended plant).service.batch.windowExpiry = none ∧
        (suspended plant).service.batch.state ≠ .forming) :=
  ⟨⟨forming_sound, rfl, by decide +kernel, rfl, by decide +kernel⟩, ⟨suspended_sound, rfl, by decide⟩⟩

theorem witness_BatchEnds :
    ((draining { busy with tariff := (upAt 302000).tariff }).service.batch.state = .draining ∧
        (draining { busy with tariff := (upAt 302000).tariff }).service.batch.deadlineExpiry = some 302000 ∧
        (draining { busy with tariff := (upAt 302000).tariff }).now = 302000) ∧
      (draining busy).now < 302000 ∧
      Port.b ∈ { draining busy with service := { (draining busy).service with losses := [.b] } : State }.service.losses ∧
      Port.b ∉ (draining busy).service.losses := by decide +kernel

theorem witness_PlanReevaluation :
    planExhausted onePlan 50 = onePlan.service.exhausted.get 50 ∧
      planExhausted (onePlan.setSvc 40 ⟨.full, 0, none, .inService⟩) 50 ≠
        (onePlan.setSvc 40 ⟨.full, 0, none, .inService⟩).service.exhausted.get 50 := by decide +kernel

/-! ### Chapters 3 to 5 -/

theorem ready_numbers : ready (numbers 10000) = true := by decide +kernel

/-- A prefix table that is full. -/
def fullTable : State :=
  { numbers 10000 with
    analyser := { analyser with prefixes := ⟨(List.range 4096).map (fun i => (100000 + i, some 5))⟩ } }

theorem fullTable_sound : AnalyserSound fullTable :=
  analyser_sound rfl rfl (by decide +kernel) (by decide +kernel)

theorem witness_PrefixTable :
    AnalyserSound (numbers 10000) ∧ (numbers 10000).analyser.prefixes.size = 5 ∧
      (Takes (.addPrefix a [] 0) (numbers 10000) (numbers 10000) ∧
        Takes (.addPrefix a (List.replicate 17 1) 0) (numbers 10000) (numbers 10000)) ∧
      Takes (.addPrefix a [9] 2048) (numbers 10000) (numbers 10000) ∧
      (AnalyserSound fullTable ∧ Takes (.addPrefix a [9] 2047) fullTable fullTable ∧
        fullTable.analyser.prefixes.size = 4096 ∧ fullTable.prefixEntry [9] = none) ∧
      (Takes (.addPrefix a (List.replicate 16 9) 2047) (numbers 10000) (numbers 10000) ∧
        (numbers 10000).prefixEntry (List.replicate 16 9) = none) ∧
      (Takes (.removePrefix a [4, 4, 1]) (numbers 10000) (numbers 10000) ∧
        (numbers 10000).prefixEntry [4, 4, 1] = some 121) ∧
      (Takes (.removePrefix a [10]) (numbers 10000) (numbers 10000)) :=
  ⟨numbers_sound 10000, by decide +kernel, ⟨takes ready_numbers rfl, takes ready_numbers rfl⟩, takes ready_numbers rfl,
    ⟨fullTable_sound, takes (by decide +kernel) rfl, by decide +kernel, by decide +kernel⟩,
    ⟨takes ready_numbers rfl, by decide +kernel⟩, ⟨takes ready_numbers rfl, by decide +kernel⟩, takes ready_numbers rfl⟩

theorem witness_LongestPrefixMatch :
    longestMatch (numbers 10000) [4, 4, 1] = some (3, 121) ∧ ((numbers 10000).dest 121).inUse = true ∧
      ((numbers 10000).dest 121).barred = false ∧
      longestMatch (numbers 10000) [4, 4, 1, 7] = some (4, 122) ∧ ((numbers 10000).dest 122).barred = true ∧
      ∀ m, 1 ≤ m → m ≤ 16 → m ≤ [4, 5].length → (numbers 10000).prefixEntry ([4, 5].take m) = none := by
  refine ⟨by decide +kernel, by decide +kernel, by decide +kernel, by decide +kernel, by decide +kernel,
    fun m h1 _ h2 => ?_⟩
  have : m = 1 ∨ m = 2 := by simp at h2; omega
  rcases this with rfl | rfl <;> decide +kernel

theorem witness_GapTable :
    AnalyserSound (numbers 10000) ∧ (numbers 10000).analyser.gaps.size = 1 ∧
      Takes (.setGap a 2048 (some 1) (some 0)) (numbers 10000) (numbers 10000) ∧
      Takes (.setGap a 2047 none (some 0)) (numbers 10000) (numbers 10000) ∧
      (Takes (.setGap a 2047 (some 0) (some 86401)) (numbers 10000) (numbers 10000) ∧
        (numbers 10000).gap 2047 = none) ∧
      (Takes (.setGap a 310 (some 6000) (some 0)) (numbers 10000) (numbers 10000) ∧
        (numbers 10000).gap 310 = some ⟨20, 60, some 70000, 12000, 0⟩) ∧
      Takes (.clearGap a 2048) (numbers 10000) (numbers 10000) ∧
      Takes (.clearGap a 2047) (numbers 10000) (numbers 10000) ∧
      ((numbers 70000).gap 310 = some ⟨20, 60, some 70000, 12000, 0⟩ ∧ (numbers 70000).now = 70000) ∧
      (numbers 69999).now < 70000 :=
  ⟨numbers_sound 10000, by decide +kernel, takes ready_numbers rfl, takes ready_numbers rfl,
    ⟨takes ready_numbers rfl, by decide +kernel⟩, ⟨takes ready_numbers rfl, by decide +kernel⟩, takes ready_numbers rfl,
    takes ready_numbers rfl, ⟨by decide +kernel, rfl⟩, by decide +kernel⟩

theorem witness_GapCheck :
    (numbers 12000).gap 310 = some ⟨20, 60, some 70000, 12000, 0⟩ ∧ 12000 ≤ (numbers 12000).now ∧
      (numbers 11999).now < 12000 ∧ (numbers 12000).gap 311 = none := by decide +kernel

/-- The set of section 5.5 with two valid ways of plan 300. -/
def set77b : MemorySet := ⟨[none, some ⟨0, 300, 2, 2⟩, some ⟨4, 300, 1, 0⟩, none], 0⟩

theorem ready_memory : ready (memory set77b) = true := by decide +kernel

theorem witness_DestinationsLimitAndFlush :
    MemorySound (memory set77b) ∧
      Takes (.writeDest a (some 77) none (some true) (some true)) (memory set77b) (memory set77b) ∧
      Takes (.writeDest a (some 2048) (some 0) (some true) (some true)) (memory set77b) (memory set77b) ∧
      Takes (.writeDest a (some 2047) (some 1024) (some true) (some true)) (memory set77b) (memory set77b) ∧
      Takes (.writeDest a (some 77) (some 1023) (some true) (some true)) (memory set77b) (memory set77b) ∧
      Takes (.setReattemptLimit a none) (memory set77b) (memory set77b) ∧
      Takes (.setReattemptLimit a (some 8)) (memory set77b) (memory set77b) ∧
      Takes (.flushRouteMemory a) (memory set77b) (memory set77b) :=
  ⟨memory_sound, takes ready_memory rfl, takes ready_memory rfl, takes ready_memory rfl, takes ready_memory rfl,
    takes ready_memory rfl, takes ready_memory rfl, takes ready_memory rfl⟩

/-- Every set invalid. -/
theorem empty_memory_sound {s : State} (h : s.memory.sets = .empty) : MemorySound s := by
  have e : ∀ k, s.memorySet k = .initial := fun k => by unfold State.memorySet; rw [h]; rfl
  refine ⟨by rw [h]; rfl, fun k => ?_⟩
  rw [e k]
  refine ⟨rfl, by decide, fun x hx => by simp [MemorySet.initial] at hx, fun i j x y hi => ?_⟩
  rcases i with _ | _ | _ | _ | i <;> simp [MemorySet.initial] at hi

theorem ready_onePlan : ready onePlan = true := by decide +kernel

theorem witness_WritePlan :
    MemorySound onePlan ∧ RoutesSound onePlan ∧ Takes (.writePlan a 1024 []) onePlan onePlan ∧
      Takes (.writePlan a 1023 []) onePlan onePlan ∧
      (Takes (.writePlan a 1023 [⟨some 256, .given .primary, some 0⟩]) onePlan onePlan ∧
        readStep ⟨some 256, .given .primary, some 0⟩ = some ⟨256, .primary, 0⟩) ∧
      (Takes (.writePlan a 50 [⟨some 255, .given .primary, some 7⟩, ⟨some 0, .given .pool, some 0⟩]) onePlan onePlan ∧
        [⟨some 255, .given .primary, some 7⟩, ⟨some 0, .given .pool, some 0⟩].map readStep =
          [⟨255, .primary, 7⟩, ⟨0, .pool, 0⟩].map some) :=
  ⟨empty_memory_sound rfl, onePlan_sound, takes ready_onePlan rfl, takes ready_onePlan rfl,
    ⟨takes ready_onePlan rfl, rfl⟩, ⟨takes ready_onePlan rfl, rfl⟩⟩

/-- A NORMAL call in on group 41 that walks plan 50 of `routes` from a step. -/
def walker (start : Nat) (tried : Bool) : WalkCall :=
  { ref := ⟨17, 3⟩, cls := .normal, inGroup := 41, destination := 77, plan := 50, start := start, poolTried := tried,
    memoryFlag := false }

/-- A step of a short plan is the first eligible one of its kind when no earlier step is. -/
theorem first_eligible {s : State} {c : WalkCall} {kind : StepKind} {i : Nat} {st : PlanStep} (hi : c.start ≤ i)
    (hs : (s.plan c.plan)[i]? = some st) (hk : st.kind = kind) (he : eligible s c st = true)
    (hf : ((s.plan c.plan).take i).all (fun x => decide (x.kind ≠ kind) || !eligible s c x) = true) :
    FirstEligible s c kind i st := by
  refine ⟨hi, hs, hk, he, fun j x _ hj hx hkx => ?_⟩
  have hm : x ∈ (s.plan c.plan).take i := List.mem_of_getElem? (i := j) (by rw [List.getElem?_take_of_lt hj]; exact hx)
  have := List.all_eq_true.mp hf x hm
  simpa [hkx] using this

theorem none_eligible {s : State} {c : WalkCall} {kind : StepKind}
    (hf : (s.plan c.plan).all (fun x => decide (x.kind ≠ kind) || !eligible s c x) = true) : NoneEligible s c kind := by
  intro i st _ hs hk
  have := List.all_eq_true.mp hf st (List.mem_of_getElem? hs)
  simpa [hk] using this

/-- The routes with group 40 of the POOL step full, so that it is not eligible. -/
def poolFull : State := (routes plant).setSvc 40 ⟨.opened, 0, none, .outOfService⟩

/-- The pool try of a call whose destination names another plan is made at the first POOL step. -/
theorem pool_try_first :
    PoolTry (routes plant) (routes plant) { walker 0 false with destination := 78 } 1 false := by
  refine .inr ⟨.inl (by decide +kernel), rfl, rfl, ⟨⟨40, .pool, 1⟩, by decide +kernel, rfl⟩, fun j x h hk => ?_⟩
  rcases j with _ | j
  · have first : ((routes plant).plan (walker 0 false).plan)[0]? = some ⟨41, .primary, 0⟩ := by decide +kernel
    cases first.symm.trans h
    exact nomatch hk
  · omega

theorem witness_EligibleStepsAndTheWalk :
    FirstEligible (routes plant) { walker 0 false with inGroup := 42 } .primary 0 ⟨41, .primary, 0⟩ ∧
      NoneEligible (routes plant) (walker 0 false) .primary ∧
      FirstEligible (routes plant) (walker 2 true) .final 2 ⟨42, .final, 1⟩ ∧
      PoolTry (routes plant) (afterLookup 77 50 (routes plant)) (walker 0 false) 1 true ∧
      eligible (routes plant) (walker 0 false) ⟨40, .pool, 1⟩ = true ∧
      PoolTry (routes plant) (routes plant) { walker 0 false with destination := 78 } 1 false ∧
      (PlantSound poolFull ∧ MemorySound poolFull ∧ NoneEligible poolFull (walker 0 false) .primary ∧
        eligible poolFull (walker 0 false) ⟨40, .pool, 1⟩ = false ∧
        FirstEligible poolFull (walker 0 false) .final 2 ⟨42, .final, 1⟩ ∧
        NoneEligible poolFull { walker 0 false with inGroup := 42 } .final) :=
  ⟨first_eligible (by decide) (by decide +kernel) rfl (by decide +kernel) (by decide +kernel),
    none_eligible (by decide +kernel),
    first_eligible (by decide) (by decide +kernel) rfl (by decide +kernel) (by decide +kernel),
    .inl ⟨by decide +kernel, .inr (by decide +kernel), rfl, rfl⟩, by decide +kernel, pool_try_first,
    ⟨PlantSound.of_plant rfl plant_sound, empty_memory_sound rfl, none_eligible (by decide +kernel), by decide +kernel,
      first_eligible (by decide) (by decide +kernel) rfl (by decide +kernel) (by decide +kernel),
      none_eligible (by decide +kernel)⟩⟩

theorem witness_EligibleStepsAndTheWalk_legs :
    PlantSound (routes plant) ∧ MemorySound (routes plant) ∧ (routes plant).plan 50 = steps50 ∧
      ((walk (walker 0 false) steps50 (routes plant)).leg.map (fun n => (n.stepIndex, n.circuit)) = some (1, 1000)) ∧
      ((walk (walker 2 true) steps50 (routes plant)).leg.map (fun n => (n.stepIndex, n.circuit)) = some (2, 3000)) ∧
      (walker 2 true).poolTried = true ∧
      (onePlan.plan 50 = [⟨40, .primary, 7⟩] ∧ eligible onePlan (walker 0 false) ⟨40, .primary, 7⟩ = true) ∧
      PlantSound onePlan ∧ MemorySound onePlan :=
  ⟨PlantSound.of_plant rfl plant_sound, empty_memory_sound rfl, by decide +kernel, by decide +kernel, by decide +kernel,
    rfl, ⟨by decide +kernel, by decide +kernel⟩, PlantSound.of_plant rfl plant_sound, empty_memory_sound rfl⟩

theorem witness_LookupAndAllocation :
    MemorySound (memory set77b) ∧ (memory set77b).memorySet (77 % 256) = set77b ∧
      set77b.ways[1]? = some (some ⟨0, 300, 2, 2⟩) ∧ 77 / 256 = 0 ∧ set77b.ways[0]? = some none ∧
      (∀ e, some e ∈ set77b.ways → e.tag ≠ 2125 / 256) ∧ 2125 % 256 = 77 ∧
      ((memory set77b).dest 2125).plan = 0 ∧ (memory set77b).gap 2125 = none ∧
      (((memory set77b).plan 300)[2]? = some ⟨21, .pool, 1⟩ ∧ ((memory set77b).group 21).map (·.carrier) = some 6 ∧
        ((memory set77b).tariff.live.tariffs.entry 6 1).rate (bandInForce (memory set77b)) = 7500) := by
  refine ⟨memory_sound, by decide +kernel, rfl, rfl, rfl, fun e he => ?_, rfl, by decide +kernel, by decide +kernel,
    by decide +kernel⟩
  simp [set77b] at he
  rcases he with rfl | rfl <;> decide

theorem witness_MemoryOutcomes :
    MemorySound (memory set77b) ∧ (memory set77b).memorySet (77 % 256) = set77b ∧
      (set77b.ways[1]? = some (some ⟨0, 300, 2, 2⟩) ∧ 0 < 2) ∧
      (set77b.ways[2]? = some (some ⟨4, 300, 1, 0⟩) ∧ 1101 / 256 = 4 ∧ 1101 % 256 = 77 ∧
        ((memory set77b).plan 300)[2]? = some ⟨21, .pool, 1⟩ ∧
        ∀ (k : Nat) (x : PlanStep), 1 < k → ((memory set77b).plan 300)[k]? = some x → x.kind = .pool → 2 ≤ k) ∧
      ∀ e, some e ∈ set77b.ways → e.tag = 77 / 256 → ¬(e.plan = 300 ∧ e.member = 3) := by
  refine ⟨memory_sound, by decide +kernel, ⟨rfl, by decide⟩, ⟨rfl, rfl, rfl, by decide +kernel, fun k _ h _ _ => h⟩,
    fun e he ht => ?_⟩
  simp [set77b] at he
  rcases he with rfl | rfl <;> simp at ht ⊢

theorem ready_withCall (c : Call) : ready (withCall c) = true := ready_of ready_busy rfl rfl

theorem ready_withOrphan (t : Nat) : ready (withOrphan t) = true := ready_of (ready_withCall orphaned) rfl rfl

theorem witness_QueriesOfRoutingAndCalls :
    Takes (.queryDrain a) plant plant ∧ Takes (.queryGap a (.one 2048)) plant plant ∧
      Takes (.queryGap a (.one 2047)) plant plant ∧ Takes (.queryGap a .all) plant plant ∧
      Takes (.queryPlan a 1024) plant plant ∧ Takes (.queryPlan a 1023) plant plant ∧
      Takes (.queryRouteMemory a none none) plant plant ∧ Takes (.queryRouteMemory a (some 2048) none) plant plant ∧
      Takes (.queryRouteMemory a (some 2047) none) plant plant ∧ Takes (.queryRouteMemory a none (some 256)) plant plant ∧
      Takes (.queryRouteMemory a none (some 255)) plant plant ∧ Takes (.queryCall a ⟨8192, 0⟩) plant plant ∧
      (Takes (.queryCall a ⟨8191, 0⟩) plant plant ∧ plant.call ⟨8191, 0⟩ = none) ∧
      (Takes (.queryCall a ⟨17, 3⟩) (withCall call) (withCall call) ∧ (withCall call).call ⟨17, 3⟩ = some call) :=
  ⟨takes ready_plant rfl, takes ready_plant rfl, takes ready_plant rfl, takes ready_plant rfl, takes ready_plant rfl,
    takes ready_plant rfl, takes ready_plant rfl, takes ready_plant rfl, takes ready_plant rfl, takes ready_plant rfl,
    takes ready_plant rfl, takes ready_plant rfl, ⟨takes ready_plant rfl, by decide +kernel⟩,
    ⟨takes (ready_withCall call) rfl, by decide +kernel⟩⟩

/-! ### Chapter 6 -/

/-- The first slots of the call table in use. -/
def callsIn (m : Nat) : State :=
  { busy with calls := { busy.calls with slots := ⟨(List.range' 0 m).map (fun k => (k, ⟨0, some call⟩))⟩ } }

theorem lookupIn_range (m : Nat) (d v : Slot) (f : Nat) (k : Nat) (h1 : f ≤ k) (h2 : k < f + m) :
    lookupIn d ((List.range' f m).map (fun i => (i, v))) k = v := by
  induction m generalizing f with
  | zero => omega
  | succ m ih =>
    rw [List.range'_succ, List.map_cons, lookupIn]
    by_cases e : f = k
    · simp [e]
    · rw [if_neg e, if_neg (by omega)]
      exact ih (f + 1) (by omega) (by omega)

theorem callsIn_slot (m k : Nat) (h : k < m) : ((callsIn m).slot k).call.isSome = true := by
  have : (callsIn m).slot k = ⟨0, some call⟩ := lookupIn_range m Slot.free ⟨0, some call⟩ 0 k (by omega) (by omega)
  rw [this]
  rfl

theorem ready_callsIn (m : Nat) : ready (callsIn m) = true := ready_of ready_busy rfl rfl
theorem callsIn_sound (m : Nat) : PlantSound (callsIn m) := PlantSound.of_plant rfl busy_sound

/-- The busy plant with the owner of 1,000's leg in a state. -/
def ownedBy (x : CallState) : State := withCall { call with state := x }

/-- The OFFER of port A in on circuit 1,003, taken up to the end of its walk, with slot 0 held. -/
def offered : State := after (.offer ⟨a, .walk⟩ 1003 [4] (.given .normal)) (withCall call)

theorem witness_OfferChecks :
    PlantSound busy ∧ Takes (.offer ⟨a, .walk⟩ 16384 [9] (.given .normal)) busy busy ∧ OfferPart.walk ≠ .keep ∧ Takes (.offer ⟨a, .whole⟩ 0 [] (.given .normal)) busy busy ∧
      Takes (.offer ⟨a, .whole⟩ 0 (List.replicate 25 1) (.given .normal)) busy busy ∧ Takes (.offer ⟨a, .whole⟩ 0 [10] (.given .normal)) busy busy ∧
      Takes (.offer ⟨a, .whole⟩ 0 [9] .absent) busy busy ∧ Takes (.offer ⟨a, .whole⟩ 16384 (List.replicate 24 0) (.given .priority)) busy busy ∧
      (PlantSound (callsIn 8192) ∧ Takes (.offer ⟨a, .whole⟩ 16383 [1] (.given .normal)) (callsIn 8192) (callsIn 8192) ∧
        ∀ k, k < 8192 → ((callsIn 8192).slot k).call.isSome = true) ∧
      (Takes (.offer ⟨a, .whole⟩ 16383 [1] (.given .normal)) busy busy ∧ busy.circuit 16383 = none) ∧
      (Takes (.offer ⟨a, .whole⟩ 3000 [1] (.given .normal)) busy busy ∧ (busy.group 42).map (·.direction) = some .outOnly ∧
        busy.circuit 3000 = some ⟨42, false, false, .idle⟩) ∧
      (Takes (.offer ⟨a, .whole⟩ 1003 [1] (.given .normal)) (draining busy) (draining busy) ∧
        ((draining busy).svc 40).service = .draining) ∧
      (Takes (.offer ⟨a, .whole⟩ 1001 [1] (.given .normal)) busy busy ∧
        busy.circuit 1001 = some ⟨40, false, false, .busyIn ⟨205, 1⟩⟩) ∧
      (Takes (.offer ⟨a, .whole⟩ 1000 [1] (.given .normal)) (ownedBy .proceeding) (ownedBy .proceeding) ∧
        ((ownedBy .proceeding).call ⟨17, 3⟩).map (·.state) = some .proceeding) ∧
      (Takes (.offer ⟨a, .whole⟩ 1000 [1] (.given .normal)) (ownedBy .routed) (ownedBy .routed) ∧
        (ownedBy .routed).circuit 1000 = some ⟨40, false, false, .busyOut ⟨17, 3⟩⟩ ∧
        ((ownedBy .routed).group 40).map (·.glare) = some .winEven ∧ 1000 % 2 = 0) :=
  ⟨busy_sound, takes ready_busy rfl, by decide, takes ready_busy rfl, takes ready_busy rfl, takes ready_busy rfl,
    takes ready_busy rfl, takes ready_busy rfl, ⟨callsIn_sound _, takes (ready_callsIn _) rfl, callsIn_slot _⟩,
    ⟨takes ready_busy rfl, by decide +kernel⟩, ⟨takes ready_busy rfl, by decide +kernel, by decide +kernel⟩,
    ⟨takes (by decide +kernel) rfl, by decide +kernel⟩, ⟨takes ready_busy rfl, by decide +kernel⟩,
    ⟨takes (ready_withCall _) rfl, by decide +kernel⟩,
    ⟨takes (ready_withCall _) rfl, by decide +kernel, by decide +kernel, rfl⟩⟩

/-- The state with destination 77 gapped, or carrier 12 on hold. -/
def gapped : State :=
  { withCall call with analyser := { (withCall call).analyser with gaps := Table.empty.set 77 (some ⟨1, 0, none, 10001, 0⟩) } }

/-- Carrier 12 on hold. -/
def onHold : State := (withCall call).setCarrier 12 ⟨9, 9, true⟩

theorem ready_gapped : ready gapped = true := ready_of (ready_withCall call) rfl rfl
theorem ready_onHold : ready onHold = true := ready_of (ready_withCall call) rfl rfl

theorem witness_OfferRoutes :
    (PlantSound (withCall call) ∧ Takes (.offer ⟨a, .whole⟩ 1003 [4] (.given .normal)) (withCall call) (withCall call) ∧
        ((withCall call).slot 0).call = none ∧ (withCall call).circuit 1003 = some ⟨40, false, false, .idle⟩ ∧
        (withCall call).circuit 1002 = some ⟨40, false, false, .guard 10500⟩ ∧
        ((withCall call).group 40).map (·.direction) = some .both ∧
        ((withCall call).svc 40).service = .inService ∧
        findTarget (withCall call) [4] = .ok ⟨77, 50, 1⟩ ∧ gapAdmits (withCall call) 77 .normal = true ∧
        ((withCall call).carrier 12).hold = false) ∧
      findTarget (withCall call) [5] = .error .noRoute ∧
      ((withCall call |> changeCircuit 1001 (fun e => { e with occupancy := .busyOut ⟨17, 3⟩ })).circuit 1001 =
          some ⟨40, false, false, .busyOut ⟨17, 3⟩⟩ ∧ 1001 % 2 = 1) ∧
      (PlantSound gapped ∧ Takes (.offer ⟨a, .whole⟩ 1003 [4] (.given .normal)) gapped gapped ∧
        gapAdmits gapped 77 .normal = false) ∧
      (PlantSound onHold ∧ Takes (.offer ⟨a, .whole⟩ 1003 [4] (.given .normal)) onHold onHold ∧ (onHold.carrier 12).hold = true) :=
  ⟨⟨withCall_sound call, takes (ready_withCall _) rfl, by decide +kernel, by decide +kernel, by decide +kernel,
      by decide +kernel, by decide +kernel, by rfl, by decide +kernel, by decide +kernel⟩, by rfl,
    ⟨by decide +kernel, rfl⟩,
    ⟨PlantSound.of_plant rfl busy_sound, takes ready_gapped rfl, by decide +kernel⟩,
    ⟨PlantSound.of_plant rfl busy_sound, takes ready_onHold rfl, by decide +kernel⟩⟩

/-- The record that `offered` holds for the call 0/0. -/
def offerRecord : Call :=
  { call with inCircuit := 1003, inGroup := 40, inCarrier := 12, leg := some ⟨2000, 41, 5, false, false⟩, stepIndex := 0,
              stepKind := .primary, tariffClass := 0, poolTried := false, memoryFlag := false }

/-- An OFFER in progress of port A, with what has come about meanwhile. -/
def inProgress (displaced noted discarded : Bool) (loss : Option (Option Port)) : OfferInProgress :=
  ⟨a, 1003, [4], .given .normal, ⟨0, 0⟩, offerRecord, displaced, noted, discarded, loss⟩

/-- The plant with that OFFER, and with another record for port A. -/
def held (o : OfferInProgress) (r : PortRecord) : State :=
  { plant with calls := { plant.calls with offers := [o] }, ports := ⟨r, portUp, .initial, .initial⟩ }

theorem held_sound {o : OfferInProgress} (r : PortRecord) (h : ∃ x y z l, o = inProgress x y z l) :
    CallsSound (held o r) := by
  obtain ⟨x, y, z, l, rfl⟩ := h
  have e : ∀ k, (held (inProgress x y z l) r).slot k = .free := fun k => by
    unfold State.slot
    rw [show (held (inProgress x y z l) r).calls.slots = plant.calls.slots from rfl,
      show plant.calls.slots = .empty by decide +kernel]
    rfl
  have ho : (held (inProgress x y z l) r).calls.orphans = [] :=
    show plant.calls.orphans = [] by decide +kernel
  refine ⟨show plant.calls.slots.wf = true by decide +kernel, show plant.calls.orphanLimit ≤ 3600 by decide +kernel,
    by rw [ho]; exact List.nodup_nil, fun k => ?_, fun k => ?_, fun k c h => ?_, List.nodup_singleton _, fun w h => ?_⟩
  · rw [e]; decide
  · rw [e, ho]; exact ⟨fun h => absurd h List.not_mem_nil, fun ⟨_, h, _⟩ => nomatch h⟩
  · rw [e] at h; exact nomatch h
  · rw [List.mem_singleton.mp h, e]
    exact ⟨show 0 < 8192 by decide, rfl, rfl, rfl, rfl⟩

theorem witness_OfferRoutes_parts :
    (PlantSound (withCall call) ∧ Takes (.offer ⟨a, .walk⟩ 1003 [4] (.given .normal)) (withCall call) (withCall call) ∧
        (withCall call).calls.offers = []) ∧
      (CallsSound (withOrphan 1) ∧ ∀ o ∈ (withOrphan 1).calls.offers, ¬o.sender = a) ∧
      (∀ x y z l r, CallsSound (held (inProgress x y z l) r) ∧
        (held (inProgress x y z l) r).calls.offers.find?
          (fun o => decide (o.sender = a ∧ o.circuit = 1003 ∧ o.digits = [4] ∧ o.cls = .given .normal)) =
          some (inProgress x y z l)) ∧
      (∀ o, (((held o portUp).port .a).state ≠ .down) ∧ ((held o .initial).port .a).state = .down ∧
        (held o .initial).calls.losses = [] ∧ ((held o .initial).port .b).state = .up ∧
        ((held o .initial).port .c).state ≠ .up) ∧
      (inProgress false true true (some (some .b))).loss = some (some .b) ∧
      (inProgress true false true (some (some .c))).loss = some (some .c) ∧
      (inProgress false false true none).noted = false :=
  ⟨⟨withCall_sound _, takes (ready_withCall _) rfl, show busy.calls.offers = [] by decide +kernel⟩,
    ⟨withOrphan_sound _, fun o h => absurd h (by rw [show (withOrphan 1).calls.offers = busy.calls.offers from rfl,
      show busy.calls.offers = [] by decide +kernel]; exact List.not_mem_nil)⟩,
    fun x y z l r => ⟨held_sound r ⟨x, y, z, l, rfl⟩, rfl⟩,
    fun o => ⟨show portUp.state ≠ .down by decide, rfl, show plant.calls.losses = [] by decide +kernel, rfl,
      show PortRecord.initial.state ≠ .up by decide⟩, rfl, rfl, rfl⟩

theorem witness_InboundSeizureAndUndo :
    PlantSound (withCall call) ∧ (withCall call).circuit 1003 = some ⟨40, false, false, .idle⟩ ∧
      ((withCall call).group 40).isSome = true ∧ (withCall call).call ⟨17, 3⟩ = some call ∧
      (withCall call).call ⟨0, 0⟩ = none :=
  ⟨withCall_sound call, by decide +kernel, by decide +kernel, by decide +kernel, by decide +kernel⟩

theorem witness_AcceptedAndAnswer :
    (Takes (.accepted a ⟨8192, 0⟩) plant plant ∧ Takes (.accepted a ⟨8191, 0⟩) plant plant ∧
        plant.call ⟨8191, 0⟩ = none) ∧
      (Takes (.accepted a ⟨17, 3⟩) (withCall { call with owner := some .b }) (withCall { call with owner := some .b })) ∧
      (Takes (.accepted a ⟨17, 3⟩) (ownedBy .answered) (ownedBy .answered)) ∧
      (Takes (.accepted a ⟨17, 3⟩) (withCall call) (withCall call) ∧ (withCall call).call ⟨17, 3⟩ = some call ∧
        call.owner = some a.port ∧ call.state = .routed ∧ call.reselectionPending = false) ∧
      (Takes (.answer a ⟨17, 3⟩) (withCall call) (withCall call) ∧
        Takes (.answer a ⟨17, 3⟩) (ownedBy .proceeding) (ownedBy .proceeding)) ∧
      Takes (.answer a ⟨17, 3⟩) (ownedBy .unrouted) (ownedBy .unrouted) ∧ Takes (.answer a ⟨8192, 0⟩) plant plant :=
  ⟨⟨takes ready_plant rfl, takes ready_plant rfl, by decide +kernel⟩, takes (ready_withCall _) rfl,
    takes (ready_withCall _) rfl, ⟨takes (ready_withCall _) rfl, by decide +kernel, rfl, rfl, rfl⟩,
    ⟨takes (ready_withCall _) rfl, takes (ready_withCall _) rfl⟩, takes (ready_withCall _) rfl, takes ready_plant rfl⟩

theorem witness_ReattemptReselects :
    (Takes (.reattempt a ⟨8192, 0⟩ .absent none) plant plant ∧ Takes (.reattempt a ⟨8191, 0⟩ .absent none) plant plant) ∧
      Takes (.reattempt a ⟨17, 3⟩ (.given .glareYield) none) (withCall call) (withCall call) ∧
      Takes (.reattempt a ⟨17, 3⟩ (.given .normal) none) (ownedBy .answered) (ownedBy .answered) ∧
      (Takes (.reattempt a ⟨17, 3⟩ (.given .farCongested) (some 4)) (withCall call) (withCall call) ∧
        (withCall call).call ⟨17, 3⟩ = some call ∧ call.leg.isSome = true) ∧
      ((withCall { call with reattempts := 3 }).routes.reattemptLimit < 4 ∧
        (withCall { call with reattempts := 2 }).routes.reattemptLimit = 3) ∧
      ((walk (reselectionCall ⟨17, 3⟩ { call with stepIndex := 1 }) steps50 (withCall call)).leg.isSome = true ∧
        (walk (reselectionCall ⟨17, 3⟩ { call with stepIndex := 2 }) steps50 (withCall call)).leg = none) :=
  ⟨⟨takes ready_plant rfl, takes ready_plant rfl⟩, takes (ready_withCall _) rfl, takes (ready_withCall _) rfl,
    ⟨takes (ready_withCall _) rfl, by decide +kernel, rfl⟩, by decide +kernel, by decide +kernel⟩

theorem ready_withAnswered : ready withAnswered = true := ready_of (ready_withCall answered) rfl rfl
theorem withAnswered_sound : PlantSound withAnswered := PlantSound.of_plant rfl busy_sound

theorem witness_ReleaseEndsCall :
    Takes (.release a ⟨8192, 0⟩ .absent) plant plant ∧
      Takes (.release a ⟨17, 3⟩ (.given .portLost)) withAnswered withAnswered ∧
      Takes (.release a ⟨17, 3⟩ (.given .normal)) (withCall { call with owner := some .b })
        (withCall { call with owner := some .b }) ∧
      (Takes (.release a ⟨17, 3⟩ (.given .normal)) withAnswered withAnswered ∧ PlantSound withAnswered ∧
        withAnswered.call ⟨17, 3⟩ = some answered ∧ answered.owner = some a.port ∧ answered.state = .answered ∧
        answered.answer = some ⟨9100, none, 0⟩ ∧ answered.leg.isSome = true ∧
        tariffsOf withAnswered 0 = some .initial ∧ withAnswered.tariff.live.number = 0) ∧
      (Takes (.release a ⟨17, 3⟩ (.given .normal)) (withOrphan 60000) (withOrphan 60000) ∧
        (withOrphan 60000).call ⟨17, 3⟩ = some orphaned ∧ orphaned.owner = none) ∧
      (PlantSound (withCall call) ∧ (withCall call).call ⟨17, 3⟩ = some call ∧ call.state ≠ .answered) ∧
      ((clocked 0 .empty).tariff.live.number ≠ 40 ∧ (clocked 0 .empty).tariff.retired = some ⟨40, 1, .initial⟩ ∧
        (clocked 0 .empty).tariff.staging.state ≠ .held) :=
  ⟨takes ready_plant rfl, takes ready_withAnswered rfl, takes (ready_withCall _) rfl,
    ⟨takes ready_withAnswered rfl, withAnswered_sound, by decide +kernel, rfl, rfl, rfl, rfl,
      by decide +kernel, by decide +kernel⟩,
    ⟨takes (ready_withOrphan _) rfl, by decide +kernel, rfl⟩, ⟨withCall_sound _, by decide +kernel, by decide⟩,
    by decide +kernel⟩

theorem witness_OrphanRequests :
    (CallsSound (withOrphan 60000) ∧ Takes (.adopt a .absent) (withOrphan 60000) (withOrphan 60000) ∧
        Takes (.adopt a .undefined) (withOrphan 60000) (withOrphan 60000) ∧
        Takes (.adopt a (.given .b)) (withOrphan 60000) (withOrphan 60000)) ∧
      (Takes (.setOrphanLimit a none) (withOrphan 60000) (withOrphan 60000) ∧
        Takes (.setOrphanLimit a (some 3601)) (withOrphan 60000) (withOrphan 60000) ∧
        Takes (.setOrphanLimit a (some 51)) (withOrphan 60000) (withOrphan 60000)) ∧
      (orphanList (withOrphan 129000) = [17] ∧ deadlineOf (withOrphan 129000) 17 = 129000 ∧
        (withOrphan 129000).now = 129000) ∧
      (withOrphan 128999).now < deadlineOf (withOrphan 128999) 17 :=
  ⟨⟨withOrphan_sound _, takes (ready_withOrphan _) rfl, takes (ready_withOrphan _) rfl, takes (ready_withOrphan _) rfl⟩,
    ⟨takes (ready_withOrphan _) rfl, takes (ready_withOrphan _) rfl, takes (ready_withOrphan _) rfl⟩, by decide +kernel,
    by decide +kernel⟩

theorem ready_bound (n : Nat) (s : TariffStore) : ready (bound n s) = true :=
  ready_of (t := legs) (by decide +kernel) rfl rfl

theorem bound_batch (n : Nat) (s : TariffStore) : BatchSound (bound n s) :=
  no_batch_sound (show legs.service.batch = .empty by decide +kernel) (show legs.service.groups = .empty by decide +kernel)

theorem witness_ClearTrafficEndsEveryCall :
    (∀ n s, PlantSound (bound n s) ∧ CallsSound (bound n s) ∧ LegsSound (bound n s) ∧ LevelsSound (bound n s) ∧
        BatchSound (bound n s) ∧ Takes (.clearTraffic a) (bound n s) (bound n s)) ∧
      (TariffSound boundLive ∧ ReferencesSound boundLive ∧ boundLive.tariff.staging.state ≠ .held ∧
        (clearedPrice boundLive 17).isSome = true) ∧
      (TariffSound boundRetired ∧ ReferencesSound boundRetired ∧ boundRetired.tariff.staging.state = .held ∧
        boundRetired.tariff.retired = some ⟨40, 1, .initial⟩ ∧
        boundRetired.tariff.staging.generation = some ⟨42, .initial⟩ ∧ (clearedPrice boundRetired 17).isSome = true) :=
  ⟨fun n s => ⟨PlantSound.of_plant rfl legs_plant_sound, bound_calls n s, bound_legs n s, bound_levels n s,
      bound_batch n s, takes (ready_bound n s) rfl⟩,
    ⟨boundLive_tariff, boundLive_references, by decide, by decide +kernel⟩,
    ⟨boundRetired_tariff, boundRetired_references, rfl, rfl, rfl, by decide +kernel⟩⟩

/-- The state with the displaced call 17/3 and its reselection queued. -/
def displaced : State :=
  { withCall { call with leg := none, reselectionPending := true } with
    calls := { (withCall { call with leg := none, reselectionPending := true }).calls with reselections := [⟨17, 3⟩] } }

/-- The orphan's state with items handed to the call table. -/
def handedOver (ls : List PortLoss) (gs : List (List Nat)) : State :=
  { withOrphan 60000 with calls := { (withOrphan 60000).calls with losses := ls, releaseLists := gs } }

theorem witness_CallTableEvents :
    (⟨17, 3⟩ ∈ displaced.calls.reselections ∧ (displaced.call ⟨17, 3⟩).isSome = true ∧
        ((reselect ⟨17, 3⟩ .glareYield displaced).call ⟨17, 3⟩).map (fun x => (x.owner, x.leg.isSome)) =
          some (some .a, true)) ∧
      (⟨17, 4⟩ : CallRef) ∉ displaced.calls.reselections ∧
      (CallsSound (handedOver [] [[40], []]) ∧ (handedOver [] [[40], []]).calls.releaseLists = [40] :: [[]]) ∧
      (CallsSound (handedOver [⟨.c, some .a, some 3⟩] []) ∧
        (handedOver [⟨.c, some .a, some 3⟩] []).calls.losses.find? (fun x => decide (x.port = .c)) =
          some ⟨.c, some .a, some 3⟩ ∧
        ((handedOver [⟨.c, some .a, some 3⟩] []).port .a).state = .up) ∧
      (handedOver [⟨.a, some .d, none⟩] []).calls.losses.find? (fun x => decide (x.port = .a)) =
        some ⟨.a, some .d, none⟩ ∧ ((handedOver [⟨.a, some .d, none⟩] []).port .d).state ≠ .up ∧
      ∀ l ∈ (withOrphan 60000).calls.losses, l.port ≠ .a :=
  ⟨by decide +kernel, by decide, ⟨withOrphan_sound 60000, rfl⟩, ⟨withOrphan_sound 60000, by decide, by decide +kernel⟩,
    by decide, by decide +kernel, fun l h => by
      rw [show (withOrphan 60000).calls.losses = [] from rfl] at h; exact absurd h List.not_mem_nil⟩

/-! ### Chapters 7 and 8 -/

theorem ready_clocked (w : Nat) (t : Staging) : ready (clocked w t) = true := ready_of ready_plant rfl rfl

theorem witness_Clocks :
    (Takes (.setClock a none (some 0)) plant plant ∧ Takes (.setClock a (some 7) (some 0)) plant plant ∧
        Takes (.setClock a (some 6) (some 86400000)) plant plant ∧
        Takes (.setClock a (some 6) (some 86399999)) plant plant ∧ plant.tariff.staging.state ≠ .scheduled) ∧
      (Takes (.setClock a (some 2) (some 65100000)) (clocked 236500000 (scheduled 1100000))
          (clocked 236500000 (scheduled 1100000)) ∧
        (clocked 236500000 (scheduled 1100000)).tariff.staging = scheduled 1100000 ∧ 0 < 1100000 ∧
        (2 * 86400000 + 65100000 + 604800000 - 236500000) % 604800000 = 1400000) ∧
      (Takes (.setClock a (some 2) (some 63000000)) (clocked 236500000 (scheduled 1100000))
          (clocked 236500000 (scheduled 1100000)) ∧
        (2 * 86400000 + 63000000 + 604800000 - 236500000) % 604800000 = 604100000) ∧
      (Takes (.setClock a (some 2) (some 65100000)) (clocked 237600000 (scheduled 0)) (clocked 237600000 (scheduled 0)) ∧
        (clocked 237600000 (scheduled 0)).tariff.staging.advance = some 0 ∧
        (clocked 237600000 (scheduled 0)).tariff.weekTime = some 237600000) :=
  ⟨⟨takes ready_plant rfl, takes ready_plant rfl, takes ready_plant rfl, takes ready_plant rfl, by decide +kernel⟩,
    ⟨takes (ready_clocked _ _) rfl, rfl, by decide, rfl⟩, ⟨takes (ready_clocked _ _) rfl, rfl⟩,
    ⟨takes (ready_clocked _ _) rfl, rfl, rfl⟩⟩

theorem witness_StageOpenAbortAndLoss :
    (Takes (.stageOpen a) plant plant ∧ plant.tariff.staging.state = .none) ∧
      (Takes (.stageOpen a) (clocked 0 staged) (clocked 0 staged) ∧ (clocked 0 staged).tariff.staging.state ≠ .none) ∧
      (Takes (.stageAbort a) plant plant ∧ Takes (.stageAbort a) (clocked 0 { staged with holder := some .b })
        (clocked 0 { staged with holder := some .b })) ∧
      (Takes (.stageAbort a) (clocked 0 staged) (clocked 0 staged) ∧
        (clocked 0 staged).tariff.staging.holder = some a.port) ∧
      Port.a ∈ { plant with tariff := { plant.tariff with losses := [.a] } : State }.tariff.losses ∧
      Port.b ∉ { plant with tariff := { plant.tariff with losses := [.a] } : State }.tariff.losses :=
  ⟨⟨takes ready_plant rfl, by decide +kernel⟩, ⟨takes (ready_clocked _ _) rfl, by decide⟩,
    ⟨takes ready_plant rfl, takes (ready_clocked _ _) rfl⟩, ⟨takes (ready_clocked _ _) rfl, rfl⟩, by decide, by decide⟩

/-- The values of one tariff entry, each out of its range. -/
def allHigh : TariffFields :=
  ⟨some 16777216, some 16777216, some 16777216, some 16777216, some 16777216, some 0, some 601, some 1001, some 1001,
    some 1099511627776⟩

theorem witness_StagingWrites :
    (Takes (.stageWriteMargin a 0 (some 0)) plant plant ∧ plant.tariff.staging.state = .none) ∧
    (clocked 0 staged).tariff.staging.generation = some ⟨42, .initial⟩ ∧
      ((clocked 0 staged).tariff.staging.state = .opened ∧ (clocked 0 staged).tariff.staging.holder = some a.port) ∧
      (Takes (.stageWriteTariff a 64 7 allHigh) (clocked 0 staged) (clocked 0 staged) ∧
        Takes (.stageWriteTariff a 63 8 allHigh) (clocked 0 staged) (clocked 0 staged) ∧
        Takes (.stageWriteTariff a 63 7 allHigh) (clocked 0 staged) (clocked 0 staged) ∧ allHigh.any = true) ∧
      (Takes (.stageWriteMargin a 64 none) (clocked 0 staged) (clocked 0 staged) ∧
        Takes (.stageWriteMargin a 63 (some 2001)) (clocked 0 staged) (clocked 0 staged)) ∧
      (Takes (.stageWriteSchedule a (.given .workday) 0 []) (clocked 0 staged) (clocked 0 staged) ∧
        Takes (.stageWriteSchedule a (.given .workday) 48 ([Band.band1].map .given)) (clocked 0 staged) (clocked 0 staged) ∧
        Takes (.stageWriteSchedule a (.given .workday) 47 ([Band.band1].map .given)) (clocked 0 staged) (clocked 0 staged) ∧
        Takes (.stageWriteSchedule a (.given .workday) 0 ((List.replicate 48 Band.band1).map .given)) (clocked 0 staged)
          (clocked 0 staged)) ∧
      (Takes (.stageWriteWeek a []) (clocked 0 staged) (clocked 0 staged) ∧
        Takes (.stageWriteWeek a [(7, .given .restday)]) (clocked 0 staged) (clocked 0 staged) ∧
        Takes (.stageWriteWeek a ([(6, DayType.restday), (0, DayType.restday)].map (fun x => (x.1, .given x.2))))
          (clocked 0 staged) (clocked 0 staged)) ∧
      (Takes (.stageWriteMargin a 63 (some 0)) (clocked 0 (scheduled 1)) (clocked 0 (scheduled 1)) ∧
        (clocked 0 (scheduled 1)).tariff.staging.generation = some ⟨42, .initial⟩ ∧
        (clocked 0 (scheduled 1)).tariff.staging.state ≠ .opened) :=
  ⟨⟨takes ready_plant rfl, by decide +kernel⟩, rfl, ⟨rfl, rfl⟩,
    ⟨takes (ready_clocked _ _) rfl, takes (ready_clocked _ _) rfl, takes (ready_clocked _ _) rfl, rfl⟩,
    ⟨takes (ready_clocked _ _) rfl, takes (ready_clocked _ _) rfl⟩,
    ⟨takes (ready_clocked _ _) rfl, takes (ready_clocked _ _) rfl, takes (ready_clocked _ _) rfl,
      takes (ready_clocked _ _) rfl⟩,
    ⟨takes (ready_clocked _ _) rfl, takes (ready_clocked _ _) rfl, takes (ready_clocked _ _) rfl⟩,
    ⟨takes (ready_clocked _ _) rfl, rfl, by decide⟩⟩

/-- The clocked state with the retired bank free of references. -/
def freed (w : Nat) (t : Staging) : State :=
  { clocked w t with tariff := { (clocked w t).tariff with retired := some ⟨40, 0, .initial⟩ } }

theorem ready_freed (w : Nat) (t : Staging) : ready (freed w t) = true := ready_of (ready_clocked w t) rfl rfl

theorem witness_Activation :
    (Takes (.stageActivate a none) plant plant ∧ Takes (.stageActivate a (some (.at 604800000))) plant plant ∧
        Takes (.stageActivate a (some .now)) plant plant ∧ plant.tariff.staging.state = .none ∧
        Takes (.stageActivate a (some .now)) (clocked 0 (scheduled 1)) (clocked 0 (scheduled 1)) ∧
        plant.tariff.weekTime = none) ∧
      (Takes (.stageActivate a (some .now)) (clocked 0 staged) (clocked 0 staged) ∧
        (clocked 0 staged).tariff.retired = some ⟨40, 1, .initial⟩) ∧
      (Takes (.stageActivate a (some (.at 604799999))) (freed 604799999 staged) (freed 604799999 staged) ∧
        (freed 604799999 staged).tariff.weekTime = some 604799999 ∧
        ∀ b, (freed 604799999 staged).tariff.retired = some b → b.references = 0) ∧
      (Takes (.stageActivate a (some (.at 604799999))) (clocked 0 staged) (clocked 0 staged) ∧ 604799999 ≠ 0) ∧
      ((clocked 0 (scheduled 0)).tariff.staging.state = .scheduled ∧
        (clocked 0 (scheduled 0)).tariff.staging.advance = some 0 ∧
        (clocked 0 (scheduled 1)).tariff.staging.advance ≠ some 0) ∧
      (clocked 0 { staged with state := .held }).tariff.retired = some ⟨40, 1, .initial⟩ ∧
      40 ≠ (clocked 0 { staged with state := .held }).tariff.live.number ∧
      MemorySound (freed 0 staged) :=
  ⟨⟨takes ready_plant rfl, takes ready_plant rfl, takes ready_plant rfl, by decide +kernel,
      takes (ready_clocked _ _) rfl, by decide +kernel⟩,
    ⟨takes (ready_clocked _ _) rfl, rfl⟩,
    ⟨takes (ready_freed _ _) rfl, rfl, fun b h => by
      rw [show (freed 604799999 staged).tariff.retired = some ⟨40, 0, .initial⟩ from rfl] at h
      cases h
      rfl⟩,
    ⟨takes (ready_clocked _ _) rfl, by decide⟩, by decide +kernel, rfl, by decide, empty_memory_sound rfl⟩

theorem witness_PricingStages :
    (tariffs88.entry 12 1).nextIncrement = 6 ∧ 1 ≤ (tariffs88.entry 12 1).nextIncrement ∧ 0 < (tariffs89.entry 9 3).cap := by
  decide +kernel

theorem witness_BandSplitCountsMilliseconds :
    (237510000 < 604800000 ∧ 187400 ≤ 86400000 ∧ (187400 + 999) / 1000 ≤ 192 ∧
        bandSplit tariffs88 (some 237510000) 187400 192 = ⟨90, 102, 0, 0⟩) ∧
      (604799999 < 604800000 ∧ (0 + 999) / 1000 ≤ 0 ∧ bandSplit tariffs89 (some 604799999) 0 0 = ⟨0, 0, 0, 0⟩) ∧
      (86400000 + 999) / 1000 ≤ 86400 := by decide +kernel

/-! ### Chapter 9 -/

theorem ready_ledger (n : Nat) : ready (ledger n) = true := by
  unfold ready
  simp only [show ((ledger n).port .a) = { portUp with fetchBlock := some 64 } from rfl,
    show (ledger n).calls.losses = [] from by show plant.calls.losses = []; decide +kernel,
    show (ledger n).calls.offers = [] from by show plant.calls.offers = []; decide +kernel,
    show (ledger n).resetLine = false from by show plant.resetLine = false; decide +kernel]
  decide

theorem witness_FetchRecords :
    Takes (.setFetchBlock a none) plant plant ∧ Takes (.setFetchBlock a (some 0)) plant plant ∧
      Takes (.setFetchBlock a (some 65)) plant plant ∧
      (Takes (.fetchRecords a) plant plant ∧ (plant.port .a).fetchBlock = none) ∧
      (Takes (.fetchRecords a) (ledger 0) (ledger 0) ∧ ((ledger 0).port .a).fetchBlock = some 64 ∧
        (ledger 0).settlement.queue = []) ∧
      (Takes (.fetchRecords a) (ledger 1) (ledger 1) ∧ (ledger 1).settlement.queue ≠ []) :=
  ⟨takes ready_plant rfl, takes ready_plant rfl, takes ready_plant rfl, ⟨takes ready_plant rfl, by decide +kernel⟩,
    ⟨takes (ready_ledger 0) rfl, rfl, rfl⟩, ⟨takes (ready_ledger 1) rfl, List.cons_ne_nil _ _⟩⟩

theorem witness_AccumulationAndHold :
    (ledger 4096).settlement.handed = [result1] ∧ (ledger 4096).settlement.queue.length = 4096 ∧
      plant.settlement.handed = [] ∧ Takes (.setExposureLimit a 64 none) plant plant ∧
      Takes (.setExposureLimit a 63 none) plant plant ∧ Takes (.setExposureLimit a 63 (some 1099511627776)) plant plant ∧
      (Takes (.setExposureLimit a 7 (some 11800000)) (ledger 0) (ledger 0) ∧ ((ledger 0).carrier 7).total = 11800000) :=
  ⟨rfl, List.length_replicate .., by decide +kernel, takes ready_plant rfl, takes ready_plant rfl, takes ready_plant rfl,
    ⟨takes (ready_ledger 0) rfl, by decide +kernel⟩⟩

/-- The ledger with the closed bank full of period 4. -/
def closed4 : State :=
  { ledger 0 with settlement := { (ledger 0).settlement with closed := some ⟨4, .empty, .empty⟩ } }

theorem ready_closed4 : ready closed4 = true := ready_of (ready_ledger 0) rfl rfl

theorem ledger_sound : LedgerSound (ledger 0) := ⟨by decide +kernel, by decide +kernel⟩
theorem closed4_sound : LedgerSound closed4 := ledger_sound

theorem witness_Periods :
    (LedgerSound closed4 ∧ Takes (.closePeriod a) closed4 closed4 ∧ closed4.settlement.closed.isSome = true) ∧
      (LedgerSound (ledger 0) ∧ Takes (.closePeriod a) (ledger 0) (ledger 0) ∧ (ledger 0).settlement.closed = none) ∧
      Takes (.releaseClosed a none) closed4 closed4 ∧ Takes (.releaseClosed a (some 4)) (ledger 0) (ledger 0) ∧
      (Takes (.releaseClosed a (some 4)) closed4 closed4 ∧ Takes (.releaseClosed a (some 5)) closed4 closed4 ∧
        closed4.settlement.closed = some ⟨4, .empty, .empty⟩) :=
  ⟨⟨closed4_sound, takes ready_closed4 rfl, rfl⟩, ⟨ledger_sound, takes (ready_ledger 0) rfl, rfl⟩, takes ready_closed4 rfl,
    takes (ready_ledger 0) rfl, ⟨takes ready_closed4 rfl, takes ready_closed4 rfl, rfl⟩⟩

theorem witness_QueriesOfTariffAndSettlement :
    Takes (.queryTariff a .absent (.given .weekMap)) plant plant ∧
      Takes (.queryTariff a (.given .live) (.given (.schedule .undefined))) plant plant ∧
      Takes (.queryTariff a (.given .live) (.given (.entry 64 0))) plant plant ∧
      Takes (.queryTariff a (.given .live) (.given (.entry 63 7))) plant plant ∧
      Takes (.queryTariff a (.given .live) (.given (.margin 63))) plant plant ∧
      Takes (.queryTariff a (.given .retired) (.given .summary)) plant plant ∧ plant.tariff.retired = none ∧
      (Takes (.queryTariff a (.given .staging) (.given .summary)) (clocked 0 staged) (clocked 0 staged) ∧
        (clocked 0 staged).tariff.staging.generation = some ⟨42, .initial⟩) ∧
      (Takes (.readClosed a .absent) closed4 closed4 ∧ Takes (.readClosed a (.given (.pairs 4096 1))) closed4 closed4 ∧
        Takes (.readClosed a (.given (.pairs 4095 64))) closed4 closed4 ∧
        min (max 1 (min 64 64)) (4096 - 4095) = 1 ∧ Takes (.readClosed a (.given .carriers)) closed4 closed4 ∧
        closed4.settlement.closed = some ⟨4, .empty, .empty⟩) ∧
      (Takes (.readClosed a (.given (.pairs 4095 64))) plant plant ∧ plant.settlement.closed = none) ∧
      Takes (.queryPair a 64 63) plant plant ∧ Takes (.queryPair a 63 63) plant plant ∧ Takes (.identify a) plant plant :=
  ⟨takes ready_plant rfl, takes ready_plant rfl, takes ready_plant rfl, takes ready_plant rfl, takes ready_plant rfl,
    takes ready_plant rfl, by decide +kernel, ⟨takes (ready_clocked _ _) rfl, rfl⟩,
    ⟨takes ready_closed4 rfl, takes ready_closed4 rfl, takes ready_closed4 rfl, rfl, takes ready_closed4 rfl, rfl⟩,
    ⟨takes ready_plant rfl, by decide +kernel⟩, takes ready_plant rfl, takes ready_plant rfl, takes ready_plant rfl⟩

/-! ### Chapters 10 and 11 -/

/-- The plant with another record for port A. -/
def portA (r : PortRecord) : State := { plant with ports := ⟨r, portUp, .initial, .initial⟩ }

theorem not_takes {c : Instr} {r : Sender} {code : Nat} {s : State} (hq : requestOf c = some (r, code))
    (h : taken c r code s = none) (u : State) : ¬Takes c s u := by
  unfold Takes
  rw [hq]
  exact fun e => nomatch h.symm.trans e

/-- Port A lost while an OFFER of its is in progress. -/
def lostWithOffer : State :=
  held { inProgress false false true (some none) with discarded := true } .initial

theorem witness_RequestArrival :
    requestOf (.queryDrain a) = some (a, 37) ∧ Takes (.queryDrain a) plant plant ∧
      (Takes (.queryDrain a) (portA { portUp with requests := [⟨7, 37, .bytes []⟩, ⟨8, 21, .bytes []⟩] })
        ((portA { portUp with requests := [⟨7, 37, .bytes []⟩, ⟨8, 21, .bytes []⟩] }).setPort .a
          { portUp with requests := [⟨8, 21, .bytes []⟩] })) ∧
      (∀ u, ¬Takes (.queryDrain a) (portA { portUp with requests := List.replicate 15 ⟨0, 21, .bytes []⟩ }) u) ∧
      (∀ u, ¬Takes (.queryDrain a) (portA { portUp with requests := List.replicate 16 ⟨0, 21, .bytes []⟩ }) u) ∧
      (∀ u, ¬Takes (.queryDrain a) (portA { portUp with state := .detaching }) u) ∧
      (∀ u, ¬Takes (.queryDrain a) (portA .initial) u) ∧
      (∀ u, ¬Takes (.queryDrain a) { plant with resetLine := true } u) ∧
      (∀ u, ¬Takes (.clearTraffic a) (held (inProgress false false false none) portUp) u) ∧
      (∀ u, ¬Takes (.attach a .absent) lostWithOffer u) ∧
      Takes (.queryDrain a) (portA { portUp with requests := [⟨7, 37, .command (.queryDrain a)⟩] }) (portA portUp) ∧
      requestOf (.ackAlarm a (.given .carrierHold) (some 63)) = some (a, 147) ∧
      (standsFor ⟨7, 147, .bytes [2, 255, 255]⟩ (.ackAlarm a (.given .carrierHold) none) a 147 = true ∧
        standsFor ⟨7, 146, .bytes [3, 1]⟩ (.subscribe a (.given .settlementBacklog) (some true)) a 146 = true ∧
        standsFor ⟨7, 50, .bytes [0, 77, 0, 50, 0, 1]⟩ (.writeDest a (some 77) (some 50) (some false) (some true)) a 50 = true ∧
        standsFor ⟨7, 51, .bytes [0, 77, 0, 10, 0, 0, 0]⟩ (.setGap a 77 (some 10) (some 0)) a 51 = true ∧
        standsFor ⟨7, 100, .bytes [0, 17, 3, 0]⟩ (.release a ⟨17, 3⟩ (.given .normal)) a 100 = true ∧
        standsFor ⟨7, 130, .bytes [7, 0, 0, 0, 0, 9]⟩ (.setExposureLimit a 7 (some 9)) a 130 = true) := by
  exact ⟨rfl, takes ready_plant rfl, rfl, not_takes rfl rfl, not_takes rfl rfl, not_takes rfl rfl, not_takes rfl rfl,
    not_takes rfl (by decide +kernel), not_takes rfl (by decide +kernel), not_takes rfl (by decide +kernel), rfl, rfl,
    by decide⟩

theorem witness_FramesRoundTrip :
    judgeFrame (encodeFrame 1 7 96 0 [1#8]) = .request ⟨7, 96, .bytes [1#8]⟩ ∧ judgeFrame (encodeFrame 0 0 0 0 []) = .fill ∧
      [1#8].length ≤ 4096 ∧ 1 < (2#8).toNat ∧ 8 < 8 + [1#8].length := by decide +kernel

theorem witness_FramesAndTheEndOfALink :
    plant.resetLine = false ∧ { plant with resetLine := true : State }.resetLine = true ∧
    judgeFrame (encodeFrame 2 0 0 0 []) = .invalid ∧ judgeFrame (encodeFrame 0 0 0 0 []) = .fill ∧
      judgeFrame (encodeFrame 1 7 144 0 []) = .request ⟨7, 144, .bytes []⟩ ∧
      judgeFrame (encodeFrame 1 7 96 0 []) = .request ⟨7, 96, .bytes []⟩ ∧
      ((plant.port .a).state = .up ∧ (plant.port .a).requests.length < 16) ∧
      ((portA { portUp with requests := List.replicate 16 ⟨0, 21, .bytes []⟩ }).port .a).requests.length = 16 ∧
      ((portA { portUp with state := .detaching }).port .a).state = .detaching ∧ (plant.port .c).state = .down ∧
      (((portA { PortRecord.initial with requests := List.replicate 16 ⟨0, 144, .bytes []⟩ }).port .a).state = .down ∧
        ((portA { PortRecord.initial with requests := List.replicate 16 ⟨0, 144, .bytes []⟩ }).port .a).requests.length =
          16) ∧
      ((portA { portUp with silence := 20 }).port .a).silence = 20 ∧
      ((portA { portUp with silence := 19 }).port .a).silence < 20 ∧
      (((portA { portUp with state := .detaching }).port .a).outbox = [] ∧
        ((portA { portUp with state := .detaching }).port .a).held = []) := by decide +kernel

/-- Port A with a SYNC held that waits for one notice. -/
def syncHeld : State :=
  portA
    { portUp with
      notices := [.takeover .b 1]
      held := [⟨⟨148, 9, .ok, .synced 1 0⟩, some ⟨1, []⟩⟩] }

theorem witness_AttachAndDetach :
    (Takes (.attach a .undefined) plant plant ∧ Takes (.attach a (.given .a)) plant plant ∧
        Takes (.attach a (.given .b)) plant plant ∧ (plant.port .a).state = .up) ∧
      (Takes (.attach a .absent) (portA .initial) (portA .initial) ∧ ((portA .initial).port .a).state = .down) ∧
      (Takes (.detach a) plant plant ∧ (plant.port .a).held = []) ∧
      (Takes (.detach a) syncHeld syncHeld ∧ (syncHeld.port .a).held ≠ []) :=
  ⟨⟨takes ready_plant rfl, takes ready_plant rfl, takes ready_plant rfl, by decide +kernel⟩, ⟨rfl, rfl⟩,
    ⟨takes ready_plant rfl, by decide +kernel⟩, ⟨takes (by decide +kernel) rfl, by decide +kernel⟩⟩

theorem ready_alarmed (r : AlarmRecord) (n : Nat) : ready (alarmed r n) = true := by
  unfold ready
  simp only [show ((alarmed r n).port .a) =
      { portUp with mask := ⟨true, false, false, false⟩, alarms := Table.empty.set 40 r } from rfl,
    show (alarmed r n).calls.losses = [] from by show plant.calls.losses = []; decide +kernel,
    show (alarmed r n).calls.offers = [] from by show plant.calls.offers = []; decide +kernel,
    show (alarmed r n).resetLine = false from by show plant.resetLine = false; decide +kernel]
  decide

/-- The plant with a notice that waits. -/
def noticeWaits : State := portA { portUp with notices := [.takeover .b 1] }

theorem witness_AlarmRequests :
    (Takes (.subscribe a .undefined (some true)) plant plant ∧ Takes (.subscribe a (.given .carrierHold) none) plant plant ∧
        Takes (.subscribe a (.given .groupCongestion) (some true)) (alarmed ⟨2, false⟩ 0) (alarmed ⟨2, false⟩ 0) ∧
        Takes (.subscribe a (.given .groupCongestion) (some false)) plant plant) ∧
      (Takes (.ackAlarm a .undefined none) plant plant ∧
        Takes (.ackAlarm a (.given .groupCongestion) (some 256)) plant plant ∧
        Takes (.ackAlarm a (.given .settlementBacklog) (some 1)) plant plant ∧
        Takes (.ackAlarm a (.given .groupCongestion) (some 255)) plant plant ∧
        Takes (.ackAlarm a (.given .groupCongestion) none) (alarmed ⟨1, true⟩ 2) (alarmed ⟨1, true⟩ 2) ∧
        (((alarmed ⟨1, true⟩ 2).port .a).alarms.get (AlarmSource.index ⟨.groupCongestion, 40⟩)).outstanding = true) ∧
      (Takes (.sync a) plant plant ∧ (plant.port .a).held = [] ∧ (plant.port .a).notices = []) ∧
      (Takes (.sync a) noticeWaits noticeWaits ∧ (noticeWaits.port .a).notices ≠ []) ∧
      (Takes (.sync a) syncHeld syncHeld ∧ (syncHeld.port .a).held ≠ []) ∧
      pendingOn (alarmed ⟨0, false⟩ 1) .a ⟨.groupCongestion, 40⟩ = true ∧ Takes (.unknownRequest a 255) plant plant :=
  ⟨⟨takes ready_plant rfl, takes ready_plant rfl, takes (ready_alarmed _ _) rfl, takes ready_plant rfl⟩,
    ⟨takes ready_plant rfl, takes ready_plant rfl, takes ready_plant rfl, takes ready_plant rfl,
      takes (ready_alarmed _ _) rfl, by decide +kernel⟩,
    ⟨takes ready_plant rfl, by decide +kernel, by decide +kernel⟩, ⟨takes (by decide +kernel) rfl, by decide +kernel⟩,
    ⟨takes (by decide +kernel) rfl, by decide +kernel⟩, by decide +kernel, takes ready_plant rfl⟩

theorem sound_of {r : PortRecord} (h : r.state ≠ .down) (hf : r.fetchBlock = none)
    (hn : r.requests.length ≤ 16 ∧ r.notices.length ≤ 64 ∧ r.drops ≤ 65535 ∧ (0 < r.drops → r.notices.length = 64)) :
    r.Sound :=
  ⟨hn.1, hn.2.1, hn.2.2.1, hn.2.2.2, fun n e => absurd (hf.symm.trans e) (by simp), fun e => absurd e h⟩

theorem down_sound : PortRecord.initial.Sound := by
  refine ⟨by decide, by decide, by decide, by decide, fun n e => ?_, fun _ => by decide⟩
  exact absurd (show (none : Option Nat) = some n from e) (by simp)

theorem portA_sound {r : PortRecord} (h : r.Sound) : PortsSound (portA r) := by
  intro p
  cases p
  · exact h
  · exact sound_of (r := portUp) (by decide) rfl (by decide)
  · exact down_sound
  · exact down_sound

/-- Port A with a full queue of notices, the alarm of group 40 pending, and a SYNC held that noted both. -/
def alarmWaits : PortRecord :=
  { portUp with
    mask := ⟨true, false, false, false⟩
    notices := List.replicate 64 (.takeover .b 1)
    held := [⟨⟨148, 9, .ok, .synced 64 1⟩, some ⟨64, [⟨⟨.groupCongestion, 40⟩, none⟩]⟩⟩] }

/-- Group 40 at level 1, which is pending on port A. -/
def alarmPending : State := { portA alarmWaits with levels := Table.empty.set 40 1 }

/-- R189, R190, R193: the place that a notice leaves goes to the pending alarm, and the SYNC waits for that notice. -/
theorem test_freed_place :
    ((after (.noticeSent .a) alarmPending).port .a).notices.getLast? = some (.alarm ⟨.groupCongestion, 40⟩ 1) ∧
      ((after (.noticeSent .a) alarmPending).port .a).held.map (·.wait) =
        [some ⟨63, [⟨⟨.groupCongestion, 40⟩, some 64⟩]⟩] := by decide +kernel

/-- R193: the last noted notice leaves, and the SYNC response goes to the link. -/
theorem test_sync_released :
    ((after (.noticeSent .a) syncHeld).port .a).outbox = [⟨148, 9, .ok, .synced 1 0⟩] := by decide +kernel

/-- Port A with a full queue of notices and a drop count. -/
def overflowed : PortRecord := { portUp with notices := List.replicate 64 (.takeover .b 1), drops := 65535 }

theorem witness_LinkSends :
    ((portA overflowed).resetLine = false ∧ PortsSound { portA overflowed with resetLine := true }) ∧
    (PortsSound (portA overflowed) ∧ (overflowed.answers = [] ∧ overflowed.outbox = []) ∧
        overflowed.notices = .takeover .b 1 :: List.replicate 63 (.takeover .b 1) ∧ 0 < overflowed.drops) ∧
      (PortsSound (portA { portUp with notices := [.takeover .b 1] })) ∧
      (PortsSound alarmPending ∧ pendingOn alarmPending .a ⟨.groupCongestion, 40⟩ = true ∧
        alarmWaits.notices = .takeover .b 1 :: List.replicate 63 (.takeover .b 1) ∧ alarmWaits.drops = 0 ∧
        scanQueues { portA { alarmWaits with notices := List.replicate 63 (.takeover .b 1) } with
          levels := Table.empty.set 40 1 } .a = [⟨.groupCongestion, 40⟩]) ∧
      (PortsSound (portA { portUp with answers := [⟨37, 7, .queueFull, .nothing⟩], outbox := [⟨37, 6, .ok, .nothing⟩] })) ∧
      PortsSound (portA { portUp with outbox := [⟨37, 6, .ok, .nothing⟩] }) ∧ PortsSound (portA portUp) := by
  refine ⟨⟨show plant.resetLine = false by decide +kernel, portA_sound (r := overflowed) (sound_of (by decide) rfl (by decide))⟩,
    ⟨portA_sound (sound_of (by decide) rfl (by decide)), ⟨rfl, rfl⟩, rfl, by decide⟩, ?_,
    ⟨portA_sound (r := alarmWaits) (sound_of (by decide) rfl (by decide)), by decide +kernel, rfl, rfl, by decide +kernel⟩,
    ?_, ?_, ?_⟩ <;>
  exact portA_sound (sound_of (by decide) rfl (by decide))

/-! ### The whole machine -/

theorem witness_StepRunsFrontCommand :
    { plant with pending := [.tick, .lockPlant a] : State }.pending = .tick :: [.lockPlant a] ∧ plant.pending = [] := by
  decide +kernel

theorem witness_PlantStaysSound :
    PlantSound plant ∧ exec (.blockCircuits a 1000 1 (.given .localFlag)) plant =
      .next (after (.blockCircuits a 1000 1 (.given .localFlag)) plant) ∧ RoutesSound plant ∧ LevelsSound plant :=
  ⟨plant_sound, rfl, plant_routes, plant_levels⟩

theorem witness_PortsTariffAndSettlementStaySound :
    exec .tick (portA portUp) = .next (after .tick (portA portUp)) ∧ PortsSound (portA portUp) ∧
      TariffSound (clocked 604799999 (scheduled 5)) ∧ SettlementSound State.reset ∧ LedgerSound (ledger 0) ∧
      (exec .orphanExpiry boundRetired = .next (after .orphanExpiry boundRetired) ∧ TariffSound boundRetired ∧
        CallsSound boundRetired ∧ LegsSound boundRetired ∧ ReferencesSound boundRetired) := by
  refine ⟨rfl, portA_sound (sound_of (by decide) rfl (by decide)), ?_, ?_, ledger_sound, rfl, boundRetired_tariff,
    bound_calls _ _, bound_legs _ _, boundRetired_references⟩
  · refine ⟨by decide, fun w h => ?_, by decide, fun b h => ?_, fun g h => ?_, by decide, by decide, by decide, by decide⟩
    · rw [show (clocked 604799999 (scheduled 5)).tariff.weekTime = some 604799999 from rfl] at h
      cases h; decide
    · rw [show (clocked 604799999 (scheduled 5)).tariff.retired = some ⟨40, 1, .initial⟩ from rfl] at h
      cases h; decide
    · rw [show (clocked 604799999 (scheduled 5)).tariff.staging.generation = some ⟨42, .initial⟩ from rfl] at h
      cases h; decide
  · exact ⟨fun k => show PairTotals.zero.Within from by unfold PairTotals.Within; decide,
      fun c => show Carrier.initial.total ≤ _ by decide, fun c => show Carrier.initial.limit ≤ _ by decide, by decide,
      by decide, by decide, by decide, fun _ _ => rfl⟩

/-- The numbers of section 3.8 with one plan. -/
def tables : State := { onePlan with analyser := analyser }

theorem witness_TablesStaySound :
    AnalyserSound tables ∧ RoutesSound tables ∧ MemorySound tables ∧ CallsSound (withOrphan 60000) ∧
      CallsSound tables ∧ exec (.clearGap a 310) tables = .next (after (.clearGap a 310) tables) ∧
      PlantSound tables ∧ LegsSound tables ∧ LegsSound boundLive := by
  refine ⟨analyser_sound rfl rfl (by decide +kernel) (by decide +kernel), onePlan_sound, empty_memory_sound rfl,
    withOrphan_sound _, no_calls_sound rfl rfl rfl, rfl, PlantSound.of_plant rfl plant_sound, ?_, bound_legs _ _⟩
  have idle : ∀ c e, tables.circuit c = some e → e.occupancy = .idle := fun c e h =>
    of_decide_eq_true (circuits_all (s := plant) (fun _ e => decide (e.occupancy = .idle)) (by decide +kernel) c e h)
  exact ⟨fun c e r h ho => (nomatch (idle c e h).symm.trans ho), fun c e r h ho => (nomatch (idle c e h).symm.trans ho),
    fun k x h => (nomatch h), fun o h => absurd h List.not_mem_nil, List.nodup_nil,
    fun r => ⟨fun h => absurd h List.not_mem_nil, fun ⟨x, h, _⟩ => by
      unfold State.call at h
      rw [show tables.slot r.slot = .free from rfl] at h
      have n : (if Slot.free.generation = r.generation then Slot.free.call else none) = none := by
        by_cases g : Slot.free.generation = r.generation
        · exact if_pos g
        · exact if_neg g
      cases n.symm.trans h⟩⟩

theorem witness_BatchStaysSound :
    BatchSound (forming plant) ∧ exec .windowExpiry (forming plant) = .next (after .windowExpiry (forming plant)) ∧
      BatchSound (suspended plant) ∧ PendingBusy (forming plant) :=
  ⟨forming_sound, rfl, suspended_sound, not_draining (by decide)⟩

end Sys2Proof.Tests
end

section
/-! Outbound seizure (R12 to R14): what the hunt mode picks from an idle set in circuit-number order, when the checks
pass, and what a seizure makes of the plant store. -/

namespace Sys2Proof.Machine

/-! ## The ends of an ordered list -/

/-- The head of a list ordered by an asymmetric relation is the member that comes before every other. -/
theorem head?_eq_some_iff_of_pairwise {r : Nat → Nat → Prop} (asymm : ∀ a b, r a b → ¬ r b a) {l : List Nat}
    (h : l.Pairwise r) (c : Nat) : l.head? = some c ↔ c ∈ l ∧ ∀ x ∈ l, c = x ∨ r c x := by
  cases l with
  | nil => simp
  | cons y l =>
    have first : ∀ x ∈ l, r y x := (List.pairwise_cons.mp h).1
    constructor
    · intro hc
      obtain rfl : y = c := Option.some.inj hc
      refine ⟨List.mem_cons_self, fun x hx => ?_⟩
      rcases List.mem_cons.mp hx with rfl | hx
      · exact .inl rfl
      · exact .inr (first x hx)
    · rintro ⟨hm, hc⟩
      rcases List.mem_cons.mp hm with rfl | hm
      · rfl
      · rcases hc y List.mem_cons_self with rfl | hcy
        · rfl
        · exact absurd hcy (asymm _ _ (first c hm))

/-- The head of a rising list is its lowest number. -/
theorem head?_eq_some_iff_lowest {l : List Nat} (h : l.Pairwise (· < ·)) (c : Nat) :
    l.head? = some c ↔ c ∈ l ∧ ∀ x ∈ l, c ≤ x := by
  simpa only [Nat.le_iff_lt_or_eq, or_comm] using head?_eq_some_iff_of_pairwise (fun _ _ => Nat.lt_asymm) h c

/-- The last number of a rising list is its highest. -/
theorem getLast?_eq_some_iff_highest {l : List Nat} (h : l.Pairwise (· < ·)) (c : Nat) :
    l.getLast? = some c ↔ c ∈ l ∧ ∀ x ∈ l, x ≤ c := by
  have down : l.reverse.Pairwise (fun a b => b < a) := List.pairwise_reverse.mpr h
  have ends := head?_eq_some_iff_of_pairwise (fun _ _ => Nat.lt_asymm) down c
  rw [List.head?_reverse] at ends
  simpa only [List.mem_reverse, Nat.le_iff_lt_or_eq, or_comm, eq_comm] using ends

/-- The first number above `m` in a rising list is the lowest of those above it. -/
theorem find?_eq_some_iff_lowest_above {l : List Nat} (h : l.Pairwise (· < ·)) (m c : Nat) :
    l.find? (fun x => decide (m < x)) = some c ↔ c ∈ l ∧ m < c ∧ ∀ x ∈ l, m < x → c ≤ x := by
  rw [← List.head?_filter, head?_eq_some_iff_lowest (h.filter _)]
  simp only [List.mem_filter, decide_eq_true_eq, and_imp, and_assoc]

/-! ## What the hunt mode picks (R13) -/

theorem pickCircuit_firstUp {g : Group} (h : g.hunt = .firstUp) : pickCircuit g = g.idleSet.head? := by
  simp only [pickCircuit, h]

theorem pickCircuit_firstDown {g : Group} (h : g.hunt = .firstDown) : pickCircuit g = g.idleSet.getLast? := by
  simp only [pickCircuit, h]

theorem pickCircuit_rotate_start {g : Group} (h : g.hunt = .rotate) (hm : g.lastSeized = none) :
    pickCircuit g = g.idleSet.head? := by
  simp only [pickCircuit, h, hm]

/-- R13: ROTATE takes the first circuit above the last seized one, and wraps to the lowest when there is none. -/
theorem pickCircuit_rotate_after {g : Group} {m : Nat} (h : g.hunt = .rotate) (hm : g.lastSeized = some m) :
    pickCircuit g = (g.idleSet.find? (fun x => decide (m < x))).or g.idleSet.head? := by
  simp only [pickCircuit, h, hm]
  cases g.idleSet.find? (fun x => decide (m < x)) <;> rfl

/-- R13: ROTATE after a seizure of `m`: the lowest circuit above `m` if there is one, and else the lowest of all. -/
theorem pickCircuit_rotate_after_iff {g : Group} {m : Nat} (hr : g.idleSet.Pairwise (· < ·)) (h : g.hunt = .rotate)
    (hm : g.lastSeized = some m) (c : Nat) :
    pickCircuit g = some c ↔
      c ∈ g.idleSet ∧ ((∃ x ∈ g.idleSet, m < x) → m < c ∧ ∀ x ∈ g.idleSet, m < x → c ≤ x) ∧
        ((∀ x ∈ g.idleSet, x ≤ m) → ∀ x ∈ g.idleSet, c ≤ x) := by
  rw [pickCircuit_rotate_after h hm]
  by_cases above : ∃ x ∈ g.idleSet, m < x
  · have found : (g.idleSet.find? (fun x => decide (m < x))).isSome = true := by
      simpa only [List.find?_isSome, decide_eq_true_eq] using above
    have notAll : ¬ ∀ x ∈ g.idleSet, x ≤ m := by simpa using above
    rw [Option.or_of_isSome found, find?_eq_some_iff_lowest_above hr]
    simp only [above, notAll, true_imp_iff, false_imp_iff, and_true]
  · have all : ∀ x ∈ g.idleSet, x ≤ m := by simpa using above
    have notFound : g.idleSet.find? (fun x => decide (m < x)) = none := by simpa using all
    rw [notFound, Option.none_or, head?_eq_some_iff_lowest hr]
    simp only [above, false_imp_iff, true_and, forall_prop_of_true all]

/-- Settles O8, mode by mode: FIRST_UP and FIRST_DOWN take an end of the rising idle set, ROTATE the lowest circuit above
the last seized one or wraps. -/
theorem huntModePicks : Obligations.HuntModePicks := by
  intro g c hr
  have up := (rising_iff _).mp hr
  cases hunt : g.hunt with
  | firstUp => simp [pickCircuit_firstUp hunt, head?_eq_some_iff_lowest up]
  | firstDown => simp [pickCircuit_firstDown hunt, getLast?_eq_some_iff_highest up]
  | rotate =>
    cases last : g.lastSeized with
    | none => simp [pickCircuit_rotate_start hunt last, head?_eq_some_iff_lowest up]
    | some m =>
      rw [pickCircuit_rotate_after_iff up hunt last]
      simp only [reduceCtorEq, false_imp_iff, true_imp_iff, true_and, Option.some.injEq, forall_eq']

/-- A circuit picked from a rising idle set lies in it. -/
theorem mem_idleSet_of_pickCircuit {g : Group} {c : Nat} (hr : rising g.idleSet = true) (h : pickCircuit g = some c) :
    c ∈ g.idleSet := ((huntModePicks g c hr).mp h).1

/-- R12, R13: every hunt mode picks a circuit from an idle set that is not empty. -/
theorem pickCircuit_isSome {g : Group} (h : g.idleSet ≠ []) : (pickCircuit g).isSome = true := by
  cases hunt : g.hunt with
  | firstUp => simpa [pickCircuit_firstUp hunt] using h
  | firstDown => simpa [pickCircuit_firstDown hunt] using h
  | rotate =>
    cases last : g.lastSeized with
    | none => simpa [pickCircuit_rotate_start hunt last] using h
    | some m => simp [pickCircuit_rotate_after hunt last, h]

/-! ## The checks (R12, R69 to R71) -/

theorem allowsOutbound_iff (d : Direction) : d.allowsOutbound = true ↔ d ≠ .inOnly := by
  cases d <;> simp [Direction.allowsOutbound]

theorem ServiceState.takesTraffic_iff (v : ServiceState) :
    v.takesTraffic = true ↔ v = .inService ∨ v = .drainSuspended := by
  cases v <;> simp [ServiceState.takesTraffic]

/-- R70, R71: a PRIORITY call passes; a NORMAL one needs on a PRIMARY step a far-end level of at most 1, or 2 with circuits
above the threshold, and on any other step level 0 with circuits above the threshold. -/
theorem farEndAllows_iff (cls : CallClass) (kind : StepKind) (farLevel idle threshold : Nat) :
    farEndAllows cls kind farLevel idle threshold = true ↔
      (cls = .normal →
        (kind = .primary → farLevel ≤ 1 ∨ (farLevel = 2 ∧ threshold < idle)) ∧
          (kind ≠ .primary → farLevel = 0 ∧ threshold < idle)) := by
  cases cls with
  | priority => simp [farEndAllows]
  | normal =>
    cases kind with
    | primary => by_cases low : farLevel ≤ 1 <;> simp [farEndAllows, low]
    | pool => simp [farEndAllows]
    | final => simp [farEndAllows]

/-- R12: the checks of an outbound seizure, each as the spec words it. -/
theorem seizable_iff (s : State) (n : Nat) (g : Group) (cls : CallClass) (kind : StepKind) :
    seizable s n g cls kind = true ↔
      g.direction ≠ .inOnly ∧ ((s.svc n).service = .inService ∨ (s.svc n).service = .drainSuspended) ∧
        g.idleSet ≠ [] ∧
        (cls = .normal →
          (kind = .primary → (s.svc n).farLevel ≤ 1 ∨ ((s.svc n).farLevel = 2 ∧ g.threshold < g.available)) ∧
            (kind ≠ .primary → (s.svc n).farLevel = 0 ∧ g.threshold < g.available)) := by
  simp only [seizable, Group.idleCount, Bool.and_eq_true, allowsOutbound_iff, ServiceState.takesTraffic_iff,
    farEndAllows_iff, Bool.not_eq_true', List.isEmpty_eq_false_iff, and_assoc]

/-- R12, R13: what an outbound seizure from a defined group takes and hands back. -/
theorem outboundPick_eq_some_iff {s : State} {n : Nat} {g : Group} (hg : s.group n = some g) (cls : CallClass)
    (kind : StepKind) (z : Seized) :
    outboundPick s n cls kind = some z ↔
      seizable s n g cls kind = true ∧
        ∃ c, pickCircuit g = some c ∧ z = ⟨c, g.carrier, (s.svc n).congestion⟩ := by
  simp only [outboundPick, hg]
  cases seizable s n g cls kind with
  | false => simp
  | true => cases pickCircuit g <;> simp [eq_comm]

/-- R12: an outbound seizure succeeds exactly when its checks pass, since they leave the hunt a circuit to pick. -/
theorem outboundPick_isSome_iff {s : State} {n : Nat} {g : Group} (hg : s.group n = some g) (cls : CallClass)
    (kind : StepKind) : (outboundPick s n cls kind).isSome = true ↔ seizable s n g cls kind = true := by
  constructor
  · intro h
    obtain ⟨z, hz⟩ := Option.isSome_iff_exists.mp h
    exact ((outboundPick_eq_some_iff hg cls kind z).mp hz).1
  · intro h
    obtain ⟨-, -, nonempty, -⟩ := (seizable_iff s n g cls kind).mp h
    obtain ⟨c, hc⟩ := Option.isSome_iff_exists.mp (pickCircuit_isSome nonempty)
    exact Option.isSome_iff_exists.mpr ⟨_, (outboundPick_eq_some_iff hg cls kind _).mpr ⟨h, c, hc, rfl⟩⟩

/-! ## The idle set of a sound group (R2) -/

theorem mem_inCondition {k : Condition} {cs : List (Nat × Equipped)} {x : Nat × Equipped} :
    x ∈ inCondition k cs ↔ x ∈ cs ∧ x.2.condition = k := by
  simp [inCondition]

/-- A listed circuit of a group is one that the circuit table holds for it. -/
theorem circuit_of_mem_groupCircuits {s : State} (hw : s.plant.circuits.wf = true) {n : Nat} {x : Nat × Equipped}
    (h : x ∈ groupCircuits s n) : s.circuit x.1 = some x.2 ∧ x.2.group = n := by
  obtain ⟨listed, hn⟩ := mem_circuitsIn h
  exact ⟨((Table.mem_iff _ _ _ hw).mp listed).1, hn⟩

/-- The circuits of a group are listed in circuit-number order. -/
theorem groupCircuits_rising {s : State} (hw : s.plant.circuits.wf = true) (n : Nat) :
    (groupCircuits s n).Pairwise (fun x y => x.1 < y.1) := by
  rw [groupCircuits_eq, circuitsIn]
  refine ((Table.wf_iff _).mp hw).1.filterMap _ fun a b hab x hx y hy => ?_
  have hx' : x ∈ circuitsIn n [a] := List.mem_filterMap.mpr ⟨a, List.mem_singleton_self a, hx⟩
  have hy' : y ∈ circuitsIn n [b] := List.mem_filterMap.mpr ⟨b, List.mem_singleton_self b, hy⟩
  obtain rfl := List.mem_singleton.mp (mem_circuitsIn hx').1
  obtain rfl := List.mem_singleton.mp (mem_circuitsIn hy').1
  exact hab

theorem GroupSound.idleSet_rising {s : State} {n : Nat} {g : Group} (h : GroupSound s n g)
    (hw : s.plant.circuits.wf = true) : rising g.idleSet = true := by
  obtain ⟨idle, -⟩ := h
  rw [rising_iff, idle, List.pairwise_map]
  exact (groupCircuits_rising hw n).filter _

/-- R2: a circuit of the idle set is available in its group. -/
theorem GroupSound.available_of_mem {s : State} {n : Nat} {g : Group} (h : GroupSound s n g)
    (hw : s.plant.circuits.wf = true) {c : Nat} (hc : c ∈ g.idleSet) :
    ∃ e, s.circuit c = some e ∧ e.group = n ∧ e.condition = .available := by
  obtain ⟨idle, -⟩ := h
  rw [idle] at hc
  obtain ⟨⟨i, e⟩, listed, rfl⟩ := List.mem_map.mp hc
  obtain ⟨inGroup, available⟩ := mem_inCondition.mp listed
  obtain ⟨read, hn⟩ := circuit_of_mem_groupCircuits hw inGroup
  exact ⟨e, read, hn, available⟩

/-! ## What a seizure makes of the plant store (R14) -/

@[simp] theorem report_circuit (gs : List Nat) (b s : State) (c : Nat) : (report gs b s).circuit c = s.circuit c := by
  simp only [State.circuit, (report_served gs b s).plant]

@[simp] theorem report_group (gs : List Nat) (b s : State) (n : Nat) : (report gs b s).group n = s.group n := by
  simp only [State.group, (report_served gs b s).plant]

/-- A change of a circuit's record is read at that circuit, and nowhere else. -/
theorem changeCircuit_circuit (c : Nat) (f : Equipped → Equipped) (s : State) (i : Nat) :
    (changeCircuit c f s).circuit i = if i = c then (s.circuit c).map f else s.circuit i := by
  cases he : s.circuit c with
  | none => by_cases hi : i = c <;> simp [changeCircuit, he, hi]
  | some e =>
    have written : (s.setCircuit c (some (f e))).circuit i = if i = c then some (f e) else s.circuit i :=
      Table.get_set s.plant.circuits c i _
    cases hg : s.group e.group <;> simp [changeCircuit, he, hg, written]

/-- R2: a change of a circuit's record moves the circuit within its own group's record, and no other. -/
theorem changeCircuit_group {s : State} {c : Nat} {e : Equipped} (f : Equipped → Equipped) (he : s.circuit c = some e)
    (m : Nat) :
    (changeCircuit c f s).group m =
      if m = e.group then (s.group m).map (Group.move c e.condition (f e).condition) else s.group m := by
  cases hg : s.group e.group with
  | none => by_cases hm : m = e.group <;> simp [changeCircuit, he, hg, hm]
  | some g =>
    simp only [changeCircuit, he, hg]
    by_cases hm : m = e.group
    · simp [hm, hg]
    · simp [hm, State.group_setGroup_other _ _ _ _ hm]

@[simp] theorem markSeized_circuit (n c : Nat) (s : State) (i : Nat) : (markSeized n c s).circuit i = s.circuit i := by
  cases hg : s.group n <;> simp [markSeized, hg]

/-- R14: only the group seized from takes a last-seized circuit. -/
theorem markSeized_group (n c : Nat) (s : State) (m : Nat) :
    (markSeized n c s).group m =
      if m = n then (s.group m).map (fun g => { g with lastSeized := some c }) else s.group m := by
  cases hg : s.group n with
  | none => by_cases hm : m = n <;> simp [markSeized, hg, hm]
  | some g =>
    by_cases hm : m = n
    · simp [markSeized, hg, hm]
    · simp [markSeized, hg, hm, State.group_setGroup_other _ _ _ _ hm]

theorem occupyOut_circuit (n c : Nat) (call : CallRef) (s : State) (i : Nat) :
    (occupyOut n c call s).circuit i =
      if i = c then (s.circuit c).map (fun e => { e with occupancy := .busyOut call }) else s.circuit i := by
  simp only [occupyOut, report_circuit, markSeized_circuit, changeCircuit_circuit]

/-- R14: a circuit of the group that becomes BUSY_OUT is its last seized and moves to its busy-out count. -/
theorem occupyOut_group_same {s : State} {c : Nat} {e : Equipped} {g : Group} (call : CallRef)
    (he : s.circuit c = some e) (hg : s.group e.group = some g) :
    (occupyOut e.group c call s).group e.group =
      some { g.move c e.condition .busyOut with lastSeized := some c } := by
  simp [occupyOut, markSeized_group, changeCircuit_group _ he, hg, Equipped.condition]

theorem occupyOut_group_other {s : State} {c : Nat} {e : Equipped} (call : CallRef) (he : s.circuit c = some e) {m : Nat}
    (hm : m ≠ e.group) : (occupyOut e.group c call s).group m = s.group m := by
  simp [occupyOut, markSeized_group, changeCircuit_group _ he, hm]

/-- R2: an available circuit that becomes BUSY_OUT leaves the idle set and moves between the two counts. -/
theorem Group.move_available_busyOut (c : Nat) (g : Group) :
    g.move c .available .busyOut =
      { g with idleSet := removeNumber c g.idleSet, available := g.available - 1, busyOut := g.busyOut + 1 } := rfl

/-- Settles O9: the checks leave the hunt a circuit of the idle set, which in a sound plant is an available circuit of the
group, and the seizure writes that circuit and that group alone. -/
theorem outboundSeizure : Obligations.OutboundSeizure := by
  intro s n g cls kind call hs hg
  refine ⟨(outboundPick_isSome_iff hg cls kind).trans (seizable_iff s n g cls kind), fun z hz => ?_⟩
  obtain ⟨-, c, picked, rfl⟩ := (outboundPick_eq_some_iff hg cls kind z).mp hz
  obtain ⟨hw, -, groups⟩ := hs
  have sound : GroupSound s n g := groups n g hg
  have idle : c ∈ g.idleSet := mem_idleSet_of_pickCircuit (sound.idleSet_rising hw) picked
  obtain ⟨e, he, rfl, available⟩ := sound.available_of_mem hw idle
  refine ⟨picked, rfl, rfl, ⟨e, he, ?_⟩, ?_, fun i hi => ?_, fun m hm => occupyOut_group_other call he hm⟩
  · simp [occupyOut_circuit, he]
  · rw [occupyOut_group_same call he hg, available, Group.move_available_busyOut]
  · rw [occupyOut_circuit, if_neg hi]

end Sys2Proof.Machine
end

section
/-! Congestion and plan exhaustion (R27, R28, R45, R46): the next congestion state by the state before, when a group has
room and a plan is exhausted, and what a derivation and a re-evaluation do when the value stays and when it changes. -/

namespace Sys2Proof.Machine

/-! ## The congestion state (R27) -/

/-- R27: no idle circuit is FULL, whatever the state before. -/
@[simp] theorem nextCongestion_zero (before : Congestion) (r h : Nat) : nextCongestion before 0 r h = .full := rfl

/-- R27: from OPEN the threshold alone decides. -/
theorem nextCongestion_opened {idle : Nat} (some_idle : 1 ≤ idle) (r h : Nat) :
    nextCongestion .opened idle r h = if idle ≤ r then .reserved else .opened :=
  if_neg (Nat.ne_of_gt some_idle)

/-- R27: from RESERVED and from FULL a group opens only at the threshold and the hysteresis together. -/
theorem nextCongestion_of_ne_opened {before : Congestion} (not_open : before ≠ .opened) {idle : Nat}
    (some_idle : 1 ≤ idle) (r h : Nat) :
    nextCongestion before idle r h = if r + h ≤ idle then .opened else .reserved := by
  have circuits : idle ≠ 0 := Nat.ne_of_gt some_idle
  cases before with
  | opened => exact absurd rfl not_open
  | reserved => exact if_neg circuits
  | full => exact if_neg circuits

theorem nextCongestion_reopens {before : Congestion} (not_open : before ≠ .opened) {idle r h : Nat} (hyst : 1 ≤ h)
    (enough : r + h ≤ idle) : nextCongestion before idle r h = .opened := by
  rw [nextCongestion_of_ne_opened not_open (by omega), if_pos enough]

theorem nextCongestion_stays_reserved {before : Congestion} (not_open : before ≠ .opened) {idle r h : Nat}
    (hyst : 1 ≤ h) (some_idle : 1 ≤ idle) (few : idle ≤ r + h - 1) : nextCongestion before idle r h = .reserved := by
  rw [nextCongestion_of_ne_opened not_open some_idle, if_neg (by omega)]

/-- R27: the GROUP_CONGESTION level, by comparisons with the state. -/
theorem Congestion.level_eq_ite (c : Congestion) :
    c.level = if c = .opened then 0 else if c = .reserved then 1 else 2 := by
  cases c <;> rfl

/-! ## The derivation (R28) -/

theorem deriveCongestion_of_same {s : State} {n : Nat} {g : Group} (hg : s.group n = some g)
    (same : nextCongestion (s.svc n).congestion g.available g.threshold g.hysteresis = (s.svc n).congestion) :
    deriveCongestion s n = s := by
  simp only [deriveCongestion, hg, Group.idleCount]
  exact if_pos same

theorem deriveCongestion_of_change {s : State} {n : Nat} {g : Group} {c : Congestion} (hg : s.group n = some g)
    (next : c = nextCongestion (s.svc n).congestion g.available g.threshold g.hysteresis)
    (change : c ≠ (s.svc n).congestion) :
    deriveCongestion s n = reportLevel ⟨.groupCongestion, n⟩ c.level (s.setSvc n { s.svc n with congestion := c }) := by
  subst next
  simp only [deriveCongestion, hg, Group.idleCount]
  exact if_neg change

/-- Settles O11: one equation for OPEN and one for the other two states give the table of R27, and a derivation either
finds the state in force or stores and reports the next one. -/
theorem congestionDerivation : Obligations.CongestionDerivation := by
  refine ⟨fun before idle r h hyst => ⟨?full, ?reserves, ?open_stays, ?reserved_opens, ?reserved_stays, ?full_reserves,
    ?full_opens⟩, fun s n g c hg next => ⟨?same, ?change⟩⟩
  case full => rintro rfl; exact nextCongestion_zero before r h
  case reserves => intro some_idle few; rw [nextCongestion_opened some_idle, if_pos few]
  case open_stays => intro some_idle many; rw [nextCongestion_opened some_idle, if_neg (by omega)]
  case reserved_opens => exact nextCongestion_reopens (by decide) hyst
  case reserved_stays => exact nextCongestion_stays_reserved (by decide) hyst
  case full_reserves => exact nextCongestion_stays_reserved (by decide) hyst
  case full_opens => exact nextCongestion_reopens (by decide) hyst
  case same => intro same; exact deriveCongestion_of_same hg (next ▸ same)
  case change =>
    intro change
    rw [deriveCongestion_of_change hg next change, Congestion.level_eq_ite]

/-! ## Room and exhaustion (R45) -/

theorem Congestion.ne_full_iff (c : Congestion) : c ≠ .full ↔ c = .opened ∨ c = .reserved := by
  cases c <;> simp

/-- R45: a group has room when it is defined, is not FULL and takes new seizures. -/
theorem hasRoom_iff (s : State) (g : Nat) :
    hasRoom s g = true ↔
      (s.group g).isSome = true ∧ ((s.svc g).congestion = .opened ∨ (s.svc g).congestion = .reserved) ∧
        ((s.svc g).service = .inService ∨ (s.svc g).service = .drainSuspended) := by
  simp only [hasRoom, Bool.and_eq_true, bne_iff_ne, Congestion.ne_full_iff, ServiceState.takesTraffic_iff, and_assoc]

/-- R45: a plan is exhausted when it holds a step and none of its steps names a group that has room. -/
theorem planExhausted_iff (s : State) (p : Nat) :
    planExhausted s p = true ↔ s.plan p ≠ [] ∧ ∀ st ∈ s.plan p, ¬hasRoom s st.group = true := by
  simp only [planExhausted, Bool.and_eq_true, Bool.not_eq_true', List.isEmpty_eq_false_iff, List.all_eq_true,
    Bool.not_eq_true]

/-! ## The re-evaluation (R46) -/

theorem evaluatePlan_of_same {s : State} {p : Nat} (same : planExhausted s p = s.service.exhausted.get p) :
    evaluatePlan s p = s :=
  if_pos same

theorem evaluatePlan_of_change {s : State} {p : Nat} (change : planExhausted s p ≠ s.service.exhausted.get p) :
    evaluatePlan s p =
      reportLevel ⟨.planExhausted, p⟩ (levelOf (planExhausted s p))
        { s with service := { s.service with exhausted := s.service.exhausted.set p (planExhausted s p) } } :=
  if_neg change

/-- Settles O19: exhaustion is the absence of room in every step of a plan that holds one, and a re-evaluation compares it
with the level stored. -/
theorem planReevaluation : Obligations.PlanReevaluation := by
  intro s p
  refine ⟨?exhausted, evaluatePlan_of_same, evaluatePlan_of_change⟩
  case exhausted => simp only [planExhausted_iff, hasRoom_iff]

end Sys2Proof.Machine
end

section
/-! The number analyser (R48 to R54, R60): digit strings and their keys, the table of prefixes, the longest match and the gap
check. -/

namespace Sys2Proof.Machine

/-! ## How a write changes the size of a table -/

/-- In a list whose numbers lie above `k`, nothing is dropped up to `k`. -/
theorem dropWhile_le_of_all_gt {α : Type} {l : List (Nat × α)} {k : Nat} (h : ∀ e ∈ l, k < e.1) :
    l.dropWhile (fun e => decide (e.1 ≤ k)) = l := by
  cases l with
  | nil => rfl
  | cons e l => exact List.dropWhile_cons_of_neg (by simpa using h e List.mem_cons_self)

section TableSize

variable {α : Type} [DecidableEq α] {d : α}

/-- A write in a canonical list takes out the record that was listed, if there was one, and lists the new one unless it is
the value that is not listed. -/
theorem length_writeIn {l : List (Nat × α)} (rise : l.Pairwise (fun e f => e.1 < f.1)) (listed : ∀ e ∈ l, e.2 ≠ d)
    (k : Nat) (v : α) :
    (writeIn d l k v).length + (if lookupIn d l k = d then 0 else 1) = l.length + (if v = d then 0 else 1) := by
  induction l with
  | nil => by_cases hv : v = d <;> simp [writeIn, lookupIn, hv]
  | cons e l ih =>
    obtain ⟨first, rise⟩ := List.pairwise_cons.mp rise
    have ih := ih rise (fun x hx => listed x (List.mem_cons_of_mem e hx))
    have he : e.2 ≠ d := listed e List.mem_cons_self
    rcases Nat.lt_trichotomy e.1 k with below | same | above
    · have deeper : lookupIn d (e :: l) k = lookupIn d l k := by
        simp [lookupIn, Nat.ne_of_lt below, Nat.not_lt.mpr (Nat.le_of_lt below)]
      simp only [writeIn, if_pos below, deeper, List.length_cons]
      omega
    · have rest : l.dropWhile (fun x => decide (x.1 ≤ k)) = l := dropWhile_le_of_all_gt (same ▸ first)
      by_cases hv : v = d <;> simp [writeIn, lookupIn, same, rest, hv, he]
    · have notSame : e.1 ≠ k := Nat.ne_of_gt above
      by_cases hv : v = d <;> simp [writeIn, lookupIn, notSame, above, Nat.lt_asymm above, hv]

/-- The size of a canonical table after a write, by whether a record was listed and one is listed now. -/
theorem Table.size_set {t : Table α d} (h : t.wf = true) (k : Nat) (v : α) :
    (t.set k v).size + (if t.get k = d then 0 else 1) = t.size + (if v = d then 0 else 1) :=
  have ⟨rise, listed⟩ := (Table.wf_iff t).mp h
  length_writeIn rise listed k v

end TableSize

/-! ## Digit strings and their keys (R48) -/

theorem digitsOk_iff (lo hi : Nat) (ds : List Nat) :
    digitsOk lo hi ds = true ↔ lo ≤ ds.length ∧ ds.length ≤ hi ∧ ∀ x ∈ ds, x ≤ 9 := by
  simp only [digitsOk, Bool.and_eq_true, decide_eq_true_eq, List.all_eq_true, and_assoc]

/-- R48: the key of a string is the number whose decimal digits, lowest first, are the string backwards and then the
leading 1. -/
theorem prefixKey_eq_ofDigits (ds : List Nat) : prefixKey ds = Nat.ofDigits 10 (ds.reverse ++ [1]) := by
  induction ds using List.reverseRecOn with
  | nil => rfl
  | append_singleton ds x ih =>
    have step : prefixKey (ds ++ [x]) = prefixKey ds * 10 + x := by simp only [prefixKey, List.foldl_concat]
    rw [step, ih, List.reverse_concat, List.cons_append, Nat.ofDigits_cons]
    omega

theorem digits_prefixKey {ds : List Nat} (h : ∀ x ∈ ds, x ≤ 9) : Nat.digits 10 (prefixKey ds) = ds.reverse ++ [1] := by
  rw [prefixKey_eq_ofDigits]
  refine Nat.digits_ofDigits 10 (by decide) _ (fun x hx => ?_) (fun _ => ?_)
  · rcases List.mem_append.mp hx with hx | hx
    · exact Nat.lt_succ_of_le (h x (List.mem_reverse.mp hx))
    · rw [List.mem_singleton.mp hx]
      decide
  · rw [List.getLast_concat]
    decide

/-- R48: strings of digits 0 to 9 with the same key are the same: its decimal digits give the string back. -/
theorem prefixKey_injective {xs ds : List Nat} (hx : ∀ x ∈ xs, x ≤ 9) (hd : ∀ x ∈ ds, x ≤ 9)
    (h : prefixKey xs = prefixKey ds) : xs = ds := by
  have same : xs.reverse ++ [1] = ds.reverse ++ [1] := by rw [← digits_prefixKey hx, h, digits_prefixKey hd]
  exact List.reverse_injective (List.append_cancel_right same)

/-! ## The table of prefixes after a write (R49, R50) -/

@[simp] theorem State.prefixEntry_setPrefix_same (s : State) (ds : List Nat) (x : Option Nat) :
    (s.setPrefix ds x).prefixEntry ds = x := Table.get_set_same s.analyser.prefixes _ x

theorem State.prefixEntry_setPrefix_other (s : State) {ds xs : List Nat} (x : Option Nat) (hd : ∀ y ∈ ds, y ≤ 9)
    (hx : ∀ y ∈ xs, y ≤ 9) (h : xs ≠ ds) : (s.setPrefix ds x).prefixEntry xs = s.prefixEntry xs :=
  Table.get_set_other s.analyser.prefixes _ _ x (fun key => h (prefixKey_injective hx hd key))

theorem State.size_setPrefix {s : State} (h : s.analyser.prefixes.wf = true) (ds : List Nat) (x : Option Nat) :
    (s.setPrefix ds x).analyser.prefixes.size + (if s.prefixEntry ds = none then 0 else 1) =
      s.analyser.prefixes.size + (if x = none then 0 else 1) :=
  Table.size_set h (prefixKey ds) x

theorem State.size_setPrefix_some {s : State} (h : s.analyser.prefixes.wf = true) (ds : List Nat) (d : Nat) :
    (s.setPrefix ds (some d)).analyser.prefixes.size =
      if s.prefixEntry ds = none then s.analyser.prefixes.size + 1 else s.analyser.prefixes.size := by
  have size := size_setPrefix h ds (some d)
  by_cases entry : s.prefixEntry ds = none <;> simpa [entry] using size

theorem State.size_setPrefix_none {s : State} (h : s.analyser.prefixes.wf = true) (ds : List Nat) :
    (s.setPrefix ds none).analyser.prefixes.size =
      if s.prefixEntry ds = none then s.analyser.prefixes.size else s.analyser.prefixes.size - 1 := by
  have size := size_setPrefix h ds none
  by_cases entry : s.prefixEntry ds = none
  · simpa [entry] using size
  · simp only [entry, if_false, if_true] at size ⊢
    omega

/-! ## ADD_PREFIX and REMOVE_PREFIX -/

theorem takes_analyser {c : Instr} {s u : State} (h : Takes c s u) : u.analyser = s.analyser := by
  rw [takes_blocks h]

theorem takes_memory {c : Instr} {s u : State} (h : Takes c s u) : u.memory = s.memory := by
  rw [takes_blocks h]

/-- R49: the checks of ADD_PREFIX, in their order. -/
theorem handleAddPrefix_refuses {ds : List Nat} {d : Nat} {u : State} {st : Status}
    (h : FirstOf
      [(¬(digitsOk 1 16 ds = true), .badRequest), (2047 < d, .outOfRange),
        (u.prefixEntry ds = none ∧ ¬u.analyser.prefixes.size < 4096, .tableFull)] st) :
    handleAddPrefix ds d u = refuse st u := by
  rcases h with ⟨digits, rfl⟩ | ⟨digits, ⟨range, rfl⟩ | ⟨range, ⟨⟨entry, size⟩, rfl⟩ | ⟨-, noCheck⟩⟩⟩
  · simp [handleAddPrefix, digits]
  · have range : Config.destinations ≤ d := range
    simp [handleAddPrefix, not_not.mp digits, range]
  · have range : ¬Config.destinations ≤ d := fun h => range h
    have size : Config.prefixes ≤ u.analyser.prefixes.size := Nat.not_lt.mp size
    simp [handleAddPrefix, not_not.mp digits, range, entry, size]
  · exact noCheck.elim

/-- R49: ADD_PREFIX with its checks passed. -/
theorem handleAddPrefix_adds {ds : List Nat} {d : Nat} {u : State} (digits : digitsOk 1 16 ds = true) (range : d ≤ 2047)
    (room : u.prefixEntry ds = none → u.analyser.prefixes.size < 4096) :
    handleAddPrefix ds d u =
      ⟨u.setPrefix ds (some d), .ok,
        .prefixAdded (u.prefixEntry ds) (u.setPrefix ds (some d)).analyser.prefixes.size⟩ := by
  have range : ¬Config.destinations ≤ d := Nat.not_le.mpr (Nat.lt_succ_of_le range)
  have full : ¬(u.prefixEntry ds = none ∧ Config.prefixes ≤ u.analyser.prefixes.size) := fun ⟨entry, size⟩ =>
    absurd (room entry) (Nat.not_lt.mpr size)
  simp only [handleAddPrefix, digits, range, Bool.and_eq_true, Option.isNone_iff_eq_none, decide_eq_true_eq, full,
    Bool.not_true, Bool.false_eq_true, if_false]

theorem handleRemovePrefix_refuses {ds : List Nat} (digits : ¬(digitsOk 1 16 ds = true)) (u : State) :
    handleRemovePrefix ds u = refuse .badRequest u := by
  simp [handleRemovePrefix, digits]

theorem handleRemovePrefix_removes {ds : List Nat} (digits : digitsOk 1 16 ds = true) (u : State) :
    handleRemovePrefix ds u =
      ⟨u.setPrefix ds none, .ok, .prefixRemoved (u.prefixEntry ds) (u.setPrefix ds none).analyser.prefixes.size⟩ := by
  simp [handleRemovePrefix, digits]

theorem exec_addPrefix (r : Sender) (ds : List Nat) (d : Nat) (s : State) :
    exec (.addPrefix r ds d) s = request (.addPrefix r ds d) r RequestKind.addPrefix.code (handleAddPrefix ds d) s := rfl

theorem exec_removePrefix (r : Sender) (ds : List Nat) (s : State) :
    exec (.removePrefix r ds) s =
      request (.removePrefix r ds) r RequestKind.removePrefix.code (handleRemovePrefix ds) s := rfl

/-- Settles O20: both requests write one key of the table of prefixes, and strings of digits 0 to 9 with the same key are
the same string. -/
theorem prefixTable : Obligations.PrefixTable := by
  rintro r ds d n s u ok sound rfl rfl
  rw [← digitsOk_iff]
  have canonical : ∀ {c}, Takes c s u → u.analyser.prefixes.wf = true := fun h => (takes_analyser h).symm ▸ sound.1
  refine ⟨fun add => ⟨?add_refuses, ?adds⟩, fun remove => ⟨?remove_refuses, ?removes⟩⟩
  case add_refuses =>
    intro st checks
    exact answers_of rfl (exec_addPrefix r ds d s) add (handleAddPrefix_refuses checks)
  case adds =>
    intro digits range room
    obtain ⟨-, -, nines⟩ := (digitsOk_iff _ _ _).mp digits
    refine ⟨u.setPrefix ds (some d), ?_, rfl, u.prefixEntry_setPrefix_same _ _,
      fun xs other hx => u.prefixEntry_setPrefix_other _ nines hx other⟩
    rw [← State.size_setPrefix_some (canonical add) ds d]
    exact answers_of rfl (exec_addPrefix r ds d s) add (handleAddPrefix_adds digits range room)
  case remove_refuses =>
    intro digits
    exact answers_of rfl (exec_removePrefix r ds s) remove (handleRemovePrefix_refuses digits u)
  case removes =>
    intro digits
    obtain ⟨-, -, nines⟩ := (digitsOk_iff _ _ _).mp digits
    refine ⟨u.setPrefix ds none, ?_, rfl, u.prefixEntry_setPrefix_same _ _,
      fun xs other hx => u.prefixEntry_setPrefix_other _ nines hx other⟩
    rw [← State.size_setPrefix_none (canonical remove) ds]
    exact answers_of rfl (exec_removePrefix r ds s) remove (handleRemovePrefix_removes digits u)

/-! ## The longest match (R51) -/

theorem longestUpTo_succ_of_some {s : State} {ds : List Nat} {n d : Nat} (len : n + 1 ≤ ds.length)
    (entry : s.prefixEntry (ds.take (n + 1)) = some d) : longestUpTo s ds (n + 1) = some (n + 1, d) := by
  simp only [longestUpTo, if_pos len, entry]

theorem longestUpTo_succ_of_none {s : State} {ds : List Nat} {n : Nat}
    (entry : n + 1 ≤ ds.length → s.prefixEntry (ds.take (n + 1)) = none) :
    longestUpTo s ds (n + 1) = longestUpTo s ds n := by
  by_cases len : n + 1 ≤ ds.length
  · simp only [longestUpTo, if_pos len, entry len]
  · simp only [longestUpTo, if_neg len]

/-- R51: the search from `k` digits down finds the longest of the entries of at most `k` digits that match. -/
theorem longestUpTo_eq_some_iff (s : State) (ds : List Nat) (k n d : Nat) :
    longestUpTo s ds k = some (n, d) ↔
      1 ≤ n ∧ n ≤ k ∧ n ≤ ds.length ∧ s.prefixEntry (ds.take n) = some d ∧
        ∀ m, n < m → m ≤ k → m ≤ ds.length → s.prefixEntry (ds.take m) = none := by
  induction k with
  | zero =>
    constructor
    · intro found
      cases found
    · rintro ⟨pos, bound, -⟩
      omega
  | succ k ih =>
    by_cases hit : k + 1 ≤ ds.length ∧ ∃ x, s.prefixEntry (ds.take (k + 1)) = some x
    · obtain ⟨len, x, entry⟩ := hit
      rw [longestUpTo_succ_of_some len entry]
      constructor
      · rintro ⟨⟩
        exact ⟨by omega, Nat.le_refl _, len, entry, fun m _ _ _ => by omega⟩
      · rintro ⟨-, bound, -, at_n, longer⟩
        have longest : n = k + 1 := by
          by_contra shorter
          rw [longer (k + 1) (by omega) (Nat.le_refl _) len] at entry
          cases entry
        subst longest
        rw [entry] at at_n
        cases at_n
        rfl
    · have miss : k + 1 ≤ ds.length → s.prefixEntry (ds.take (k + 1)) = none := fun len =>
        Option.eq_none_iff_forall_ne_some.mpr (fun x entry => hit ⟨len, x, entry⟩)
      rw [longestUpTo_succ_of_none miss, ih]
      constructor
      · rintro ⟨pos, bound, len, at_n, longer⟩
        refine ⟨pos, by omega, len, at_n, fun m above upto hm => ?_⟩
        rcases Nat.le_succ_iff.mp upto with upto | rfl
        · exact longer m above upto hm
        · exact miss hm
      · rintro ⟨pos, bound, len, at_n, longer⟩
        have shorter : n ≠ k + 1 := by
          rintro rfl
          rw [miss len] at at_n
          cases at_n
        exact ⟨pos, by omega, len, at_n, fun m above upto hm => longer m above (by omega) hm⟩

/-! ## The result of the analysis (R54) -/

theorem findTarget_of_none {s : State} {ds : List Nat} (h : longestMatch s ds = none) :
    findTarget s ds = .error .noRoute := by
  simp only [findTarget, h]

theorem findTarget_of_some {s : State} {ds : List Nat} {n d : Nat} (h : longestMatch s ds = some (n, d)) :
    findTarget s ds =
      if (s.dest d).inUse && !(s.dest d).barred then .ok ⟨d, (s.dest d).plan, n⟩ else .error .barred := by
  simp only [findTarget, h]

/-- Settles O21: the search from 16 digits down finds the longest match, and the analysis ends by what it finds and by the
record of the destination found. -/
theorem longestPrefixMatch : Obligations.LongestPrefixMatch := by
  intro s ds
  have longest := longestUpTo_eq_some_iff s ds 16
  refine ⟨longest, fun noEntry => findTarget_of_none ?no_match, fun n d found => ⟨fun closed => ?_, fun inUse free => ?_⟩⟩
  case no_match =>
    refine Option.eq_none_iff_forall_ne_some.mpr (fun ⟨n, d⟩ found => ?_)
    obtain ⟨pos, bound, len, entry, -⟩ := (longest n d).mp found
    rw [noEntry n pos bound len] at entry
    cases entry
  · rw [findTarget_of_some found]
    rcases closed with unused | barred
    · simp [unused]
    · simp [barred]
  · simp [findTarget_of_some found, inUse, free]

/-! ## The gap check (R60) -/

theorem gapAdmits_normal_of_none {s : State} {d : Nat} (h : s.gap d = none) : gapAdmits s d .normal = true := by
  simp only [gapAdmits, h]

theorem gapAdmits_normal_of_some {s : State} {d : Nat} {g : Gap} (h : s.gap d = some g) :
    gapAdmits s d .normal = decide (g.nextAdmit ≤ s.now) := by
  simp only [gapAdmits, h]

theorem afterGapCheck_normal_of_none {s : State} {d : Nat} (h : s.gap d = none) : afterGapCheck d .normal s = s := by
  simp only [afterGapCheck, h]

/-- R60: an entry at or after its next-admit time. -/
theorem afterGapCheck_normal_of_reached {s : State} {d : Nat} {g : Gap} (h : s.gap d = some g)
    (reached : g.nextAdmit ≤ s.now) :
    afterGapCheck d .normal s = s.setGap d (some { g with nextAdmit := s.now + g.interval * 100 }) := by
  simp only [afterGapCheck, h, if_pos reached]

/-- R60: an entry before its next-admit time. -/
theorem afterGapCheck_normal_of_early {s : State} {d : Nat} {g : Gap} (h : s.gap d = some g)
    (early : s.now < g.nextAdmit) :
    afterGapCheck d .normal s = s.setGap d (some { g with refused := min (g.refused + 1) Config.refusedMax }) := by
  simp only [afterGapCheck, h, if_neg (Nat.not_le.mpr early)]

/-- R60: whatever the time, the check of a NORMAL call at an entry writes that entry alone. -/
theorem afterGapCheck_normal_writes {s : State} {d : Nat} {g : Gap} (h : s.gap d = some g) :
    ∃ x, afterGapCheck d .normal s = s.setGap d x := by
  rcases Nat.lt_or_ge s.now g.nextAdmit with early | reached
  · exact ⟨_, afterGapCheck_normal_of_early h early⟩
  · exact ⟨_, afterGapCheck_normal_of_reached h reached⟩

/-- Settles O23, by the class, the entry and the time. -/
theorem gapCheck : Obligations.GapCheck := by
  intro s d
  refine ⟨rfl, rfl, fun h => ⟨gapAdmits_normal_of_none h, afterGapCheck_normal_of_none h⟩, fun g h => ?_⟩
  obtain ⟨x, writes⟩ := afterGapCheck_normal_writes h
  refine ⟨?admits, fun reached => ?_, fun early => ?_, fun e other => ?_, ?frame⟩
  case admits => rw [gapAdmits_normal_of_some h, decide_eq_true_eq]
  · rw [afterGapCheck_normal_of_reached h reached, State.gap_setGap_same]
  · rw [afterGapCheck_normal_of_early h early, State.gap_setGap_same]
    rfl
  · rw [writes, State.gap_setGap_other s d e x other]
  case frame =>
    rw [writes]
    rfl

end Sys2Proof.Machine
end

section
/-! Invalidation in the route memory (R99, R100) and the requests that lead to it or stand beside it: WRITE_DEST,
SET_REATTEMPT_LIMIT and FLUSH_ROUTE_MEMORY. -/

namespace Sys2Proof.Machine

/-! ## Parameters set to the nearer end of their range (R187) -/

theorem clamp_zero (hi x : Nat) : clamp 0 hi x = min x hi := by
  simp only [clamp, Nat.not_lt_zero, if_false]
  split <;> omega

theorem okOr_outside_zero (hi x : Nat) : okOr (outside 0 hi x) = if hi < x then .adjusted else .ok := by
  simp [okOr, outside]

/-! ## Entries dropped (R99) -/

@[simp] theorem dropEntries_pointer (gone : MemoryEntry → Bool) (m : MemorySet) :
    (dropEntries gone m).pointer = m.pointer := rfl

/-- An entry is valid after a drop exactly when it was valid in the same way and is not one of those dropped. -/
theorem dropEntries_way_iff (gone : MemoryEntry → Bool) (m : MemorySet) (i : Nat) (e : MemoryEntry) :
    (dropEntries gone m).ways[i]? = some (some e) ↔ m.ways[i]? = some (some e) ∧ gone e = false := by
  simp only [dropEntries, List.getElem?_map]
  rcases m.ways[i]? with _ | _ | f
  · simp
  · simp
  · cases h : gone f
    · simp only [Option.map_some, h, Bool.false_eq_true, if_false, Option.some.injEq]
      constructor
      · rintro rfl
        exact ⟨rfl, h⟩
      · exact And.left
    · simp only [Option.map_some, h, if_true, Option.some.injEq, reduceCtorEq, false_iff]
      rintro ⟨rfl, kept⟩
      rw [h] at kept
      cases kept

/-- R99: an invalidation drops entries in every set of a memory in canonical form. -/
theorem memorySet_invalidate {s : State} (h : s.memory.sets.wf = true) (gone : MemoryEntry → Bool) (k : Nat) :
    (invalidate gone s).memorySet k = dropEntries gone (s.memorySet k) :=
  Table.get_mapValues _ s.memory.sets k h rfl

theorem memorySet_invalidateDestination_same (d : Nat) (s : State) :
    (invalidateDestination d s).memorySet (setOf d) =
      dropEntries (fun e => e.tag == tagOf d) (s.memorySet (setOf d)) :=
  s.memorySet_setMemorySet_same _ _

theorem memorySet_invalidateDestination_other (s : State) {d k : Nat} (h : k ≠ setOf d) :
    (invalidateDestination d s).memorySet k = s.memorySet k :=
  s.memorySet_setMemorySet_other _ _ _ h

@[simp] theorem pointer_invalidateDestination (d : Nat) (s : State) (k : Nat) :
    ((invalidateDestination d s).memorySet k).pointer = (s.memorySet k).pointer := by
  by_cases h : k = setOf d
  · rw [h, memorySet_invalidateDestination_same, dropEntries_pointer]
  · rw [memorySet_invalidateDestination_other s h]

/-- R89, R99: the entries valid after a destination's is invalidated are the others: those of another set or another
tag. -/
theorem way_invalidateDestination_iff (d : Nat) (s : State) (k i : Nat) (e : MemoryEntry) :
    ((invalidateDestination d s).memorySet k).ways[i]? = some (some e) ↔
      (s.memorySet k).ways[i]? = some (some e) ∧ ¬(k = setOf d ∧ e.tag = tagOf d) := by
  by_cases h : k = setOf d
  · rw [h, memorySet_invalidateDestination_same, dropEntries_way_iff]
    simp only [true_and, beq_eq_false_iff_ne, ne_eq]
  · rw [memorySet_invalidateDestination_other s h]
    simp only [h, false_and, not_false_eq_true, and_true]

/-! ## WRITE_DEST (R53) -/

theorem writeDestination_dest_same (d : Nat) (x : Destination) (s : State) : (writeDestination d x s).dest d = x :=
  Table.get_set_same s.analyser.destinations d x

theorem writeDestination_dest_other (s : State) {d e : Nat} (x : Destination) (h : e ≠ d) :
    (writeDestination d x s).dest e = s.dest e :=
  Table.get_set_other s.analyser.destinations d e x h

/-- R53: a parameter that names no value is refused before any range is looked at. -/
theorem handleWriteDest_malformed {dest plan : Option Nat} {barred inUse : Option Bool}
    (h : dest = none ∨ plan = none ∨ barred = none ∨ inUse = none) (u : State) :
    handleWriteDest dest plan barred inUse u = refuse .badRequest u := by
  simp only [handleWriteDest]
  split
  · simp at h
  · rfl

theorem handleWriteDest_outOfRange {d p : Nat} (h : 2047 < d ∨ 1023 < p) (x y : Bool) (u : State) :
    handleWriteDest (some d) (some p) (some x) (some y) u = refuse .outOfRange u := by
  have h : Config.destinations ≤ d ∨ Config.plans ≤ p := h
  simp only [handleWriteDest, ← ite_or, if_pos h]

theorem handleWriteDest_writes {d p : Nat} (hd : d ≤ 2047) (hp : p ≤ 1023) (x y : Bool) (u : State) :
    handleWriteDest (some d) (some p) (some x) (some y) u =
      ⟨writeDestination d ⟨p, x, y⟩ u, .ok, .destinationBefore (u.dest d)⟩ := by
  have hd : ¬Config.destinations ≤ d := Nat.not_le.mpr (Nat.lt_succ_of_le hd)
  have hp : ¬Config.plans ≤ p := Nat.not_le.mpr (Nat.lt_succ_of_le hp)
  simp only [handleWriteDest, if_neg hd, if_neg hp]

theorem exec_writeDest (r : Sender) (dest plan : Option Nat) (barred inUse : Option Bool) (s : State) :
    exec (.writeDest r dest plan barred inUse) s =
      request (.writeDest r dest plan barred inUse) r RequestKind.writeDest.code
        (handleWriteDest dest plan barred inUse) s := rfl

/-! ## SET_REATTEMPT_LIMIT (R85) and FLUSH_ROUTE_MEMORY (R100) -/

theorem handleReattemptLimit_some (n : Nat) (u : State) :
    handleReattemptLimit (some n) u =
      ⟨{ u with routes := { u.routes with reattemptLimit := min n 7 } }, if 7 < n then .adjusted else .ok,
        .limitChanged u.routes.reattemptLimit (min n 7)⟩ := by
  simp only [handleReattemptLimit, clamp_zero, okOr_outside_zero]

theorem exec_setReattemptLimit (r : Sender) (limit : Option Nat) (s : State) :
    exec (.setReattemptLimit r limit) s =
      request (.setReattemptLimit r limit) r RequestKind.setReattemptLimit.code (handleReattemptLimit limit) s := rfl

theorem exec_flushRouteMemory (r : Sender) (s : State) :
    exec (.flushRouteMemory r) s =
      request (.flushRouteMemory r) r RequestKind.flushRouteMemory.code handleFlush s := rfl

/-- R100: after an invalidation of everything no way of any set is valid. -/
theorem way_invalidateAll_ne {s : State} (h : s.memory.sets.wf = true) (k i : Nat) (e : MemoryEntry) :
    ((invalidateAll s).memorySet k).ways[i]? ≠ some (some e) := by
  rw [invalidateAll, memorySet_invalidate h, ne_eq, dropEntries_way_iff]
  simp

/-- Settles O24: WRITE_DEST writes one destination record and drops one tag in one set, and FLUSH_ROUTE_MEMORY drops every
entry of a memory in canonical form. -/
theorem destinationsLimitAndFlush : Obligations.DestinationsLimitAndFlush := by
  intro r dest plan limit barred inUse s u sound
  refine ⟨fun write => ⟨?malformed, ?write⟩, fun set => ⟨?no_limit, ?limit⟩, fun flush => ?flush⟩
  case malformed =>
    intro missing
    exact answers_of rfl (exec_writeDest r dest plan barred inUse s) write (handleWriteDest_malformed missing u)
  case write =>
    rintro d p x y rfl rfl rfl rfl
    refine ⟨fun range => ?_, fun hd hp => ⟨writeDestination d ⟨p, x, y⟩ u, ?_, writeDestination_dest_same d _ u,
      fun e other => writeDestination_dest_other u _ other, rfl, fun k => pointer_invalidateDestination d _ k,
      fun k i e => way_invalidateDestination_iff d _ k i e⟩⟩
    · exact answers_of rfl (exec_writeDest r _ _ _ _ s) write (handleWriteDest_outOfRange range x y u)
    · exact answers_of rfl (exec_writeDest r _ _ _ _ s) write (handleWriteDest_writes hd hp x y u)
  case no_limit =>
    rintro rfl
    exact answers_of rfl (exec_setReattemptLimit r none s) set rfl
  case limit =>
    rintro n rfl
    exact answers_of rfl (exec_setReattemptLimit r (some n) s) set (handleReattemptLimit_some n u)
  case flush =>
    have canonical : u.memory.sets.wf = true := (takes_memory flush).symm ▸ sound.1
    refine ⟨invalidateAll u, answers_of rfl (exec_flushRouteMemory r s) flush rfl, rfl, fun k => ?_,
      fun k i e => way_invalidateAll_ne canonical k i e⟩
    rw [invalidateAll, memorySet_invalidate canonical, dropEntries_pointer]

end Sys2Proof.Machine
end

section
/-! WRITE_PLAN (R64, R65): what reading its steps and its ordered checks say, and what storing a plan makes of the plan table,
the group-to-plan sets, the plan's exhaustion and the route memory. -/

namespace Sys2Proof.Machine

/-! ## Reading and checking the steps (R64) -/

theorem readAll_eq_some_iff {α β : Type} (f : α → Option β) (xs : List α) (ys : List β) :
    readAll f xs = some ys ↔ xs.map f = ys.map some := by
  induction xs generalizing ys with
  | nil => cases ys <;> simp [readAll]
  | cons x xs ih =>
    cases ys with
    | nil => cases hx : f x <;> cases hr : readAll f xs <;> simp [readAll, hx, hr]
    | cons y ys =>
      rw [List.map_cons, List.map_cons, List.cons.injEq, ← ih]
      cases hx : f x <;> cases hr : readAll f xs <;> simp [readAll, hx, hr]

/-- R64 check 2: a list with no step, more than 8, or one that is not whole is not read. -/
theorem readSteps_eq_none {args : List StepArg}
    (h : args.length < 1 ∨ 8 < args.length ∨ ∃ a ∈ args, readStep a = none) : readSteps args = none := by
  by_cases count : 1 ≤ args.length ∧ args.length ≤ 8
  · obtain ⟨a, ha, unread⟩ : ∃ a ∈ args, readStep a = none := by
      rcases h with few | many | part
      · omega
      · omega
      · exact part
    rw [readSteps, if_pos count, Option.eq_none_iff_forall_ne_some]
    intro steps read
    have listed : readStep a ∈ steps.map some := (readAll_eq_some_iff _ _ _).mp read ▸ List.mem_map_of_mem ha
    simp [unread] at listed
  · exact if_neg count

theorem readSteps_eq_some {args : List StepArg} {steps : List PlanStep} (least : 1 ≤ args.length)
    (most : args.length ≤ 8) (whole : args.map readStep = steps.map some) : readSteps args = some steps := by
  rw [readSteps, if_pos ⟨least, most⟩, readAll_eq_some_iff, whole]

/-- R64 check 5: kinds in order between neighbours are in order throughout. -/
theorem kindsInOrder_iff (steps : List PlanStep) :
    kindsInOrder steps = true ↔ (steps.map (·.kind.rank)).Pairwise (· ≤ ·) := by
  rw [← List.isChain_iff_pairwise]
  induction steps with
  | nil => simp [kindsInOrder]
  | cons x rest ih =>
    cases rest with
    | nil => simp [kindsInOrder]
    | cons y rest => simpa [kindsInOrder] using fun _ => ih

theorem noRepeat_iff {α : Type} [DecidableEq α] (l : List α) : noRepeat l = true ↔ l.Nodup := by
  induction l with
  | nil => simp [noRepeat]
  | cons x l ih => simp [noRepeat, ih]

theorem groupsDistinct_iff (steps : List PlanStep) :
    groupsDistinct steps = true ↔ (steps.map (·.group)).Nodup := noRepeat_iff _

/-- R64 checks 3 to 6, each as the spec words it. -/
theorem planRefusal_eq_ite (steps : List PlanStep) :
    planRefusal steps =
      if ∃ x ∈ steps, 255 < x.group then some .outOfRange
      else if ∃ x ∈ steps, 7 < x.tariffClass then some .outOfRange
      else if ¬(steps.map (·.kind.rank)).Pairwise (· ≤ ·) then some .badPlan
      else if ¬(steps.map (·.group)).Nodup then some .badPlan
      else none := by
  simp only [planRefusal, List.any_eq_true, decide_eq_true_eq, Bool.not_eq_true', ← Bool.not_eq_true, kindsInOrder_iff,
    groupsDistinct_iff, Config.groups, Config.tariffClasses, Nat.succ_le_iff]

theorem planRefusal_of_firstOf {steps : List PlanStep} {st : Status}
    (h : FirstOf
      [(∃ x ∈ steps, 255 < x.group, .outOfRange), (∃ x ∈ steps, 7 < x.tariffClass, .outOfRange),
        (¬(steps.map (·.kind.rank)).Pairwise (· ≤ ·), .badPlan), (¬(steps.map (·.group)).Nodup, .badPlan)] st) :
    planRefusal steps = some st := by
  rw [planRefusal_eq_ite]
  rcases h with ⟨group, rfl⟩ | ⟨group, ⟨tariff, rfl⟩ | ⟨tariff, ⟨order, rfl⟩ | ⟨order, ⟨twice, rfl⟩ | ⟨-, noCheck⟩⟩⟩⟩
  · rw [if_pos group]
  · rw [if_neg group, if_pos tariff]
  · rw [if_neg group, if_neg tariff, if_pos order]
  · rw [if_neg group, if_neg tariff, if_neg order, if_pos twice]
  · exact noCheck.elim

theorem planRefusal_eq_none {steps : List PlanStep} (fits : ∀ x ∈ steps, x.group ≤ 255 ∧ x.tariffClass ≤ 7)
    (order : (steps.map (·.kind.rank)).Pairwise (· ≤ ·)) (once : (steps.map (·.group)).Nodup) :
    planRefusal steps = none := by
  have group : ¬∃ x ∈ steps, 255 < x.group := fun ⟨x, hx, above⟩ => absurd (fits x hx).1 (Nat.not_le.mpr above)
  have tariff : ¬∃ x ∈ steps, 7 < x.tariffClass := fun ⟨x, hx, above⟩ => absurd (fits x hx).2 (Nat.not_le.mpr above)
  rw [planRefusal_eq_ite, if_neg group, if_neg tariff, if_neg (not_not.mpr order), if_neg (not_not.mpr once)]

/-! ## The handler, by its checks -/

theorem handleWritePlan_outOfRange {p : Nat} (range : 1023 < p) (args : List StepArg) (u : State) :
    handleWritePlan p args u = refuse .outOfRange u := if_pos range

theorem handleWritePlan_unread {p : Nat} {args : List StepArg} (range : p ≤ 1023) (unread : readSteps args = none)
    (u : State) : handleWritePlan p args u = refuse .badRequest u := by
  have range : ¬Config.plans ≤ p := Nat.not_le.mpr (Nat.lt_succ_of_le range)
  simp only [handleWritePlan, if_neg range, unread]

theorem handleWritePlan_refused {p : Nat} {args : List StepArg} {steps : List PlanStep} {st : Status} (range : p ≤ 1023)
    (read : readSteps args = some steps) (refused : planRefusal steps = some st) (u : State) :
    handleWritePlan p args u = refuse st u := by
  have range : ¬Config.plans ≤ p := Nat.not_le.mpr (Nat.lt_succ_of_le range)
  simp only [handleWritePlan, if_neg range, read, refused]

theorem handleWritePlan_stores {p : Nat} {args : List StepArg} {steps : List PlanStep} (range : p ≤ 1023)
    (read : readSteps args = some steps) (passed : planRefusal steps = none) (u : State) :
    handleWritePlan p args u = ⟨storePlan p steps u, .ok, .planWritten (u.plan p).length steps.length⟩ := by
  have range : ¬Config.plans ≤ p := Nat.not_le.mpr (Nat.lt_succ_of_le range)
  simp only [handleWritePlan, if_neg range, read, passed]

/-! ## The group-to-plan sets (R65 step 1) -/

theorem mem_insertNumber (k x : Nat) (l : List Nat) : x ∈ insertNumber k l ↔ x = k ∨ x ∈ l := by
  induction l with
  | nil => simp [insertNumber]
  | cons i l ih =>
    rcases Nat.lt_trichotomy k i with below | rfl | above
    · simp [insertNumber, below]
    · simp [insertNumber]
    · simp [insertNumber, Nat.lt_asymm above, Nat.ne_of_lt above, ih, or_left_comm]

theorem mem_removeNumber (k x : Nat) (l : List Nat) : x ∈ removeNumber k l ↔ x ∈ l ∧ x ≠ k := by
  simp [removeNumber]

/-- Joining the sets of the groups of some steps. -/
theorem mem_foldl_insert_iff (p n q : Nat) (steps : List PlanStep) (t : Table (List Nat) []) :
    q ∈ (steps.foldl (fun t st => t.set st.group (insertNumber p (t.get st.group))) t).get n ↔
      q ∈ t.get n ∨ (q = p ∧ ∃ st ∈ steps, st.group = n) := by
  induction steps generalizing t with
  | nil => simp
  | cons x steps ih =>
    rw [List.foldl_cons, ih, Table.get_set]
    by_cases named : n = x.group
    · subst named
      simp only [if_true, mem_insertNumber, List.exists_mem_cons_iff, true_or, and_true]
      tauto
    · simp only [if_neg named, List.exists_mem_cons_iff, Ne.symm named, false_or]

/-- Leaving the sets of the groups of some steps. -/
theorem mem_foldl_remove_iff (p n q : Nat) (steps : List PlanStep) (t : Table (List Nat) []) :
    q ∈ (steps.foldl (fun t st => t.set st.group (removeNumber p (t.get st.group))) t).get n ↔
      q ∈ t.get n ∧ ¬(q = p ∧ ∃ st ∈ steps, st.group = n) := by
  induction steps generalizing t with
  | nil => simp
  | cons x steps ih =>
    rw [List.foldl_cons, ih, Table.get_set]
    by_cases named : n = x.group
    · subst named
      simp only [if_true, mem_removeNumber, List.exists_mem_cons_iff, true_or, and_true]
      tauto
    · simp only [if_neg named, List.exists_mem_cons_iff, Ne.symm named, false_or]

theorem mem_updatePlanSets_iff (p n q : Nat) (old new : List PlanStep) (t : Table (List Nat) []) :
    q ∈ (updatePlanSets p old new t).get n ↔
      (q ∈ t.get n ∧ ¬(q = p ∧ ∃ st ∈ old, st.group = n)) ∨ (q = p ∧ ∃ st ∈ new, st.group = n) := by
  rw [updatePlanSets, mem_foldl_insert_iff, mem_foldl_remove_iff]

/-! ## What a re-evaluation leaves (R46) -/

/-- R46: a re-evaluation writes the level of its plan and no other field of the controller. -/
theorem evaluatePlan_service (s : State) (p : Nat) :
    (evaluatePlan s p).service = { s.service with exhausted := (evaluatePlan s p).service.exhausted } := by
  by_cases same : planExhausted s p = s.service.exhausted.get p
  · rw [evaluatePlan_of_same same]
  · rw [evaluatePlan_of_change same, (reportLevel_told _ _ _).service]

theorem evaluatePlan_exhausted (s : State) (p q : Nat) :
    (evaluatePlan s p).service.exhausted.get q = if q = p then planExhausted s p else s.service.exhausted.get q := by
  by_cases same : planExhausted s p = s.service.exhausted.get p
  · rw [evaluatePlan_of_same same]
    by_cases hq : q = p <;> simp [hq, same]
  · rw [evaluatePlan_of_change same, (reportLevel_told _ _ _).service]
    exact Table.get_set _ _ _ _

/-- R45: exhaustion reads the steps of the plan, the plant store and the service records of the groups. -/
theorem planExhausted_congr {s t : State} {p : Nat} (plan : t.plan p = s.plan p) (plant : t.plant = s.plant)
    (groups : ∀ n, t.svc n = s.svc n) : planExhausted t p = planExhausted s p := by
  simp only [planExhausted, hasRoom, State.group, plan, plant, groups]

/-! ## What storing a plan leaves (R65) -/

/-- The plan table and the group-to-plan sets written, before the plan is re-evaluated. -/
def withPlan (p : Nat) (steps : List PlanStep) (s : State) : State :=
  { s with
    routes := { s.routes with plans := s.routes.plans.set p steps }
    service := { s.service with planSets := updatePlanSets p (s.plan p) steps s.service.planSets } }

theorem storePlan_eq (p : Nat) (steps : List PlanStep) (s : State) :
    storePlan p steps s = invalidatePlan p (evaluatePlan (withPlan p steps s) p) := rfl

/-- R65: but for the controller, the ports, the levels and the route memory, only the plan table is written. -/
theorem storePlan_eq_served (p : Nat) (steps : List PlanStep) (s : State) :
    storePlan p steps s =
      { withPlan p steps s with
        service := (storePlan p steps s).service
        ports := (storePlan p steps s).ports
        levels := (storePlan p steps s).levels
        memory := (storePlan p steps s).memory } :=
  congrArg (fun t => { t with memory := (storePlan p steps s).memory }) (evaluatePlan_served (withPlan p steps s) p).1

theorem storePlan_service (p : Nat) (steps : List PlanStep) (s : State) :
    (storePlan p steps s).service =
      { (withPlan p steps s).service with exhausted := (storePlan p steps s).service.exhausted } :=
  evaluatePlan_service _ _

theorem storePlan_plant (p : Nat) (steps : List PlanStep) (s : State) :
    (storePlan p steps s).plant = (withPlan p steps s).plant := by
  rw [storePlan_eq_served]

theorem withPlan_plan (p : Nat) (steps : List PlanStep) (s : State) (q : Nat) :
    (withPlan p steps s).plan q = if q = p then steps else s.plan q := Table.get_set _ _ _ _

theorem storePlan_plan (p : Nat) (steps : List PlanStep) (s : State) (q : Nat) :
    (storePlan p steps s).plan q = if q = p then steps else s.plan q := by
  rw [storePlan_eq_served]
  exact withPlan_plan p steps s q

theorem storePlan_svc (p : Nat) (steps : List PlanStep) (s : State) (n : Nat) :
    (storePlan p steps s).svc n = s.svc n := by
  rw [State.svc, storePlan_service]
  rfl

/-- R65 step 2: the exhaustion stored is that of the new steps. -/
theorem storePlan_exhausted (p : Nat) (steps : List PlanStep) (s : State) (q : Nat) :
    (storePlan p steps s).service.exhausted.get q =
      if q = p then planExhausted (storePlan p steps s) p else s.service.exhausted.get q := by
  have same : planExhausted (storePlan p steps s) p = planExhausted (withPlan p steps s) p :=
    planExhausted_congr (by rw [storePlan_plan, withPlan_plan]) (storePlan_plant p steps s) (storePlan_svc p steps s)
  rw [same]
  exact evaluatePlan_exhausted _ _ _

/-- R65 step 1: with the sets right before, the plan stands in those of the groups that its new steps name. -/
theorem mem_storePlan_planSets_iff {s : State}
    (sets : ∀ q n, q ∈ s.service.planSets.get n ↔ ∃ st ∈ s.plan q, st.group = n) (p : Nat) (steps : List PlanStep)
    (n q : Nat) :
    q ∈ (storePlan p steps s).service.planSets.get n ↔ ∃ st ∈ (storePlan p steps s).plan q, st.group = n := by
  rw [storePlan_service, storePlan_plan]
  refine (mem_updatePlanSets_iff p n q (s.plan p) steps s.service.planSets).trans ?_
  rw [sets]
  by_cases hq : q = p
  · subst hq
    simp
  · simp [hq]

/-- R65 step 3: the entries that record the plan are dropped from every set. -/
theorem memorySet_storePlan {s : State} (canonical : s.memory.sets.wf = true) (p : Nat) (steps : List PlanStep)
    (k : Nat) :
    (storePlan p steps s).memorySet k = dropEntries (fun e => e.plan == p) (s.memorySet k) := by
  have memory : (evaluatePlan (withPlan p steps s) p).memory = s.memory := by
    rw [(evaluatePlan_served (withPlan p steps s) p).1]
    rfl
  rw [storePlan_eq, invalidatePlan, memorySet_invalidate (memory.symm ▸ canonical), State.memorySet, memory]
  rfl

theorem storePlan_samePorts (p : Nat) (steps : List PlanStep) (s : State) : SamePorts s (storePlan p steps s) :=
  (evaluatePlan_served (withPlan p steps s) p).2.1

theorem exec_writePlan (r : Sender) (p : Nat) (args : List StepArg) (s : State) :
    exec (.writePlan r p args) s =
      request (.writePlan r p args) r RequestKind.writePlan.code (handleWritePlan p args) s := rfl

/-- Settles O25: the checks in their order, and then the plan stored, re-evaluated and dropped from the route memory. -/
theorem writePlan : Obligations.WritePlan := by
  intro r p args s u memory routes take
  have canonical : u.memory.sets.wf = true := (takes_memory take).symm ▸ memory.1
  obtain ⟨-, sets, -⟩ : RoutesSound u := by rw [takes_blocks take]; exact routes
  have answers {v st x} := answers_of (v := v) (st := st) (x := x) rfl (exec_writePlan r p args s) take
  refine ⟨fun range => answers (handleWritePlan_outOfRange range args u),
    fun range form => answers (handleWritePlan_unread range (readSteps_eq_none form) u),
    fun steps range least most whole => ⟨fun st checks => ?refused, fun fits order once => ?stored⟩⟩
  case refused =>
    have read := readSteps_eq_some least most whole
    exact answers (handleWritePlan_refused range read (planRefusal_of_firstOf checks) u)
  case stored =>
    have read := readSteps_eq_some least most whole
    have exhausted := storePlan_exhausted p steps u
    have plans := storePlan_plan p steps u
    refine ⟨storePlan p steps u, answers (handleWritePlan_stores range read (planRefusal_eq_none fits order once) u),
      by rw [plans, if_pos rfl], fun q hq => by rw [plans, if_neg hq], by rw [exhausted, if_pos rfl],
      fun q hq => by rw [exhausted, if_neg hq], mem_storePlan_planSets_iff sets p steps, storePlan_svc p steps u,
      by rw [storePlan_service]; rfl, fun k => by rw [memorySet_storePlan canonical, dropEntries_pointer],
      fun k i e => ?entries, ?plant, ?analyser, ?calls, ?tariff, ?settlement, ?limit, storePlan_samePorts p steps u⟩
    case entries => rw [memorySet_storePlan canonical, dropEntries_way_iff, beq_eq_false_iff_ne]
    all_goals rw [storePlan_eq_served]; rfl

end Sys2Proof.Machine
end

section
/-! The walk over a plan (R69 to R80): when a step is eligible and what trying it gives, the steps of each part with their
indexes, the choice of the pool try, and the step, flags and failure outcome that a walk ends with. -/

namespace Sys2Proof.Machine

/-! ## Eligibility (R69 to R71) -/

theorem Direction.ne_inOnly_iff (d : Direction) : d ≠ .inOnly ↔ d = .both ∨ d = .outOnly := by
  cases d <;> simp

/-- R69 to R71: the conditions on a step, each as the spec words it. -/
theorem eligible_iff (s : State) (c : WalkCall) (st : PlanStep) :
    eligible s c st = true ↔
      ∃ g, s.group st.group = some g ∧ st.group ≠ c.inGroup ∧ (g.direction = .both ∨ g.direction = .outOnly) ∧
        ((s.svc st.group).service = .inService ∨ (s.svc st.group).service = .drainSuspended) ∧ 0 < g.available ∧
        (c.cls = .normal →
          (st.kind = .primary →
            (s.svc st.group).farLevel ≤ 1 ∨ ((s.svc st.group).farLevel = 2 ∧ g.threshold < g.available)) ∧
          (st.kind ≠ .primary → (s.svc st.group).farLevel = 0 ∧ g.threshold < g.available)) := by
  cases hg : s.group st.group with
  | none => simp [eligible, basicallyEligible, hg]
  | some g =>
    simp only [eligible, basicallyEligible, farEndEligible, hg, Bool.and_eq_true, decide_eq_true_eq, allowsOutbound_iff,
      Direction.ne_inOnly_iff, ServiceState.takesTraffic_iff, farEndAllows_iff, and_assoc, Option.some.injEq,
      exists_eq_left']
    rfl

/-- R2: the available count of a sound group is the size of its idle set. -/
theorem GroupSound.available_eq {s : State} {n : Nat} {g : Group} (h : GroupSound s n g) :
    g.available = g.idleSet.length := by
  obtain ⟨idle, available, -⟩ := h
  rw [idle, available, List.length_map]

/-- R12, R69 to R71: in a sound plant the seizure that an eligible step asks for succeeds. -/
theorem outboundPick_of_eligible {s : State} (sound : PlantSound s) {c : WalkCall} {st : PlanStep}
    (h : eligible s c st = true) : ∃ z, outboundPick s st.group c.cls st.kind = some z := by
  obtain ⟨g, hg, -, direction, service, idle, farEnd⟩ := (eligible_iff s c st).mp h
  obtain ⟨-, -, groups⟩ := sound
  have nonempty : g.idleSet ≠ [] := by
    rw [(groups _ g hg).available_eq] at idle
    exact List.ne_nil_of_length_pos idle
  rw [← Option.isSome_iff_exists, outboundPick_isSome_iff hg, seizable_iff, Direction.ne_inOnly_iff]
  exact ⟨direction, service, nonempty, farEnd⟩

/-- R2, R13: the circuit picked in a sound plant is one of the group. -/
theorem circuit_of_outboundPick {s : State} (sound : PlantSound s) {n : Nat} {cls : CallClass} {kind : StepKind}
    {z : Seized} (h : outboundPick s n cls kind = some z) : ∃ e, s.circuit z.circuit = some e ∧ e.group = n := by
  cases hg : s.group n with
  | none => simp [outboundPick, hg] at h
  | some g =>
    obtain ⟨-, i, picked, rfl⟩ := (outboundPick_eq_some_iff hg cls kind z).mp h
    obtain ⟨canonical, -, groups⟩ := sound
    have idle := mem_idleSet_of_pickCircuit ((groups n g hg).idleSet_rising canonical) picked
    obtain ⟨e, he, hn, -⟩ := (groups n g hg).available_of_mem canonical idle
    exact ⟨e, he, hn⟩

/-! ## States that differ in the route memory alone -/

/-- What a lookup and an outcome leave: nothing but the route memory differs. -/
def OnlyMemory (s t : State) : Prop := t = { s with memory := t.memory }

theorem OnlyMemory.refl (s : State) : OnlyMemory s s := rfl

theorem OnlyMemory.trans {s t u : State} (h : OnlyMemory s t) (g : OnlyMemory t u) : OnlyMemory s u := by
  unfold OnlyMemory at g ⊢
  rw [h] at g
  exact g

theorem OnlyMemory.eligible {s t : State} (h : OnlyMemory s t) (c : WalkCall) (st : PlanStep) :
    Machine.eligible t c st = Machine.eligible s c st := by
  rw [h]
  rfl

theorem OnlyMemory.outboundPick {s t : State} (h : OnlyMemory s t) (n : Nat) (cls : CallClass) (kind : StepKind) :
    Machine.outboundPick t n cls kind = Machine.outboundPick s n cls kind := by
  rw [h]
  rfl

theorem OnlyMemory.circuit {s t : State} (h : OnlyMemory s t) (i : Nat) : t.circuit i = s.circuit i := by
  rw [h]
  rfl

theorem afterLookup_onlyMemory (d p : Nat) (s : State) : OnlyMemory s (afterLookup d p s) := by
  cases h : lookup s d p with
  | allocated m => simp only [afterLookup, h]; rfl
  | hit m => simp only [afterLookup, h]; rfl
  | gapped => simp only [afterLookup, h]; rfl
  | plansDiffer => simp only [afterLookup, h]; rfl

theorem afterChoice_onlyMemory (s : State) (c : WalkCall) : OnlyMemory s (afterChoice s c) := by
  simp only [afterChoice]
  split
  · exact afterLookup_onlyMemory _ _ s
  · exact OnlyMemory.refl s

theorem failureOutcome_onlyMemory (d p i : Nat) (s : State) : OnlyMemory s (failureOutcome d p i s) := by
  simp only [failureOutcome, outcome]
  split
  · exact OnlyMemory.refl s
  · split
    · rfl
    · exact OnlyMemory.refl s

/-! ## Trying a step (R74, R78) -/

theorem tryStep_of_ineligible {s : State} {c : WalkCall} {st : PlanStep} (h : eligible s c st = false) (i : Nat) :
    tryStep c i st s = ⟨s, none⟩ := by
  simp [tryStep, h]

theorem tryStep_of_pick {s : State} {c : WalkCall} {st : PlanStep} {z : Seized} (h : eligible s c st = true)
    (pick : outboundPick s st.group c.cls st.kind = some z) (i : Nat) :
    tryStep c i st s =
      ⟨occupyOut st.group z.circuit c.ref s,
        some ⟨z.circuit, st.group, z.carrier, i, st.kind, st.tariffClass, z.congestion⟩⟩ := by
  simp only [tryStep, h, if_true, pick]

theorem trySteps_of_ineligible {s : State} {c : WalkCall} {l : List (Nat × PlanStep)}
    (h : ∀ x ∈ l, eligible s c x.2 = false) : trySteps c l s = ⟨s, none⟩ := by
  induction l with
  | nil => rfl
  | cons x l ih =>
    obtain ⟨first, rest⟩ := List.forall_mem_cons.mp h
    simp only [trySteps, tryStep_of_ineligible first, ih rest]

/-- R74, R77: in a list in index order the walk ends at the first eligible step. -/
theorem trySteps_of_first {s : State} {c : WalkCall} {l : List (Nat × PlanStep)} {i : Nat} {st : PlanStep} {z : Seized}
    (order : l.Pairwise (fun x y => x.1 < y.1)) (listed : (i, st) ∈ l) (h : eligible s c st = true)
    (pick : outboundPick s st.group c.cls st.kind = some z)
    (before : ∀ x ∈ l, x.1 < i → eligible s c x.2 = false) :
    trySteps c l s =
      ⟨occupyOut st.group z.circuit c.ref s,
        some ⟨z.circuit, st.group, z.carrier, i, st.kind, st.tariffClass, z.congestion⟩⟩ := by
  induction l with
  | nil => exact absurd listed List.not_mem_nil
  | cons x l ih =>
    obtain ⟨above, order⟩ := List.pairwise_cons.mp order
    rcases List.mem_cons.mp listed with rfl | listed
    · simp only [trySteps, tryStep_of_pick h pick]
    · have first := before x List.mem_cons_self (above _ listed)
      simp only [trySteps, tryStep_of_ineligible first]
      exact ih order listed (fun y hy => before y (List.mem_cons_of_mem x hy))

/-! ## The steps of a part, with their indexes (R73) -/

theorem indexed_eq (steps : List PlanStep) (k : Nat) : indexed steps k = (steps.zipIdx k).map Prod.swap := by
  induction steps generalizing k with
  | nil => rfl
  | cons st steps ih => simp [indexed, ih]

theorem mem_indexed_iff (steps : List PlanStep) (i : Nat) (st : PlanStep) :
    (i, st) ∈ indexed steps 0 ↔ steps[i]? = some st := by
  rw [indexed_eq, ← List.mk_mem_zipIdx_iff_getElem?]
  exact List.mem_map_of_injective Prod.swap_injective (a := (st, i))

theorem indexed_rising (steps : List PlanStep) (k : Nat) : (indexed steps k).Pairwise (fun x y => x.1 < y.1) := by
  rw [← List.pairwise_map (R := (· < ·)), indexed_eq, List.map_map]
  have numbers : (steps.zipIdx k).map (Prod.fst ∘ Prod.swap) = List.range' k steps.length := List.zipIdx_map_snd k steps
  rw [numbers]
  exact List.pairwise_lt_range'

theorem mem_partSteps_iff (kind : StepKind) (start : Nat) (steps : List PlanStep) (i : Nat) (st : PlanStep) :
    (i, st) ∈ partSteps kind start steps ↔ start ≤ i ∧ steps[i]? = some st ∧ st.kind = kind := by
  simp only [partSteps, List.mem_filter, mem_indexed_iff, Bool.and_eq_true, decide_eq_true_eq]
  tauto

theorem partSteps_rising (kind : StepKind) (start : Nat) (steps : List PlanStep) :
    (partSteps kind start steps).Pairwise (fun x y => x.1 < y.1) := (indexed_rising steps 0).filter _

theorem mem_poolSteps_iff (steps : List PlanStep) (i : Nat) (st : PlanStep) :
    (i, st) ∈ poolSteps steps ↔ steps[i]? = some st ∧ st.kind = .pool := by
  simp only [poolSteps, List.mem_filter, mem_indexed_iff, decide_eq_true_eq]

theorem poolPartMade_iff (c : WalkCall) (steps : List PlanStep) :
    poolPartMade c steps = true ↔
      c.poolTried = false ∧
        ∃ (i : Nat) (st : PlanStep), c.start ≤ i ∧ steps[i]? = some st ∧ st.kind = .pool := by
  simp only [poolPartMade, Bool.and_eq_true, Bool.not_eq_true', List.isEmpty_eq_false_iff_exists_mem, Prod.exists,
    mem_partSteps_iff]

/-- A part none of whose steps is eligible seizes nothing and changes nothing. -/
theorem tryPart_of_none {s w : State} {c : WalkCall} {kind : StepKind} (same : OnlyMemory s w)
    (h : NoneEligible s c kind) : trySteps c (partSteps kind c.start (s.plan c.plan)) w = ⟨w, none⟩ := by
  refine trySteps_of_ineligible fun ⟨i, st⟩ listed => ?_
  obtain ⟨start, step, ofKind⟩ := (mem_partSteps_iff _ _ _ _ _).mp listed
  rw [same.eligible]
  exact h i st start step ofKind

/-- A part ends at its first eligible step. -/
theorem tryPart_of_first {s w : State} {c : WalkCall} {kind : StepKind} {i : Nat} {st : PlanStep} {z : Seized}
    (same : OnlyMemory s w) (h : FirstEligible s c kind i st)
    (pick : outboundPick s st.group c.cls st.kind = some z) :
    trySteps c (partSteps kind c.start (s.plan c.plan)) w =
      ⟨occupyOut st.group z.circuit c.ref w,
        some ⟨z.circuit, st.group, z.carrier, i, st.kind, st.tariffClass, z.congestion⟩⟩ := by
  obtain ⟨start, step, ofKind, able, before⟩ := h
  refine trySteps_of_first (partSteps_rising _ _ _) ((mem_partSteps_iff _ _ _ _ _).mpr ⟨start, step, ofKind⟩)
    (same.eligible c st ▸ able) (same.outboundPick _ _ _ ▸ pick) fun ⟨j, x⟩ listed below => ?_
  obtain ⟨start, step, ofKind⟩ := (mem_partSteps_iff _ _ _ _ _).mp listed
  rw [same.eligible]
  exact before j x start below step ofKind

/-- A part has a first eligible step or none. -/
theorem noneEligible_or_first (s : State) (c : WalkCall) (kind : StepKind) :
    NoneEligible s c kind ∨ ∃ i st, FirstEligible s c kind i st := by
  by_cases some_step : ∃ i st, c.start ≤ i ∧ (s.plan c.plan)[i]? = some st ∧ st.kind = kind ∧ eligible s c st = true
  · classical
    obtain ⟨st, start, step, ofKind, able⟩ := Nat.find_spec some_step
    refine .inr ⟨_, st, start, step, ofKind, able, fun j x start below step ofKind => ?_⟩
    rw [← Bool.not_eq_true]
    exact fun able => Nat.find_min some_step below ⟨x, start, step, ofKind, able⟩
  · refine .inl fun i st start step ofKind => ?_
    rw [← Bool.not_eq_true]
    exact fun able => some_step ⟨i, st, start, step, ofKind, able⟩

/-! ## The choice of the pool try (R75, R91, R94) -/

theorem findTag_mem {tag : Nat} {l : List (Option MemoryEntry)} {k way : Nat} {e : MemoryEntry}
    (h : findTag tag l k = some (way, e)) : some e ∈ l := by
  induction l generalizing k with
  | nil => cases h
  | cons x l ih =>
    cases x with
    | none => exact List.mem_cons_of_mem _ (ih h)
    | some f =>
      by_cases found : f.tag = tag
      · simp only [findTag, if_pos found, Option.some.injEq, Prod.mk.injEq] at h
        obtain ⟨-, rfl⟩ := h
        exact List.mem_cons_self
      · simp only [findTag, if_neg found] at h
        exact List.mem_cons_of_mem _ (ih h)

theorem cheapest_mem {s : State} {l : List (Nat × PlanStep)} {i r : Nat} (h : cheapest s l = some (i, r)) :
    ∃ st, (i, st) ∈ l := by
  induction l generalizing i r with
  | nil => cases h
  | cons x l ih =>
    obtain ⟨j, st⟩ := x
    have later {k q} (rest : cheapest s l = some (k, q)) : ∃ st', (k, st') ∈ (j, st) :: l :=
      (ih rest).imp fun _ listed => List.mem_cons_of_mem _ listed
    have first : ∃ st', (j, st') ∈ (j, st) :: l := ⟨st, List.mem_cons_self⟩
    simp only [cheapest] at h
    split at h
    · exact later h
    · cases h
      exact first
    · split at h
      · cases h
        exact first
      · cases h
        exact later ‹_›

/-- R94: an allocation for a plan with a pool chooses one of its POOL steps. -/
theorem chooseMember_mem {s : State} {p : Nat} (pool : poolSteps (s.plan p) ≠ []) :
    ∃ st, (chooseMember s p, st) ∈ poolSteps (s.plan p) := by
  simp only [chooseMember]
  split
  · exact cheapest_mem ‹_›
  · split
    · rename_i i st rest steps
      exact ⟨st, steps ▸ List.mem_cons_self⟩
    · contradiction

theorem lookup_hit_iff (s : State) (d p m : Nat) :
    lookup s d p = .hit m ↔ ∃ way e, entryOf s d = some (way, e) ∧ e.plan = p ∧ e.member = m := by
  simp only [lookup]
  split
  · rename_i way e entry
    by_cases same : e.plan = p <;> simp [entry, same]
  · rename_i noEntry
    by_cases plan : (s.dest d).plan = p <;> cases gap : (s.gap d) <;> simp [noEntry, plan]

theorem lookup_allocated {s : State} {d p m : Nat} (h : lookup s d p = .allocated m) : m = chooseMember s p := by
  simp only [lookup] at h
  split at h
  · split at h <;> cases h
  · split at h
    · cases h
    · split at h
      · cases h
      · exact (Lookup.allocated.inj h).symm

/-- R75, R88: the member that the route memory answers for a plan with a pool is a POOL step of the plan. -/
theorem lookup_member {s : State} (sound : MemorySound s) {d p m : Nat} (pool : poolSteps (s.plan p) ≠ [])
    (h : lookup s d p = .hit m ∨ lookup s d p = .allocated m) : ∃ st, (s.plan p)[m]? = some st ∧ st.kind = .pool := by
  rcases h with hit | allocated
  · obtain ⟨way, e, entry, rfl, rfl⟩ := (lookup_hit_iff s d p m).mp hit
    obtain ⟨-, sets⟩ := sound
    obtain ⟨-, -, entries, -⟩ := sets (setOf d)
    obtain ⟨-, -, -, member⟩ := entries e (findTag_mem entry)
    exact member
  · rw [lookup_allocated allocated]
    obtain ⟨st, listed⟩ := chooseMember_mem pool
    exact ⟨st, (mem_poolSteps_iff _ _ _).mp listed⟩

/-- R75: the first POOL step is the POOL step of the lowest index. -/
theorem firstPool_eq_some_iff (steps : List PlanStep) (m : Nat) :
    firstPool steps = some m ↔
      (∃ st, steps[m]? = some st ∧ st.kind = .pool) ∧
        ∀ (j : Nat) (x : PlanStep), steps[j]? = some x → x.kind = .pool → m ≤ j := by
  have rises : ((poolSteps steps).map Prod.fst).Pairwise (· < ·) :=
    List.pairwise_map.mpr ((indexed_rising steps 0).filter _)
  rw [firstPool, ← List.head?_map, head?_eq_some_iff_lowest rises]
  simp only [List.mem_map, Prod.exists, exists_and_right, exists_eq_right, mem_poolSteps_iff, forall_exists_index,
    and_imp]

/-- R75: the choice, when the route memory answers no member. -/
theorem poolChoice_of_none {s : State} {c : WalkCall}
    (h : (s.dest c.destination).plan ≠ c.plan ∨ lookup s c.destination c.plan = .gapped ∨
      lookup s c.destination c.plan = .plansDiffer) (steps : List PlanStep) :
    poolChoice s c steps = ⟨firstPool steps, false⟩ ∧ afterChoice s c = s := by
  by_cases same : (s.dest c.destination).plan = c.plan
  · rcases h with differ | gapped | differ
    · exact absurd same differ
    · simp [poolChoice, afterChoice, afterLookup, same, gapped]
    · simp [poolChoice, afterChoice, afterLookup, same, differ]
  · simp [poolChoice, afterChoice, same]

/-- R75: the choice, when the route memory answers a member. -/
theorem poolChoice_of_member {s : State} {c : WalkCall} {m : Nat} (same : (s.dest c.destination).plan = c.plan)
    (h : lookup s c.destination c.plan = .hit m ∨ lookup s c.destination c.plan = .allocated m)
    (steps : List PlanStep) :
    poolChoice s c steps = ⟨some m, true⟩ ∧ afterChoice s c = afterLookup c.destination c.plan s := by
  rcases h with answer | answer <;> simp [poolChoice, afterChoice, same, answer]

/-- R75: the route memory is asked and answers a member, or the try is made as for a gapped destination. -/
theorem poolChoice_cases (s : State) (c : WalkCall) :
    ((s.dest c.destination).plan = c.plan ∧
        ∃ m, lookup s c.destination c.plan = .hit m ∨ lookup s c.destination c.plan = .allocated m) ∨
      (s.dest c.destination).plan ≠ c.plan ∨ lookup s c.destination c.plan = .gapped ∨
        lookup s c.destination c.plan = .plansDiffer := by
  by_cases same : (s.dest c.destination).plan = c.plan
  · cases lookup s c.destination c.plan with
    | hit m => exact .inl ⟨same, m, .inl rfl⟩
    | allocated m => exact .inl ⟨same, m, .inr rfl⟩
    | gapped => exact .inr (.inr (.inl rfl))
    | plansDiffer => exact .inr (.inr (.inr rfl))
  · exact .inr (.inl same)

/-- R75: how the pool try of a walk is made, by the choice that the walk computes. -/
theorem PoolTry.choice {s w : State} {c : WalkCall} {m : Nat} {flag : Bool} (h : PoolTry s w c m flag) :
    poolChoice s c (s.plan c.plan) = ⟨some m, flag⟩ ∧ w = afterChoice s c := by
  rcases h with ⟨same, member, rfl, rfl⟩ | ⟨noMember, rfl, rfl, pool, lowest⟩
  · obtain ⟨choice, after⟩ := poolChoice_of_member same member (s.plan c.plan)
    exact ⟨choice, after.symm⟩
  · obtain ⟨choice, after⟩ := poolChoice_of_none noMember (w.plan c.plan)
    rw [choice, (firstPool_eq_some_iff _ m).mpr ⟨pool, lowest⟩]
    exact ⟨rfl, after.symm⟩

theorem poolSteps_ne_nil {steps : List PlanStep} {i : Nat} {st : PlanStep} (step : steps[i]? = some st)
    (pool : st.kind = .pool) : poolSteps steps ≠ [] :=
  List.ne_nil_of_mem ((mem_poolSteps_iff steps i st).mpr ⟨step, pool⟩)

/-- R75: a plan with a pool has a pool try. -/
theorem exists_poolTry {s : State} {c : WalkCall} (pool : poolSteps (s.plan c.plan) ≠ []) :
    ∃ m flag w, PoolTry s w c m flag := by
  rcases poolChoice_cases s c with ⟨same, m, member⟩ | noMember
  · exact ⟨m, true, _, .inl ⟨same, member, rfl, rfl⟩⟩
  · obtain ⟨m, first⟩ : ∃ m, firstPool (s.plan c.plan) = some m := by
      rw [← Option.isSome_iff_exists]
      simpa [firstPool] using pool
    obtain ⟨ofPool, lowest⟩ := (firstPool_eq_some_iff _ m).mp first
    exact ⟨m, false, s, .inr ⟨noMember, rfl, rfl, ofPool, lowest⟩⟩

theorem PoolTry.step {s w : State} {c : WalkCall} {m : Nat} {flag : Bool} (h : PoolTry s w c m flag)
    (sound : MemorySound s) (pool : poolSteps (s.plan c.plan) ≠ []) :
    ∃ st, (s.plan c.plan)[m]? = some st ∧ st.kind = .pool := by
  rcases h with ⟨-, member, -, -⟩ | ⟨-, -, -, step, -⟩
  · exact lookup_member sound pool member
  · exact step

/-! ## The three parts of a walk (R73 to R80) -/

section Walk

variable {s : State} {c : WalkCall}

/-- R74: a walk with an eligible PRIMARY step. -/
theorem endsAt_primary (sound : PlantSound s) {i : Nat} {st : PlanStep} (h : FirstEligible s c .primary i st) :
    EndsAt s s c i st c.poolTried c.memoryFlag := by
  obtain ⟨-, -, -, able, -⟩ := id h
  obtain ⟨z, pick⟩ := outboundPick_of_eligible sound able
  refine ⟨z, pick, ?_⟩
  simp only [walk, tryPart_of_first (OnlyMemory.refl s) h pick]

/-- R73: with no eligible PRIMARY step the walk goes to the pool part, or past it. -/
theorem walk_of_noPrimary (h : NoneEligible s c .primary) :
    walk c (s.plan c.plan) s =
      if poolPartMade c (s.plan c.plan) then poolPart c (s.plan c.plan) s
      else finalPart c (s.plan c.plan) c.poolTried c.memoryFlag s := by
  simp only [walk, tryPart_of_none (OnlyMemory.refl s) h]

theorem finalPart_of_first {w : State} (same : OnlyMemory s w) {i : Nat} {st : PlanStep} {z : Seized}
    (h : FirstEligible s c .final i st) (pick : outboundPick s st.group c.cls st.kind = some z) (tried flag : Bool) :
    finalPart c (s.plan c.plan) tried flag w =
      ⟨occupyOut st.group z.circuit c.ref w,
        some ⟨z.circuit, st.group, z.carrier, i, st.kind, st.tariffClass, z.congestion⟩, tried, flag⟩ := by
  simp only [finalPart, tryPart_of_first same h pick]

theorem finalPart_of_none {w : State} (same : OnlyMemory s w) (h : NoneEligible s c .final) (tried flag : Bool) :
    finalPart c (s.plan c.plan) tried flag w = ⟨w, none, tried, flag⟩ := by
  simp only [finalPart, tryPart_of_none same h]

/-- R77, R80: a walk that is in its final part ends at the first eligible FINAL step. -/
theorem endsAt_final (sound : PlantSound s) {w : State} (same : OnlyMemory s w) {tried flag : Bool}
    (final : walk c (s.plan c.plan) s = finalPart c (s.plan c.plan) tried flag w) {i : Nat} {st : PlanStep}
    (h : FirstEligible s c .final i st) : EndsAt s w c i st tried flag := by
  obtain ⟨-, -, -, able, -⟩ := id h
  obtain ⟨z, pick⟩ := outboundPick_of_eligible sound able
  exact ⟨z, pick, final.trans (finalPart_of_first same h pick tried flag)⟩

/-- R73: a pool that has been tried, or lies below the start index, is passed over. -/
theorem walk_pastPool (h : NoneEligible s c .primary)
    (noPool : c.poolTried = true ∨
      ∀ (i : Nat) (st : PlanStep), c.start ≤ i → (s.plan c.plan)[i]? = some st → st.kind ≠ .pool) :
    walk c (s.plan c.plan) s = finalPart c (s.plan c.plan) c.poolTried c.memoryFlag s := by
  refine (walk_of_noPrimary h).trans (if_neg ?_)
  rw [poolPartMade_iff]
  rintro ⟨notTried, i, st, start, step, pool⟩
  rcases noPool with tried | below
  · exact absurd (notTried.symm.trans tried) Bool.false_ne_true
  · exact below i st start step pool

/-- R75: an eligible step of the pool try ends the walk. -/
theorem poolPart_of_eligible {w : State} {m : Nat} {flag : Bool} {st : PlanStep} {z : Seized}
    (choice : PoolTry s w c m flag) (step : (s.plan c.plan)[m]? = some st) (able : eligible s c st = true)
    (pick : outboundPick s st.group c.cls st.kind = some z) :
    poolPart c (s.plan c.plan) s =
      ⟨occupyOut st.group z.circuit c.ref w,
        some ⟨z.circuit, st.group, z.carrier, m, st.kind, st.tariffClass, z.congestion⟩, true, flag⟩ := by
  obtain ⟨chosen, rfl⟩ := choice.choice
  have same := afterChoice_onlyMemory s c
  simp only [poolPart, chosen, tryIndex, step,
    tryStep_of_pick (same.eligible c st ▸ able) (same.outboundPick _ _ _ ▸ pick)]

/-- R76: after a failed pool try the failure outcome is handed on, if the flag is set, before the final part. -/
theorem poolPart_of_ineligible {w : State} {m : Nat} {flag : Bool} {st : PlanStep} (choice : PoolTry s w c m flag)
    (step : (s.plan c.plan)[m]? = some st) (unable : eligible s c st = false) :
    poolPart c (s.plan c.plan) s =
      finalPart c (s.plan c.plan) true flag
        (if flag = true then failureOutcome c.destination c.plan m w else w) := by
  obtain ⟨chosen, rfl⟩ := choice.choice
  have same := afterChoice_onlyMemory s c
  have unable : eligible (afterChoice s c) c st = false := same.eligible c st ▸ unable
  simp only [poolPart, chosen, tryIndex, step, tryStep_of_ineligible unable, handPoolFailure]
  cases flag <;> rfl

theorem walk_atPool (h : NoneEligible s c .primary) (notTried : c.poolTried = false)
    (pool : ∃ (i : Nat) (st : PlanStep), c.start ≤ i ∧ (s.plan c.plan)[i]? = some st ∧ st.kind = .pool) :
    walk c (s.plan c.plan) s = poolPart c (s.plan c.plan) s :=
  (walk_of_noPrimary h).trans (if_pos ((poolPartMade_iff _ _).mpr ⟨notTried, pool⟩))

theorem PoolTry.onlyMemory {w : State} {m : Nat} {flag : Bool} (h : PoolTry s w c m flag) : OnlyMemory s w :=
  h.choice.2 ▸ afterChoice_onlyMemory s c

theorem PoolTry.onlyMemory_afterFailure {w : State} {m : Nat} {flag : Bool} (h : PoolTry s w c m flag) :
    OnlyMemory s (if flag = true then failureOutcome c.destination c.plan m w else w) := by
  cases flag
  · exact h.onlyMemory
  · exact h.onlyMemory.trans (failureOutcome_onlyMemory _ _ _ w)

/-- R75: an eligible step of the pool try ends the walk, with the pool-tried flag set. -/
theorem endsAt_pool (sound : PlantSound s) {w : State} {m : Nat} {flag : Bool} {st : PlanStep}
    (part : walk c (s.plan c.plan) s = poolPart c (s.plan c.plan) s) (choice : PoolTry s w c m flag)
    (step : (s.plan c.plan)[m]? = some st) (able : eligible s c st = true) : EndsAt s w c m st true flag := by
  obtain ⟨z, pick⟩ := outboundPick_of_eligible sound able
  exact ⟨z, pick, part.trans (poolPart_of_eligible choice step able pick)⟩

/-- R79: the walk ends with the seizure of an eligible step, which lies at or above the start index unless it is the pool
try; a pool try is made once, and sets the pool-tried flag. -/
def EndsAtStep (s : State) (c : WalkCall) : Prop :=
  ∃ w i st tried flag, EndsAt s w c i st tried flag ∧ OnlyMemory s w ∧ (s.plan c.plan)[i]? = some st ∧
    eligible s c st = true ∧ (st.kind ≠ .pool → c.start ≤ i) ∧ (st.kind = .pool → c.poolTried = false ∧ tried = true)

theorem endsAtStep_of_first {w : State} {kind : StepKind} (notPool : kind ≠ .pool) {i : Nat} {st : PlanStep}
    {tried flag : Bool} (first : FirstEligible s c kind i st) (ends : EndsAt s w c i st tried flag)
    (same : OnlyMemory s w) : EndsAtStep s c := by
  obtain ⟨start, step, ofKind, able, -⟩ := first
  exact ⟨w, i, st, tried, flag, ends, same, step, able, fun _ => start, fun pool => absurd (ofKind ▸ pool) notPool⟩

theorem finalPart_ends (plant : PlantSound s) {w : State} (same : OnlyMemory s w) {tried flag : Bool}
    (final : walk c (s.plan c.plan) s = finalPart c (s.plan c.plan) tried flag w) :
    EndsAtStep s c ∨ (walk c (s.plan c.plan) s).leg = none := by
  rcases noneEligible_or_first s c .final with noFinal | ⟨i, st, first⟩
  · exact .inr (congrArg Walked.leg (final.trans (finalPart_of_none same noFinal tried flag)))
  · exact .inl (endsAtStep_of_first (by decide) first (endsAt_final plant same final first) same)

/-- R79, R80: a walk ends with the seizure of an eligible step, or without a leg. -/
theorem walk_ends (plant : PlantSound s) (memory : MemorySound s) :
    EndsAtStep s c ∨ (walk c (s.plan c.plan) s).leg = none := by
  rcases noneEligible_or_first s c .primary with noPrimary | ⟨i, st, first⟩
  · by_cases made : poolPartMade c (s.plan c.plan) = true
    · have part := (walk_of_noPrimary noPrimary).trans (if_pos made)
      obtain ⟨notTried, _, _, -, step, pool⟩ := (poolPartMade_iff _ _).mp made
      have nonempty := poolSteps_ne_nil step pool
      obtain ⟨m, flag, w, choice⟩ := exists_poolTry nonempty
      obtain ⟨x, member, ofPool⟩ := choice.step memory nonempty
      cases able : eligible s c x with
      | false =>
        exact finalPart_ends plant choice.onlyMemory_afterFailure
          (part.trans (poolPart_of_ineligible choice member able))
      | true =>
        exact .inl ⟨w, m, x, true, flag, endsAt_pool plant part choice member able, choice.onlyMemory, member, able,
          fun other => absurd ofPool other, fun _ => ⟨notTried, rfl⟩⟩
    · exact finalPart_ends plant (OnlyMemory.refl s) ((walk_of_noPrimary noPrimary).trans (if_neg made))
  · exact .inl (endsAtStep_of_first (by decide) first (endsAt_primary plant first) (OnlyMemory.refl s))

/-- R75: the pool-tried flag, once set, stays set. -/
theorem walk_keeps_poolTried (steps : List PlanStep) (tried : c.poolTried = true) :
    (walk c steps s).poolTried = true := by
  have noPool : poolPartMade c steps = false := by simp [poolPartMade, tried]
  simp only [walk, noPool, finalPart]
  split
  · exact tried
  · exact tried

/-- R14, R79: the circuit that a walk seizes is BUSY_OUT with the call's reference, in the group of its step. -/
theorem occupyOut_seized (plant : PlantSound s) {w : State} (same : OnlyMemory s w) {n : Nat} {cls : CallClass}
    {kind : StepKind} {z : Seized} (pick : outboundPick s n cls kind = some z) (r : CallRef) :
    ∃ e, (occupyOut n z.circuit r w).circuit z.circuit = some e ∧ e.group = n ∧ e.occupancy = .busyOut r := by
  obtain ⟨e, he, group⟩ := circuit_of_outboundPick plant pick
  refine ⟨{ e with occupancy := .busyOut r }, ?_, group, rfl⟩
  rw [occupyOut_circuit, if_pos rfl, same.circuit, he]
  rfl

/-- R79: what the leg of a walk is. -/
theorem EndsAtStep.leg (plant : PlantSound s) (h : EndsAtStep s c) {n : NewLeg}
    (leg : (walk c (s.plan c.plan) s).leg = some n) :
    ∃ st, (s.plan c.plan)[n.stepIndex]? = some st ∧ n.group = st.group ∧ n.stepKind = st.kind ∧
      n.tariffClass = st.tariffClass ∧ n.group ≠ c.inGroup ∧ (st.kind ≠ .pool → c.start ≤ n.stepIndex) ∧
      (st.kind = .pool → c.poolTried = false ∧ (walk c (s.plan c.plan) s).poolTried = true) ∧
      ∃ e, (walk c (s.plan c.plan) s).state.circuit n.circuit = some e ∧ e.group = n.group ∧
        e.occupancy = .busyOut c.ref := by
  obtain ⟨w, i, st, tried, flag, ⟨z, pick, ends⟩, same, step, able, start, pool⟩ := h
  obtain ⟨g, -, notInbound, -⟩ := (eligible_iff s c st).mp able
  rw [ends] at leg ⊢
  obtain rfl := Option.some.inj leg
  exact ⟨st, step, rfl, rfl, rfl, notInbound, start, pool, occupyOut_seized plant same pick c.ref⟩

/-! ## Plans without a pool -/

/-- R63: in a plan whose kinds are in order, no PRIMARY step comes after a FINAL one. -/
theorem lt_of_primary_of_final {steps : List PlanStep} (order : (steps.map (·.kind.rank)).Pairwise (· ≤ ·))
    {i j : Nat} {x y : PlanStep} (hx : steps[i]? = some x) (hy : steps[j]? = some y) (primary : x.kind = .primary)
    (final : y.kind = .final) : i < j := by
  by_contra notBefore
  have differ : j ≠ i := by
    rintro rfl
    obtain rfl := Option.some.inj (hx.symm.trans hy)
    rw [primary] at final
    cases final
  obtain ⟨hi, rfl⟩ := List.getElem?_eq_some_iff.mp hx
  obtain ⟨hj, rfl⟩ := List.getElem?_eq_some_iff.mp hy
  have ranks := List.pairwise_iff_getElem.mp (List.pairwise_map.mp order) j i hj hi (by omega)
  rw [primary, final] at ranks
  exact absurd ranks (by decide)

/-- R74, R77: in a plan without a pool the first eligible step is the first of its kind, and none of the kinds before its
own is eligible. -/
theorem firstEligible_of_first (order : ((s.plan c.plan).map (·.kind.rank)).Pairwise (· ≤ ·)) {i : Nat} {st : PlanStep}
    (start : c.start ≤ i) (step : (s.plan c.plan)[i]? = some st) (notPool : st.kind ≠ .pool)
    (able : eligible s c st = true)
    (before : ∀ (j : Nat) (x : PlanStep), c.start ≤ j → j < i → (s.plan c.plan)[j]? = some x →
      eligible s c x = false) :
    FirstEligible s c .primary i st ∨ (NoneEligible s c .primary ∧ FirstEligible s c .final i st) := by
  cases kind : st.kind with
  | pool => exact absurd kind notPool
  | primary => exact .inl ⟨start, step, kind, able, fun j x hj below hx _ => before j x hj below hx⟩
  | final =>
    exact .inr ⟨fun j x hj hx primary => before j x hj (lt_of_primary_of_final order hx step primary kind) hx, start,
      step, kind, able, fun j x hj below hx _ => before j x hj below hx⟩

end Walk

/-- Settles O26: eligibility condition by condition; and a walk by its three parts, each of which ends at the first of its
steps that is eligible, since in a sound plant the seizure that an eligible step asks for succeeds. -/
theorem eligibleStepsAndTheWalk : Obligations.EligibleStepsAndTheWalk := by
  refine ⟨eligible_iff, ?_⟩
  rintro s c _ plant memory rfl
  refine ⟨fun n leg => ?leg, walk_keeps_poolTried _, fun i st => endsAt_primary plant,
    fun noPrimary past => ⟨fun i st => endsAt_final plant (OnlyMemory.refl s) (walk_pastPool noPrimary past),
      fun noFinal => ?no_route⟩,
    fun noPrimary notTried pool => ?pool, fun noPool order => ?plain⟩
  case leg =>
    rcases walk_ends plant memory with ends | noLeg
    · exact ends.leg plant leg
    · rw [noLeg] at leg
      cases leg
  case no_route => exact (walk_pastPool noPrimary past).trans (finalPart_of_none (OnlyMemory.refl s) noFinal _ _)
  case pool =>
    have part := walk_atPool noPrimary notTried pool
    obtain ⟨_, _, -, step, ofPool⟩ := pool
    have nonempty := poolSteps_ne_nil step ofPool
    refine ⟨exists_poolTry nonempty, fun m flag w choice => ?_⟩
    obtain ⟨st, member, kind⟩ := choice.step memory nonempty
    refine ⟨st, member, kind, endsAt_pool plant part choice member, ?_⟩
    rintro unable _ rfl
    have final := part.trans (poolPart_of_ineligible choice member unable)
    have same := choice.onlyMemory_afterFailure
    exact ⟨fun j y => endsAt_final plant same final, fun noFinal => final.trans (finalPart_of_none same noFinal _ _)⟩
  case plain =>
    have pastPool (noPrimary : NoneEligible s c .primary) :=
      walk_pastPool noPrimary (.inr fun i st _ step => noPool st (List.mem_of_getElem? step))
    refine ⟨fun unable => ?_, fun i st start step able before => ?_⟩
    · exact (pastPool fun i st start step _ => unable i st start step).trans
        (finalPart_of_none (OnlyMemory.refl s) (fun i st start step _ => unable i st start step) _ _)
    · rcases firstEligible_of_first order start step (noPool st (List.mem_of_getElem? step)) able before with
        first | ⟨noPrimary, first⟩
      · exact endsAt_primary plant first
      · exact endsAt_final plant (OnlyMemory.refl s) (pastPool noPrimary) first

end Sys2Proof.Machine
end

section
/-! REATTEMPT (R113, R114) and the reselection of a call (R82 to R84): the checks of a request on a call, what each effect
leaves of the call record, and the three ends of a reselection. -/

namespace Sys2Proof.Machine

/-! ## Tables of checks -/

/-- The first failing check of two tables in a row is that of the first table, or that of the second when the first
passes. -/
theorem firstOf_append_iff (l m : List (Prop × Status)) (st : Status) :
    FirstOf (l ++ m) st ↔ FirstOf l st ∨ (AllPass l ∧ FirstOf m st) := by
  induction l with
  | nil => simp [FirstOf, AllPass]
  | cons k l ih =>
    obtain ⟨fails, x⟩ := k
    have passes : AllPass ((fails, x) :: l) ↔ ¬fails ∧ AllPass l := List.forall_mem_cons
    rw [List.cons_append, FirstOf, FirstOf, ih, passes]
    tauto

/-! ## The call that a request names (R106) -/

/-- R106 checks 1 to 3: the slot in range, a call of this reference, and the sender's port its owner. -/
def ownerChecks (s : State) (p : Port) (r : CallRef) : List (Prop × Status) :=
  [(8191 < r.slot, .outOfRange), (s.call r = none, .noCall),
    (∃ c, s.call r = some c ∧ c.owner ≠ some p, .notOwner)]

theorem findCall_outOfRange {s : State} {r : CallRef} (range : 8191 < r.slot) : findCall s r = .error .outOfRange :=
  if_pos range

theorem findCall_of_none {s : State} {r : CallRef} (range : r.slot ≤ 8191) (free : s.call r = none) :
    findCall s r = .error .noCall := by
  have range : ¬Config.slots ≤ r.slot := Nat.not_le.mpr (Nat.lt_succ_of_le range)
  simp only [findCall, if_neg range, free]

theorem findCall_of_some {s : State} {r : CallRef} {c : Call} (range : r.slot ≤ 8191) (used : s.call r = some c) :
    findCall s r = .ok c := by
  have range : ¬Config.slots ≤ r.slot := Nat.not_le.mpr (Nat.lt_succ_of_le range)
  simp only [findCall, if_neg range, used]

theorem findOwned_of_error {s : State} {r : CallRef} {st : Status} (h : findCall s r = .error st) (p : Port) :
    findOwned s p r = .error st := by
  simp only [findOwned, h]

theorem findOwned_of_ok {s : State} {r : CallRef} {c : Call} (h : findCall s r = .ok c) (p : Port) :
    findOwned s p r = if c.owner = some p then .ok c else .error .notOwner := by
  simp only [findOwned, h]

/-- R106: the first of the three checks that fails gives the status. -/
theorem findOwned_of_firstOf {s : State} {p : Port} {r : CallRef} {st : Status} (h : FirstOf (ownerChecks s p r) st) :
    findOwned s p r = .error st := by
  rcases h with ⟨range, rfl⟩ | ⟨range, ⟨free, rfl⟩ | ⟨-, ⟨⟨c, used, other⟩, rfl⟩ | ⟨-, noCheck⟩⟩⟩
  · exact findOwned_of_error (findCall_outOfRange range) p
  · exact findOwned_of_error (findCall_of_none (Nat.not_lt.mp range) free) p
  · rw [findOwned_of_ok (findCall_of_some (Nat.not_lt.mp range) used), if_neg other]
  · exact noCheck.elim

theorem findOwned_of_owner {s : State} {p : Port} {r : CallRef} {c : Call} (range : r.slot ≤ 8191)
    (used : s.call r = some c) (owner : c.owner = some p) : findOwned s p r = .ok c := by
  rw [findOwned_of_ok (findCall_of_some range used), if_pos owner]

/-- R106: with the three checks passed there is a call, and it is found. -/
theorem findOwned_of_allPass {s : State} {p : Port} {r : CallRef} (h : AllPass (ownerChecks s p r)) :
    ∃ c, s.call r = some c ∧ findOwned s p r = .ok c := by
  simp only [AllPass, ownerChecks, List.forall_mem_cons, not_exists, not_and, ne_eq, not_not] at h
  obtain ⟨range, used, owner, -⟩ := h
  obtain ⟨c, used⟩ := Option.ne_none_iff_exists'.mp used
  exact ⟨c, used, findOwned_of_owner (Nat.not_lt.mp range) used (owner c used)⟩

/-! ## The causes and states of a REATTEMPT (R113) -/

/-- R113, R115: the four causes that a request may carry. -/
theorem callCause_eq_some_iff (a : Arg Cause) (k : Cause) :
    callCause a = some k ↔
      a = .given k ∧ (k = .normal ∨ k = .farRefused ∨ k = .farCongested ∨ k = .circuitFault) := by
  cases a with
  | given x => cases x <;> cases k <;> simp [callCause]
  | absent => simp [callCause]
  | undefined => simp [callCause]

theorem callCause_eq_none_iff (a : Arg Cause) :
    callCause a = none ↔
      ∀ k, a = .given k → k ≠ .normal ∧ k ≠ .farRefused ∧ k ≠ .farCongested ∧ k ≠ .circuitFault := by
  simp only [Option.eq_none_iff_forall_ne_some, ne_eq, callCause_eq_some_iff, not_and, not_or]

/-- R111 to R113: ROUTED with the reselection pending mark clear, or PROCEEDING. -/
theorem freelyRouted_or_proceeding_iff (c : Call) :
    (freelyRouted c || c.state == .proceeding) = true ↔
      (c.state = .routed ∧ c.reselectionPending = false) ∨ c.state = .proceeding := by
  simp [freelyRouted]

theorem handsOutcome_iff (c : Call) : handsOutcome c = true ↔ c.stepKind = .pool ∧ c.memoryFlag = true := by
  simp [handsOutcome]

/-! ## The handler, by its checks -/

section Handler

variable {p : Port} {call : CallRef} {cause : Arg Cause} {level : Option Nat} {u : State}

theorem handleReattempt_of_error {st : Status} (found : findOwned u p call = .error st) :
    handleReattempt p call cause level u = refuse st u := by
  simp only [handleReattempt, found]

theorem handleReattempt_badCause {c : Call} (found : findOwned u p call = .ok c) (bad : callCause cause = none) :
    handleReattempt p call cause level u = refuse .badRequest u := by
  simp only [handleReattempt, found, bad]

theorem handleReattempt_wrongState {c : Call} {k : Cause} (found : findOwned u p call = .ok c)
    (good : callCause cause = some k)
    (state : ¬((c.state = .routed ∧ c.reselectionPending = false) ∨ c.state = .proceeding)) :
    handleReattempt p call cause level u = refuse .wrongState u := by
  simp only [handleReattempt, found, good, freelyRouted_or_proceeding_iff, if_neg state]

theorem handleReattempt_carriedOut {c : Call} {k : Cause} (found : findOwned u p call = .ok c)
    (good : callCause cause = some k)
    (state : (c.state = .routed ∧ c.reselectionPending = false) ∨ c.state = .proceeding) :
    handleReattempt p call cause level u =
      ⟨reattemptCall call c k level u, okOr (outsideOpt 0 3 level),
        reattemptResult (reattemptCall call c k level u) call⟩ := by
  simp only [handleReattempt, found, good, freelyRouted_or_proceeding_iff, if_pos state]

/-- R113: the checks of REATTEMPT: those of R106, then the cause, then the state. -/
theorem handleReattempt_of_firstOf {st : Status}
    (h : FirstOf
      (ownerChecks u p call ++
        [(∀ k, cause = .given k → k ≠ .normal ∧ k ≠ .farRefused ∧ k ≠ .farCongested ∧ k ≠ .circuitFault, .badRequest),
          (∃ c, u.call call = some c ∧
            ¬((c.state = .routed ∧ c.reselectionPending = false) ∨ c.state = .proceeding), .wrongState)]) st) :
    handleReattempt p call cause level u = refuse st u := by
  rcases (firstOf_append_iff _ _ _).mp h with owner | ⟨owned, checks⟩
  · exact handleReattempt_of_error (findOwned_of_firstOf owner)
  obtain ⟨c, used, found⟩ := findOwned_of_allPass owned
  rw [← callCause_eq_none_iff] at checks
  rcases checks with ⟨bad, rfl⟩ | ⟨good, ⟨⟨x, sameCall, state⟩, rfl⟩ | ⟨-, noCheck⟩⟩
  · exact handleReattempt_badCause found bad
  · obtain ⟨k, good⟩ := Option.ne_none_iff_exists'.mp good
    obtain rfl := Option.some.inj (used.symm.trans sameCall)
    exact handleReattempt_wrongState found good state
  · exact noCheck.elim

end Handler

/-! ## Reading a call record -/

theorem Routed.call {s t : State} (h : Routed s t) (r : CallRef) : t.call r = s.call r := by
  rw [h.1]
  rfl

/-- A record written in the slot of a call is read under the call's reference. -/
theorem State.call_setCall_of_some {s : State} {r : CallRef} {c : Call} (used : s.call r = some c) (x : Call) :
    (s.setCall r.slot x).call r = some x := by
  have generation : (s.slot r.slot).generation = r.generation := by
    by_contra other
    simp [State.call, other] at used
  simp [State.call, generation]

/-! ## The reselection (R82 to R84) -/

theorem reselect_exhausted {s : State} {r : CallRef} {c : Call} (used : s.call r = some c)
    (above : s.routes.reattemptLimit < c.reattempts + 1) (k : Cause) :
    reselect r k s = s.setCall r.slot ((countReattempt c).unroute .reattemptsExhausted) := by
  simp only [reselect, used]
  exact if_pos above

theorem reselect_walks {s : State} {r : CallRef} {c : Call} (used : s.call r = some c)
    (within : c.reattempts + 1 ≤ s.routes.reattemptLimit) (k : Cause) {z : Walked}
    (hz : z =
      walk (reselectionCall r (countReattempt c)) (s.plan c.plan) (s.setCall r.slot (countReattempt c))) :
    reselect r k s = z.state.setCall r.slot (afterWalk (countReattempt c) z k) := by
  subst hz
  simp only [reselect, used]
  exact if_neg (Nat.not_lt.mpr within)

theorem afterWalk_of_none {w : Walked} (noLeg : w.leg = none) (c : Call) (k : Cause) :
    afterWalk c w k =
      { c with state := .unrouted, leg := none, lastCause := some k, poolTried := w.poolTried,
               memoryFlag := w.memoryFlag } := by
  simp only [afterWalk, noLeg]
  rfl

theorem afterWalk_of_some {w : Walked} {n : NewLeg} (leg : w.leg = some n) (c : Call) (k : Cause) :
    afterWalk c w k =
      { c with state := .routed, leg := some n.toLeg, stepIndex := n.stepIndex, stepKind := n.stepKind,
               tariffClass := n.tariffClass, poolTried := w.poolTried, memoryFlag := w.memoryFlag } := by
  simp only [afterWalk, leg]
  rfl

/-- R79: the premium facts of a new leg, as comparisons. -/
theorem NewLeg.toLeg_eq (n : NewLeg) :
    n.toLeg =
      ⟨n.circuit, n.group, n.carrier, decide (n.stepKind ≠ .primary), decide (n.congestion = .reserved)⟩ := by
  have alternate : n.stepKind.alternate = decide (n.stepKind ≠ .primary) := by cases n.stepKind <;> rfl
  have congested : (n.congestion == .reserved) = decide (n.congestion = .reserved) := by cases n.congestion <;> rfl
  rw [NewLeg.toLeg, alternate, congested]

/-- However a reselection ends, the call's record stands. -/
theorem reselect_call {s : State} {r : CallRef} {c : Call} (used : s.call r = some c) (k : Cause) :
    ∃ x, (reselect r k s).call r = some x := by
  rcases Nat.lt_or_ge s.routes.reattemptLimit (c.reattempts + 1) with above | within
  · rw [reselect_exhausted used above]
    exact ⟨_, State.call_setCall_of_some used _⟩
  · rw [reselect_walks used within k rfl]
    refine ⟨_, State.call_setCall_of_some (c := countReattempt c) ?_ _⟩
    rw [(walk_routed _ _ _).call, State.call_setCall_of_some used]

/-! ## The effects of REATTEMPT (R113, R114) -/

theorem handLevel_routed (c : Call) (level : Option Nat) (s : State) : Routed s (handLevel c level s) := by
  simp only [handLevel]
  split
  · exact (farReport_served _ _ s).planted.routed
  · exact Routed.refl s

theorem handFailure_routed (c : Call) (s : State) : Routed s (handFailure c s) := by
  simp only [handFailure]
  split
  · exact outcome_routed _ _ _ _ s
  · exact Routed.refl s

/-- R113 step 1: a level above 3 is taken as 3. -/
theorem handLevel_of_leg {c : Call} {l : Leg} (leg : c.leg = some l) (level : Option Nat) (s : State) :
    handLevel c level s = (match level with | some n => farReport l.group (min n 3) s | none => s) := by
  cases level with
  | none => rfl
  | some n => simp only [handLevel, leg, clamp_zero]

/-- R113 steps 3 and 4. -/
theorem dropLeg_of_leg {c : Call} {l : Leg} (leg : c.leg = some l) (call : CallRef) (k : Cause) (s : State) :
    dropLeg call c k s =
      (releaseLeg l.circuit call (decide (k = .circuitFault)) s).setCall call.slot
        { c with leg := none, lastCause := some k } := by
  simp only [dropLeg, leg]

theorem reattemptCall_call {s : State} {call : CallRef} {c : Call} {l : Leg} (used : s.call call = some c)
    (leg : c.leg = some l) (k : Cause) (level : Option Nat) :
    ∃ x, (reattemptCall call c k level s).call call = some x := by
  have released :
      Routed s (releaseLeg l.circuit call (decide (k = .circuitFault)) (handFailure c (handLevel c level s))) :=
    ((handLevel_routed c level s).trans (handFailure_routed c _)).trans (releaseLeg_planted _ _ _ _).routed
  rw [reattemptCall, dropLeg_of_leg leg]
  exact reselect_call (State.call_setCall_of_some ((released.call call).trans used) _) k

theorem okOr_outsideOpt_zero (hi : Nat) (x : Option Nat) [Decidable (∃ n, x = some n ∧ hi < n)] :
    okOr (outsideOpt 0 hi x) = if ∃ n, x = some n ∧ hi < n then .adjusted else .ok := by
  cases x with
  | none => simp [okOr, outsideOpt]
  | some n => simp [okOr, outsideOpt, outside]

theorem exec_reattempt (r : Sender) (call : CallRef) (cause : Arg Cause) (level : Option Nat) (s : State) :
    exec (.reattempt r call cause level) s =
      request (.reattempt r call cause level) r RequestKind.reattempt.code (handleReattempt r.port call cause level) s :=
  rfl

/-- Settles O34: the checks of R106 and R113 in their order, the four effects of R113 one after the other, and a
reselection by its count and by the leg that its walk ends with. -/
theorem reattemptReselects : Obligations.ReattemptReselects := by
  refine ⟨fun r call cause level s u take => ⟨fun st checks => ?refused, ?carried_out⟩,
    fun s call k c z used hz => ⟨fun above => ?exhausted, fun within noLeg => ?no_leg, fun within n leg => ?leg⟩⟩
  case refused =>
    exact answers_of rfl (exec_reattempt r call cause level s) take (handleReattempt_of_firstOf checks)
  case carried_out =>
    rintro c l k w1 w2 v range used owner leg rfl causes state rfl rfl rfl
    have found := findOwned_of_owner range used owner
    have good := (callCause_eq_some_iff (.given k) k).mpr ⟨rfl, causes⟩
    have effects := handleReattempt_carriedOut (level := level) found good state
    obtain ⟨x, hx⟩ := reattemptCall_call used leg k level
    rw [reattemptResult, hx, okOr_outsideOpt_zero] at effects
    simp only [reattemptCall, dropLeg_of_leg leg, handFailure, handsOutcome_iff, handLevel_of_leg leg] at effects hx
    exact ⟨x, hx, answers_of rfl (exec_reattempt r call _ level s) take effects⟩
  case exhausted => exact reselect_exhausted used above k
  case no_leg => rw [reselect_walks used within k hz, afterWalk_of_none noLeg]; rfl
  case leg => rw [reselect_walks used within k hz, afterWalk_of_some leg, NewLeg.toLeg_eq]; rfl

end Sys2Proof.Machine
end

section
/-! The route memory (R91 to R98): the entry of a destination, where an allocation puts one, the member it chooses by price,
and what an outcome makes of the entry that it finds. -/

namespace Sys2Proof.Machine

/-! ## The entry of a destination (R89, R91) -/

theorem findTag_eq_none_iff (tag : Nat) (l : List (Option MemoryEntry)) (k : Nat) :
    findTag tag l k = none ↔ ∀ e, some e ∈ l → e.tag ≠ tag := by
  induction l generalizing k with
  | nil => simp [findTag]
  | cons x l ih =>
    cases x with
    | none => simp [findTag, ih]
    | some f => by_cases found : f.tag = tag <;> simp [findTag, found, ih]

theorem findTag_way {tag : Nat} {l : List (Option MemoryEntry)} {k way : Nat} {e : MemoryEntry}
    (h : findTag tag l k = some (way, e)) : ∃ i, way = k + i ∧ l[i]? = some (some e) ∧ e.tag = tag := by
  induction l generalizing k with
  | nil => cases h
  | cons x l ih =>
    have later (rest : ∃ i, way = k + 1 + i ∧ l[i]? = some (some e) ∧ e.tag = tag) :
        ∃ i, way = k + i ∧ (x :: l)[i]? = some (some e) ∧ e.tag = tag := by
      obtain ⟨i, rfl, listed⟩ := rest
      exact ⟨i + 1, by omega, listed⟩
    cases x with
    | none => exact later (ih h)
    | some f =>
      by_cases found : f.tag = tag
      · simp only [findTag, if_pos found, Option.some.injEq, Prod.mk.injEq] at h
        obtain ⟨rfl, rfl⟩ := h
        exact ⟨0, rfl, rfl, found⟩
      · simp only [findTag, if_neg found] at h
        exact later (ih h)

theorem entryOf_eq_none_iff (s : State) (d : Nat) :
    entryOf s d = none ↔ ∀ e, some e ∈ (s.memorySet (setOf d)).ways → e.tag ≠ tagOf d :=
  findTag_eq_none_iff _ _ _

/-- R89: a sound set holds one valid entry for a tag at most, so the entry found is the one that stands in the set. -/
theorem entryOf_eq_some_iff {s : State} (sound : MemorySound s) (d way : Nat) (e : MemoryEntry) :
    entryOf s d = some (way, e) ↔ (s.memorySet (setOf d)).ways[way]? = some (some e) ∧ e.tag = tagOf d := by
  have found {w f} (h : entryOf s d = some (w, f)) :
      (s.memorySet (setOf d)).ways[w]? = some (some f) ∧ f.tag = tagOf d := by
    obtain ⟨i, rfl, valid⟩ := findTag_way h
    rwa [Nat.zero_add]
  refine ⟨found, fun ⟨valid, tag⟩ => ?_⟩
  cases entry : entryOf s d with
  | none => exact absurd tag ((entryOf_eq_none_iff s d).mp entry e (List.mem_of_getElem? valid))
  | some x =>
    obtain ⟨w, f⟩ := x
    obtain ⟨valid', tag'⟩ := found entry
    obtain ⟨-, sets⟩ := sound
    obtain ⟨-, -, -, unique⟩ := sets (setOf d)
    obtain rfl := unique way w e f valid valid' (tag.trans tag'.symm)
    obtain rfl : f = e := by simpa [valid'] using valid
    rfl

/-! ## What a lookup answers and leaves (R91, R92) -/

theorem lookup_of_entry {s : State} {d way : Nat} {e : MemoryEntry} (h : entryOf s d = some (way, e)) (p : Nat) :
    lookup s d p = if e.plan = p then .hit e.member else .plansDiffer := by
  simp only [lookup, h]

theorem lookup_of_otherPlan {s : State} {d p : Nat} (h : entryOf s d = none) (plan : (s.dest d).plan ≠ p) :
    lookup s d p = .plansDiffer := by
  simp only [lookup, h, if_pos plan]

theorem lookup_of_gap {s : State} {d p : Nat} (h : entryOf s d = none) (plan : (s.dest d).plan = p)
    (gap : (s.gap d).isSome = true) : lookup s d p = .gapped := by
  simp [lookup, h, plan, gap]

theorem lookup_of_noGap {s : State} {d p : Nat} (h : entryOf s d = none) (plan : (s.dest d).plan = p)
    (gap : s.gap d = none) : lookup s d p = .allocated (chooseMember s p) := by
  simp [lookup, h, plan, gap]

theorem afterLookup_of_allocated {s : State} {d p m : Nat} (h : lookup s d p = .allocated m) :
    afterLookup d p s = allocate d p s := by
  simp only [afterLookup, h]

/-- A lookup that does not allocate leaves everything as it was. -/
theorem afterLookup_of_ne {s : State} {d p : Nat} (h : ∀ m, lookup s d p ≠ .allocated m) : afterLookup d p s = s := by
  unfold afterLookup
  split
  · exact absurd ‹_› (h _)
  · rfl

/-- A lookup with a valid entry is answered by its plan, and allocates nothing. -/
theorem afterLookup_of_entry {s : State} {d way : Nat} {e : MemoryEntry} (h : entryOf s d = some (way, e)) (p : Nat) :
    afterLookup d p s = s := by
  refine afterLookup_of_ne fun m => ?_
  rw [lookup_of_entry h]
  split <;> exact Lookup.noConfusion

/-! ## Where an allocation puts its entry (R93) -/

theorem freeWay_eq (l : List (Option MemoryEntry)) (k : Nat) :
    freeWay l k = (l.findIdx? Option.isNone).map (k + ·) := by
  induction l generalizing k with
  | nil => rfl
  | cons x l ih =>
    cases x with
    | none => simp [freeWay, List.findIdx?_cons]
    | some e => simp [freeWay, List.findIdx?_cons, ih, Function.comp_def, Nat.add_assoc, Nat.add_comm 1]

theorem freeWay_of_lowest {l : List (Option MemoryEntry)} {i : Nat} (free : l[i]? = some none)
    (lowest : ∀ j, j < i → l[j]? ≠ some none) : freeWay l 0 = some i := by
  obtain ⟨inside, free⟩ := List.getElem?_eq_some_iff.mp free
  have first : l.findIdx? Option.isNone = some i := by
    refine List.findIdx?_eq_some_iff_getElem.mpr ⟨inside, by rw [free]; rfl, fun j below => ?_⟩
    have valid := lowest j below
    rw [List.getElem?_eq_getElem (below.trans inside)] at valid
    simpa using valid
  rw [freeWay_eq, first, Option.map_some, Nat.zero_add]

theorem freeWay_of_full {l : List (Option MemoryEntry)} (full : none ∉ l) : freeWay l 0 = none := by
  have valid : ∀ x ∈ l, x.isNone = false := fun x listed =>
    Option.isNone_eq_false_iff.mpr (Option.isSome_iff_ne_none.mpr (ne_of_mem_of_not_mem listed full))
  rw [freeWay_eq, List.findIdx?_eq_none_iff.mpr valid, Option.map_none]

theorem placeEntry_of_lowest {m : MemorySet} {i : Nat} (free : m.ways[i]? = some none)
    (lowest : ∀ j, j < i → m.ways[j]? ≠ some none) (e : MemoryEntry) :
    placeEntry m e = ⟨m.ways.set i (some e), m.pointer⟩ := by
  simp only [placeEntry, freeWay_of_lowest free lowest]

theorem placeEntry_of_full {m : MemorySet} (full : none ∉ m.ways) (e : MemoryEntry) :
    placeEntry m e = ⟨m.ways.set m.pointer (some e), (m.pointer + 1) % 4⟩ := by
  simp only [placeEntry, freeWay_of_full full]

theorem memorySet_allocate_same (d p : Nat) (s : State) :
    (allocate d p s).memorySet (setOf d) =
      placeEntry (s.memorySet (setOf d)) ⟨tagOf d, p, chooseMember s p, 2⟩ :=
  s.memorySet_setMemorySet_same _ _

theorem memorySet_allocate_other (s : State) {d k : Nat} (p : Nat) (h : k ≠ setOf d) :
    (allocate d p s).memorySet k = s.memorySet k :=
  s.memorySet_setMemorySet_other _ _ _ h

/-! ## The member that an allocation chooses (R94) -/

theorem poolSteps_rising (steps : List PlanStep) : (poolSteps steps).Pairwise (fun x y => x.1 < y.1) :=
  (indexed_rising steps 0).filter _

theorem poolRate_eq_some_iff (s : State) (st : PlanStep) (r : Nat) :
    poolRate s st = some r ↔
      ∃ g, s.group st.group = some g ∧
        (s.tariff.live.tariffs.entry g.carrier st.tariffClass).rate (bandInForce s) = r := by
  cases group : s.group st.group <;> simp [poolRate, group]

theorem poolRate_of_undefined {s : State} {st : PlanStep} (h : s.group st.group = none) : poolRate s st = none := by
  simp only [poolRate, h]

theorem cheapest_of_undefined {s : State} {l : List (Nat × PlanStep)} (h : ∀ x ∈ l, poolRate s x.2 = none) :
    cheapest s l = none := by
  induction l with
  | nil => rfl
  | cons x l ih =>
    obtain ⟨first, rest⟩ := List.forall_mem_cons.mp h
    simp only [cheapest, first, ih rest]

theorem cheapest_rate {s : State} {l : List (Nat × PlanStep)} {i r : Nat} (h : cheapest s l = some (i, r)) :
    ∃ x ∈ l, x.1 = i ∧ poolRate s x.2 = some r := by
  induction l generalizing i r with
  | nil => cases h
  | cons x l ih =>
    have later {k q} (rest : cheapest s l = some (k, q)) : ∃ y ∈ x :: l, y.1 = k ∧ poolRate s y.2 = some q :=
      (ih rest).imp fun _ listed => listed.imp_left (List.mem_cons_of_mem x)
    simp only [cheapest] at h
    split at h
    · exact later h
    · cases h
      exact ⟨x, List.mem_cons_self, rfl, ‹_›⟩
    · split at h
      · cases h
        exact ⟨x, List.mem_cons_self, rfl, ‹_›⟩
      · exact later (‹cheapest s l = _›.trans h)

/-- R94: in a list in index order the cheapest step is the one whose rate no other undercuts, the first of those that share
it. -/
theorem cheapest_of_lowest {s : State} {l : List (Nat × PlanStep)} {i r : Nat} {st : PlanStep}
    (order : l.Pairwise (fun x y => x.1 < y.1)) (listed : (i, st) ∈ l) (rate : poolRate s st = some r)
    (lowest : ∀ x ∈ l, ∀ q, poolRate s x.2 = some q → r ≤ q ∧ (r = q → i ≤ x.1)) :
    cheapest s l = some (i, r) := by
  induction l with
  | nil => exact absurd listed List.not_mem_nil
  | cons x l ih =>
    obtain ⟨above, order⟩ := List.pairwise_cons.mp order
    obtain ⟨first, rest⟩ := List.forall_mem_cons.mp lowest
    rcases List.mem_cons.mp listed with rfl | listed
    · cases best : cheapest s l with
      | none => simp only [cheapest, rate, best]
      | some y =>
        obtain ⟨x, later, -, rate'⟩ := cheapest_rate best
        obtain ⟨least, -⟩ := rest x later y.2 rate'
        simp only [cheapest, rate, best, if_pos least]
    · have best := ih order listed rest
      cases rate' : poolRate s x.2 with
      | none => simp only [cheapest, rate', best]
      | some q =>
        obtain ⟨least, tie⟩ := first q rate'
        have after := above _ listed
        have dearer : ¬q ≤ r := by omega
        simp only [cheapest, rate', best, if_neg dearer]

theorem chooseMember_of_cheapest {s : State} {p i r : Nat} (h : cheapest s (poolSteps (s.plan p)) = some (i, r)) :
    chooseMember s p = i := by
  simp only [chooseMember, h]

/-- R94: with no POOL step of a defined group, the member is that of the first pool try. -/
theorem chooseMember_of_firstPool {s : State} {p i : Nat} (unrated : cheapest s (poolSteps (s.plan p)) = none)
    (first : firstPool (s.plan p) = some i) : chooseMember s p = i := by
  simp only [chooseMember, unrated]
  cases pool : poolSteps (s.plan p) with
  | nil => simp [firstPool, pool] at first
  | cons x l => simpa [firstPool, pool] using first

/-! ## Outcomes (R96 to R98) -/

theorem outcome_of_entry {s : State} {d way : Nat} {e : MemoryEntry} (h : entryOf s d = some (way, e))
    (f : MemoryEntry → MemoryEntry) :
    outcome f d e.plan e.member s =
      s.setMemorySet (setOf d)
        ⟨(s.memorySet (setOf d)).ways.set way (some (f e)), (s.memorySet (setOf d)).pointer⟩ := by
  simp only [outcome, h, and_self, if_true]

theorem outcome_dropped {s : State} {d p i : Nat}
    (h : ∀ way e, entryOf s d = some (way, e) → ¬(e.plan = p ∧ e.member = i)) (f : MemoryEntry → MemoryEntry) :
    outcome f d p i s = s := by
  cases entry : entryOf s d with
  | none => simp only [outcome, entry]
  | some x => simp only [outcome, entry, if_neg (h x.1 x.2 entry)]

theorem failEntry_of_pos {e : MemoryEntry} (h : 0 < e.confidence) (steps : List PlanStep) :
    failEntry steps e = { e with confidence := e.confidence - 1 } := if_neg h.ne'

theorem failEntry_of_zero {e : MemoryEntry} (h : e.confidence = 0) (steps : List PlanStep) :
    failEntry steps e = { e with member := nextMember steps e.member, confidence := 2 } := if_pos h

/-- The next member, by the step indexes alone. -/
theorem nextMember_eq (steps : List PlanStep) (i : Nat) :
    nextMember steps i =
      ((((poolSteps steps).map Prod.fst).find? (fun x => decide (i < x))).or (firstPool steps)).getD i := by
  rw [List.find?_map]
  simp only [nextMember, firstPool, Function.comp_def]
  cases (poolSteps steps).find? (fun x => decide (i < x.1)) with
  | some x => rfl
  | none => cases poolSteps steps <;> rfl

/-- R97: the POOL step above the member with the lowest index. -/
theorem poolAbove_eq_some_iff (steps : List PlanStep) (i j : Nat) :
    ((poolSteps steps).map Prod.fst).find? (fun x => decide (i < x)) = some j ↔
      (∃ st, steps[j]? = some st ∧ st.kind = .pool) ∧ i < j ∧
        ∀ (k : Nat) (x : PlanStep), steps[k]? = some x → x.kind = .pool → i < k → j ≤ k := by
  rw [find?_eq_some_iff_lowest_above (List.pairwise_map.mpr (poolSteps_rising steps))]
  simp only [List.mem_map, Prod.exists, exists_and_right, exists_eq_right, mem_poolSteps_iff, forall_exists_index,
    and_imp]

theorem poolAbove_eq_none {steps : List PlanStep} {i : Nat}
    (h : ∀ (k : Nat) (x : PlanStep), steps[k]? = some x → x.kind = .pool → k ≤ i) :
    ((poolSteps steps).map Prod.fst).find? (fun x => decide (i < x)) = none := by
  refine Option.eq_none_iff_forall_ne_some.mpr fun j above => ?_
  obtain ⟨⟨st, step, ofKind⟩, below, -⟩ := (poolAbove_eq_some_iff _ _ _).mp above
  exact absurd below (Nat.not_lt.mpr (h j st step ofKind))

theorem nextMember_of_above {steps : List PlanStep} {i j : Nat} {st : PlanStep} (step : steps[j]? = some st)
    (ofKind : st.kind = .pool) (below : i < j)
    (lowest : ∀ (k : Nat) (x : PlanStep), i < k → steps[k]? = some x → x.kind = .pool → j ≤ k) :
    nextMember steps i = j := by
  have above := (poolAbove_eq_some_iff steps i j).mpr
    ⟨⟨st, step, ofKind⟩, below, fun k x step ofKind above => lowest k x above step ofKind⟩
  rw [nextMember_eq, above, Option.some_or, Option.getD_some]

/-- R97: from the last POOL step the member moves back to the first. -/
theorem nextMember_of_last {steps : List PlanStep} {i j : Nat} {st : PlanStep} (step : steps[j]? = some st)
    (ofKind : st.kind = .pool)
    (ends : ∀ (k : Nat) (x : PlanStep), steps[k]? = some x → x.kind = .pool → j ≤ k ∧ k ≤ i) :
    nextMember steps i = j := by
  have first := (firstPool_eq_some_iff steps j).mpr ⟨⟨st, step, ofKind⟩, fun k x step ofKind => (ends k x step ofKind).1⟩
  have last := poolAbove_eq_none fun k x step ofKind => (ends k x step ofKind).2
  rw [nextMember_eq, last, first, Option.none_or, Option.getD_some]

/-- Settles O28: the entry that an outcome finds is the only one of its destination's tag, and the next member is the lowest
index above it, or the lowest of all. -/
theorem memoryOutcomes : Obligations.MemoryOutcomes := by
  rintro s d p i m sound rfl
  refine ⟨fun unnamed => ?dropped, ?acts⟩
  case dropped =>
    have passed : ∀ way e, entryOf s d = some (way, e) → ¬(e.plan = p ∧ e.member = i) := fun way e entry =>
      have ⟨valid, tag⟩ := (entryOf_eq_some_iff sound d way e).mp entry
      unnamed e (List.mem_of_getElem? valid) tag
    exact ⟨outcome_dropped passed _, outcome_dropped passed _⟩
  case acts =>
    rintro w e valid tag rfl rfl
    have entry := (entryOf_eq_some_iff sound d w e).mpr ⟨valid, tag⟩
    refine ⟨outcome_of_entry entry succeedEntry, fun confident => ?lowered, fun spent j st step ofKind next => ?moved⟩
    case lowered =>
      rw [failureOutcome, outcome_of_entry entry, failEntry_of_pos confident]
      rfl
    case moved =>
      have member : nextMember (s.plan e.plan) e.member = j := by
        rcases next with ⟨below, lowest⟩ | ends
        · exact nextMember_of_above step ofKind below lowest
        · exact nextMember_of_last step ofKind ends
      rw [failureOutcome, outcome_of_entry entry, failEntry_of_zero spent, member]
      rfl

/-- Settles O27: a lookup by the destination's only entry, the placing of a new one, and the cheapest of the plan's POOL
steps. -/
theorem lookupAndAllocation : Obligations.LookupAndAllocation := by
  refine ⟨?memory, fun s p => ⟨fun i st g step ofKind group lowest => ?priced,
    fun i st step ofKind undefined => ?unpriced⟩⟩
  case memory =>
    rintro s d p m sound rfl
    refine ⟨fun i e valid tag => ?found, fun untagged => ?missing⟩
    case found =>
      have entry := (entryOf_eq_some_iff sound d i e).mpr ⟨valid, tag⟩
      exact ⟨lookup_of_entry entry p, afterLookup_of_entry entry p⟩
    case missing =>
      have noEntry := (entryOf_eq_none_iff s d).mpr untagged
      refine ⟨fun plan => ?differ, fun plan gap => ?gapped, fun plan gap => ?allocated⟩
      case differ =>
        have answer := lookup_of_otherPlan noEntry plan
        exact ⟨answer, afterLookup_of_ne (by simp [answer])⟩
      case gapped =>
        have answer := lookup_of_gap noEntry plan gap
        exact ⟨answer, afterLookup_of_ne (by simp [answer])⟩
      case allocated =>
        have answer := lookup_of_noGap noEntry plan gap
        have placed := memorySet_allocate_same d p s
        rw [afterLookup_of_allocated answer]
        exact ⟨answer, fun k other => memorySet_allocate_other s p other, rfl,
          fun i free lowest => placed.trans (placeEntry_of_lowest free lowest _),
          fun full => placed.trans (placeEntry_of_full full _)⟩
  case priced =>
    have listed := (mem_poolSteps_iff _ _ _).mpr ⟨step, ofKind⟩
    have rate := (poolRate_eq_some_iff s st _).mpr ⟨g, group, rfl⟩
    refine chooseMember_of_cheapest (cheapest_of_lowest (poolSteps_rising _) listed rate fun ⟨j, x⟩ other q rated => ?_)
    obtain ⟨step, ofKind⟩ := (mem_poolSteps_iff _ _ _).mp other
    obtain ⟨h, group, rfl⟩ := (poolRate_eq_some_iff s x q).mp rated
    exact lowest j x h step ofKind group
  case unpriced =>
    refine chooseMember_of_firstPool (cheapest_of_undefined fun ⟨j, x⟩ listed => ?_)
      ((firstPool_eq_some_iff _ _).mpr ⟨⟨st, step, ofKind⟩, fun j x step ofKind => (undefined j x step ofKind).1⟩)
    obtain ⟨step, ofKind⟩ := (mem_poolSteps_iff _ _ _).mp listed
    exact poolRate_of_undefined (undefined j x step ofKind).2

end Sys2Proof.Machine
end

section
/-! ACCEPTED and ANSWER (R106, R111, R112): the checks that both make, and the effects of an ANSWER. -/

namespace Sys2Proof.Machine

/-! ## The checks (R106, R111, R112) -/

/-- The checks of R106 and then one on the state of the call: the call is not found, or it is found in a state that the
request does not allow. -/
theorem findOwned_of_firstOf_wrongState {u : State} {p : Port} {r : CallRef} {allowed : Call → Prop} {st : Status}
    (h : FirstOf (ownerChecks u p r ++ [(∃ c, u.call r = some c ∧ ¬allowed c, .wrongState)]) st) :
    findOwned u p r = .error st ∨ ∃ c, findOwned u p r = .ok c ∧ ¬allowed c ∧ st = .wrongState := by
  rcases (firstOf_append_iff _ _ _).mp h with owner | ⟨owned, ⟨⟨c, used, state⟩, rfl⟩ | ⟨-, noCheck⟩⟩
  · exact .inl (findOwned_of_firstOf owner)
  · obtain ⟨x, sameCall, found⟩ := findOwned_of_allPass owned
    obtain rfl := Option.some.inj (used.symm.trans sameCall)
    exact .inr ⟨c, found, state, rfl⟩
  · exact noCheck.elim

theorem freelyRouted_iff (c : Call) : freelyRouted c = true ↔ c.state = .routed ∧ c.reselectionPending = false := by
  simp [freelyRouted]

section Handlers

variable {p : Port} {call : CallRef} {u : State}

/-! ## ACCEPTED (R111) -/

theorem handleAccepted_of_error {st : Status} (found : findOwned u p call = .error st) :
    handleAccepted p call u = refuse st u := by
  simp only [handleAccepted, found]

theorem handleAccepted_wrongState {c : Call} (found : findOwned u p call = .ok c)
    (state : ¬(c.state = .routed ∧ c.reselectionPending = false)) :
    handleAccepted p call u = refuse .wrongState u := by
  simp only [handleAccepted, found, freelyRouted_iff, if_neg state]

theorem handleAccepted_proceeds {c : Call} (found : findOwned u p call = .ok c)
    (state : c.state = .routed ∧ c.reselectionPending = false) :
    handleAccepted p call u = ⟨u.setCall call.slot { c with state := .proceeding }, .ok, .nothing⟩ := by
  simp only [handleAccepted, found, freelyRouted_iff, if_pos state]

theorem handleAccepted_of_firstOf {st : Status}
    (h : FirstOf
      (ownerChecks u p call ++
        [(∃ c, u.call call = some c ∧ ¬(c.state = .routed ∧ c.reselectionPending = false), .wrongState)]) st) :
    handleAccepted p call u = refuse st u := by
  rcases findOwned_of_firstOf_wrongState h with notFound | ⟨c, found, state, rfl⟩
  · exact handleAccepted_of_error notFound
  · exact handleAccepted_wrongState found state

/-! ## ANSWER (R112) -/

theorem handleAnswer_of_error {st : Status} (found : findOwned u p call = .error st) :
    handleAnswer p call u = refuse st u := by
  simp only [handleAnswer, found]

theorem handleAnswer_wrongState {c : Call} (found : findOwned u p call = .ok c)
    (state : ¬((c.state = .routed ∧ c.reselectionPending = false) ∨ c.state = .proceeding)) :
    handleAnswer p call u = refuse .wrongState u := by
  simp only [handleAnswer, found, freelyRouted_or_proceeding_iff, if_neg state]

theorem handleAnswer_answers {c : Call} (found : findOwned u p call = .ok c)
    (state : (c.state = .routed ∧ c.reselectionPending = false) ∨ c.state = .proceeding) :
    handleAnswer p call u = ⟨answerCall call c u, .ok, .answered u.now u.tariff.live.number⟩ := by
  simp only [handleAnswer, found, freelyRouted_or_proceeding_iff, if_pos state]

theorem handleAnswer_of_firstOf {st : Status}
    (h : FirstOf
      (ownerChecks u p call ++
        [(∃ c, u.call call = some c ∧
            ¬((c.state = .routed ∧ c.reselectionPending = false) ∨ c.state = .proceeding), .wrongState)]) st) :
    handleAnswer p call u = refuse st u := by
  rcases findOwned_of_firstOf_wrongState h with notFound | ⟨c, found, state, rfl⟩
  · exact handleAnswer_of_error notFound
  · exact handleAnswer_wrongState found state

end Handlers

/-- R112, R135: the record is written and the live count raised in either order, and then the outcome is handed. -/
theorem answerCall_eq (call : CallRef) (c : Call) {s w : State}
    (hw : w = bindLive (s.setCall call.slot { c with state := .answered, answer := some (answerFacts s) })) :
    answerCall call c s =
      if c.stepKind = .pool ∧ c.memoryFlag = true then successOutcome c.destination c.plan c.stepIndex w else w := by
  subst hw
  simp only [answerCall, handsOutcome_iff]
  rfl

theorem exec_accepted (r : Sender) (call : CallRef) (s : State) :
    exec (.accepted r call) s =
      request (.accepted r call) r RequestKind.accepted.code (handleAccepted r.port call) s := rfl

theorem exec_answer (r : Sender) (call : CallRef) (s : State) :
    exec (.answer r call) s = request (.answer r call) r RequestKind.answer.code (handleAnswer r.port call) s := rfl

/-- Settles O33: the checks of R106 and one on the call's state in their order, the one write of ACCEPTED, and the effects
of R112 one after the other. -/
theorem acceptedAndAnswer : Obligations.AcceptedAndAnswer := by
  refine fun r call s u => ⟨fun accept => ⟨fun st checks => ?accept_refused, ?proceeds⟩,
    fun answer => ⟨fun st checks => ?answer_refused, ?answers⟩⟩
  case accept_refused =>
    exact answers_of rfl (exec_accepted r call s) accept (handleAccepted_of_firstOf checks)
  case proceeds =>
    intro c range used owner routed unmarked
    have found := findOwned_of_owner range used owner
    exact answers_of rfl (exec_accepted r call s) accept (handleAccepted_proceeds found ⟨routed, unmarked⟩)
  case answer_refused =>
    exact answers_of rfl (exec_answer r call s) answer (handleAnswer_of_firstOf checks)
  case answers =>
    intro c w range used owner state hw
    have effects := handleAnswer_answers (findOwned_of_owner range used owner) state
    rw [answerCall_eq call c hw] at effects
    exact answers_of rfl (exec_answer r call s) answer effects

end Sys2Proof.Machine
end

section
/-! The stages of pricing (R151 to R153, R157 to R160) as the arithmetic of chapter 8: one equation per stage, in the order
of the stages, and the priced result assembled from them. -/

namespace Sys2Proof.Machine

theorem durationOf_eq (r : PricedRelease) : durationOf r = min (r.released - r.answered) 86400000 := rfl

theorem conversationSeconds_eq (d : Nat) : conversationSeconds d = (d + 999) / 1000 := rfl

theorem ceilDiv_eq_of_pos {y : Nat} (pos : 1 ≤ y) (x : Nat) : ceilDiv x y = (x + y - 1) / y := by
  rw [ceilDiv, Nat.add_sub_assoc pos]

/-- R153, for a next increment in its range of R132. -/
theorem billedSeconds_eq {next : Nat} (pos : 1 ≤ next) (sec first : Nat) :
    billedSeconds sec first next =
      if sec ≤ first then first else first + next * ((sec - first + next - 1) / next) := by
  rw [billedSeconds, ceilDiv_eq_of_pos pos]

theorem baseCharge_eq (e : TariffEntry) (x : BandSeconds) :
    baseCharge e x =
      e.setupFee + (x.band0 * e.rate0 + 59) / 60 + (x.band1 * e.rate1 + 59) / 60 + (x.band2 * e.rate2 + 59) / 60 +
        (x.band3 * e.rate3 + 59) / 60 := by
  simp only [baseCharge, ceilDiv, Nat.add_assoc]

theorem handover_eq (e : TariffEntry) (x : BandSeconds) (alternate congestion : Bool) :
    handover e x alternate congestion =
      (baseCharge e x *
          (1000 + (if alternate = true then e.alternatePremium else 0) +
            (if congestion = true then e.congestionPremium else 0)) + 500) / 1000 := rfl

theorem capActs_eq (e : TariffEntry) (h : Nat) : capActs e h = decide (0 < e.cap ∧ e.cap < h) :=
  (Bool.decide_and _ _).symm

theorem cappedCharge_eq (e : TariffEntry) (h : Nat) :
    cappedCharge e h = if 0 < e.cap ∧ e.cap < h then e.cap else h := by
  simp only [cappedCharge, capActs_eq, decide_eq_true_eq]

theorem isNone_eq_decide (w : Option Nat) : w.isNone = decide (w = none) := by
  cases w <;> rfl

/-- Settles O43: each quantity of the statement is the value of its stage of `price`, by the equations of the stages. -/
theorem pricingStages : Obligations.PricingStages := by
  intro T r e d sec b base h0 h x entry pos duration seconds billed split charge raised capped
  rw [← durationOf_eq] at duration
  rw [← conversationSeconds_eq] at seconds
  rw [← billedSeconds_eq pos] at billed
  rw [← baseCharge_eq] at charge
  rw [charge, ← handover_eq] at raised
  rw [← cappedCharge_eq] at capped
  subst entry duration seconds billed split raised capped
  rw [← isNone_eq_decide, ← capActs_eq]
  rfl

end Sys2Proof.Machine
end

section
/-! The settlement unit (R170 to R177): what a command of chapter 9 may change, the backlog level and the carrier holds each
judged once, the fetching of records, and the close and release of a period. -/

namespace Sys2Proof.Machine

/-! ## Fields after a report of a level, and after a request is taken -/

theorem level_reportLevel_same (a : AlarmSource) (n : Nat) (s : State) : (reportLevel a n s).level a = n := by
  rw [State.level, reportLevel_levels, Table.get_set_same]

theorem level_reportLevel_other {a b : AlarmSource} (h : b.index ≠ a.index) (n : Nat) (s : State) :
    (reportLevel a n s).level b = s.level b := by
  rw [State.level, reportLevel_levels, Table.get_set_other _ _ _ _ h, State.level]

theorem carrierHold_index_ne {c k : Nat} (h : k ≠ c) :
    AlarmSource.index ⟨.carrierHold, k⟩ ≠ AlarmSource.index ⟨.carrierHold, c⟩ :=
  fun same => h (Nat.add_left_cancel same)

theorem takes_settlement {c : Instr} {s u : State} (h : Takes c s u) : u.settlement = s.settlement := by
  rw [takes_blocks h]

/-! ## What the settlement unit may change -/

/-- Only the settlement unit, the port records as the notice engine changes them, and the alarm levels have changed. -/
def SettlementOnly (s t : State) : Prop :=
  t = { s with settlement := t.settlement, ports := t.ports, levels := t.levels } ∧ SamePorts s t

theorem SettlementOnly.trans {s t u : State} (h : SettlementOnly s t) (g : SettlementOnly t u) : SettlementOnly s u := by
  obtain ⟨hst, ports⟩ := h
  obtain ⟨htu, ports'⟩ := g
  rw [hst] at htu
  exact ⟨htu, fun p => (ports p).trans (ports' p)⟩

theorem SettlementOnly.write (s : State) (x : Settlement) : SettlementOnly s { s with settlement := x } :=
  ⟨rfl, fun _ => SamePortFacts.refl _⟩

theorem SettlementOnly.refl (s : State) : SettlementOnly s s := SettlementOnly.write s s.settlement

theorem Told.settlementOnly {s t : State} (h : Told s t) : SettlementOnly s t := by
  obtain ⟨same, ports, -⟩ := h
  refine ⟨?_, ports⟩
  rw [same]

theorem SettlementOnly.foldl {α : Type} {f : State → α → State} (hf : ∀ s x, SettlementOnly s (f s x)) (l : List α)
    (s : State) : SettlementOnly s (l.foldl f s) := by
  induction l generalizing s with
  | nil => exact SettlementOnly.refl s
  | cons x l ih => exact (hf s x).trans (ih (f s x))

/-! ## The backlog level (R170) -/

theorem judgeBacklog_of_same {s : State}
    (same : backlogAfter s.settlement.backlog s.settlement.queue.length = s.settlement.backlog) : judgeBacklog s = s :=
  if_pos same

theorem judgeBacklog_of_change {s : State}
    (change : backlogAfter s.settlement.backlog s.settlement.queue.length ≠ s.settlement.backlog) :
    judgeBacklog s =
      reportLevel ⟨.settlementBacklog, 0⟩ (levelOf (backlogAfter s.settlement.backlog s.settlement.queue.length))
        { s with
          settlement :=
            { s.settlement with backlog := backlogAfter s.settlement.backlog s.settlement.queue.length } } :=
  if_neg change

theorem judgeBacklog_settlement (s : State) :
    (judgeBacklog s).settlement =
      { s.settlement with backlog := backlogAfter s.settlement.backlog s.settlement.queue.length } := by
  by_cases same : backlogAfter s.settlement.backlog s.settlement.queue.length = s.settlement.backlog
  · rw [judgeBacklog_of_same same, same]
  · rw [judgeBacklog_of_change same, (reportLevel_told _ _ _).settlement]

theorem judgeBacklog_settlementOnly (s : State) : SettlementOnly s (judgeBacklog s) := by
  by_cases same : backlogAfter s.settlement.backlog s.settlement.queue.length = s.settlement.backlog
  · rw [judgeBacklog_of_same same]
    exact SettlementOnly.refl s
  · rw [judgeBacklog_of_change same]
    exact (SettlementOnly.write s _).trans (reportLevel_told _ _ _).settlementOnly

/-! ## The hold of a carrier (R173) -/

theorem evaluateHold_of_same {s : State} {c : Nat}
    (same : holdOf (s.carrier c).limit (s.carrier c).total = (s.carrier c).hold) : evaluateHold s c = s :=
  if_pos same

theorem evaluateHold_of_change {s : State} {c : Nat}
    (change : holdOf (s.carrier c).limit (s.carrier c).total ≠ (s.carrier c).hold) :
    evaluateHold s c =
      reportLevel ⟨.carrierHold, c⟩ (levelOf (holdOf (s.carrier c).limit (s.carrier c).total))
        (s.setCarrier c { s.carrier c with hold := holdOf (s.carrier c).limit (s.carrier c).total }) :=
  if_neg change

theorem evaluateHold_settlementOnly (s : State) (c : Nat) : SettlementOnly s (evaluateHold s c) := by
  by_cases same : holdOf (s.carrier c).limit (s.carrier c).total = (s.carrier c).hold
  · rw [evaluateHold_of_same same]
    exact SettlementOnly.refl s
  · rw [evaluateHold_of_change same]
    exact (SettlementOnly.write s _).trans (reportLevel_told _ _ _).settlementOnly

/-- R173: an evaluation that changes the flag reports it as the carrier's level. -/
theorem level_evaluateHold_same {s : State} {c : Nat}
    (change : holdOf (s.carrier c).limit (s.carrier c).total ≠ (s.carrier c).hold) :
    (evaluateHold s c).level ⟨.carrierHold, c⟩ = levelOf (holdOf (s.carrier c).limit (s.carrier c).total) := by
  rw [evaluateHold_of_change change, level_reportLevel_same]

theorem level_evaluateHold_other (s : State) {c k : Nat} (h : k ≠ c) :
    (evaluateHold s c).level ⟨.carrierHold, k⟩ = s.level ⟨.carrierHold, k⟩ := by
  by_cases same : holdOf (s.carrier c).limit (s.carrier c).total = (s.carrier c).hold
  · rw [evaluateHold_of_same same]
  · rw [evaluateHold_of_change same, level_reportLevel_other (carrierHold_index_ne h)]
    rfl

/-! ## The holds of a list of carriers -/

theorem foldl_evaluateHold_rest (l : List Nat) (s : State) :
    (l.foldl evaluateHold s).settlement =
      { s.settlement with carriers := (l.foldl evaluateHold s).settlement.carriers } := by
  induction l generalizing s with
  | nil => rfl
  | cons x l ih =>
    rw [List.foldl_cons, ih, evaluateHold_rest]

/-- R173: every listed carrier has its flag as its limit and total say, since an evaluation leaves both as they were. -/
theorem carrier_foldl_evaluateHold (l : List Nat) (s : State) (k : Nat) :
    (l.foldl evaluateHold s).carrier k =
      if k ∈ l then { s.carrier k with hold := holdOf (s.carrier k).limit (s.carrier k).total } else s.carrier k := by
  induction l generalizing s with
  | nil => rfl
  | cons x l ih =>
    rw [List.foldl_cons, ih, carrier_evaluateHold]
    by_cases hk : k = x
    · subst hk
      simp
    · simp [hk]

/-- A carrier whose flag is as it should be has its level left alone. -/
theorem level_foldl_evaluateHold_of_same (l : List Nat) {s : State} {k : Nat}
    (same : holdOf (s.carrier k).limit (s.carrier k).total = (s.carrier k).hold) :
    (l.foldl evaluateHold s).level ⟨.carrierHold, k⟩ = s.level ⟨.carrierHold, k⟩ := by
  induction l generalizing s with
  | nil => rfl
  | cons x l ih =>
    by_cases hk : k = x
    · subst hk
      rw [List.foldl_cons, evaluateHold_of_same same, ih same]
    · have kept : (evaluateHold s x).carrier k = s.carrier k := by rw [carrier_evaluateHold, if_neg hk]
      rw [List.foldl_cons, ih (kept.symm ▸ same), level_evaluateHold_other s hk]

/-- A listed carrier whose flag changes has its level reported, at its first place in the list. -/
theorem level_foldl_evaluateHold_of_change {l : List Nat} {s : State} {k : Nat} (listed : k ∈ l)
    (change : holdOf (s.carrier k).limit (s.carrier k).total ≠ (s.carrier k).hold) :
    (l.foldl evaluateHold s).level ⟨.carrierHold, k⟩ = levelOf (holdOf (s.carrier k).limit (s.carrier k).total) := by
  induction l generalizing s with
  | nil => exact absurd listed List.not_mem_nil
  | cons x l ih =>
    by_cases hk : k = x
    · subst hk
      have settled : (evaluateHold s k).carrier k =
          { s.carrier k with hold := holdOf (s.carrier k).limit (s.carrier k).total } := by
        rw [carrier_evaluateHold, if_pos rfl]
      rw [List.foldl_cons, level_foldl_evaluateHold_of_same l (by rw [settled]), level_evaluateHold_same change]
    · have kept : (evaluateHold s x).carrier k = s.carrier k := by rw [carrier_evaluateHold, if_neg hk]
      have later : k ∈ l := (List.mem_cons.mp listed).resolve_left hk
      rw [List.foldl_cons, ih later (kept.symm ▸ change), kept]

/-! ## SET_FETCH_BLOCK and FETCH_RECORDS (R171, R172) -/

theorem handleFetchBlock_some (p : Port) (c : Nat) (u : State) :
    handleFetchBlock p (some c) u =
      ⟨u.setPort p { u.port p with fetchBlock := some (if c = 0 then 64 else min c 64) },
        if 64 < c then .adjusted else .ok, .fetchBlock (if c = 0 then 64 else min c 64)⟩ := by
  have status : okOr (decide (64 < c)) = if 64 < c then .adjusted else .ok := by simp only [okOr, decide_eq_true_eq]
  rw [← status]
  rfl

theorem removeRecords_settlement (n : Nat) (s : State) :
    (removeRecords n s).settlement =
      { s.settlement with
        queue := s.settlement.queue.drop n
        backlog := backlogAfter s.settlement.backlog (s.settlement.queue.length - n) } := by
  rw [removeRecords, judgeBacklog_settlement, List.length_drop]

theorem removeRecords_settlementOnly (n : Nat) (s : State) : SettlementOnly s (removeRecords n s) :=
  (SettlementOnly.write s _).trans (judgeBacklog_settlementOnly _)

/-- R170: when the level stays, the queue alone has changed. -/
theorem removeRecords_of_same {n : Nat} {s : State}
    (same : (removeRecords n s).settlement.backlog = s.settlement.backlog) :
    removeRecords n s = { s with settlement := { s.settlement with queue := s.settlement.queue.drop n } } := by
  rw [removeRecords, judgeBacklog_settlement] at same
  exact judgeBacklog_of_same same

theorem removeRecords_level {n : Nat} {s : State}
    (change : (removeRecords n s).settlement.backlog ≠ s.settlement.backlog) :
    (removeRecords n s).level ⟨.settlementBacklog, 0⟩ = levelOf (removeRecords n s).settlement.backlog := by
  rw [removeRecords, judgeBacklog_settlement] at change ⊢
  rw [judgeBacklog_of_change change, level_reportLevel_same]

section Fetch

variable {p : Port} {u : State}

theorem handleFetch_unset (unset : (u.port p).fetchBlock = none) : handleFetch p u = refuse .noFetchBlock u := by
  simp only [handleFetch, unset]

theorem handleFetch_of_empty {n : Nat} (block : (u.port p).fetchBlock = some n) (empty : u.settlement.queue = []) :
    handleFetch p u = ⟨u, .ok, .records 0 []⟩ := by
  simp [handleFetch, block, empty]

theorem handleFetch_moves {n : Nat} (block : (u.port p).fetchBlock = some n) (records : u.settlement.queue ≠ []) :
    handleFetch p u =
      ⟨removeRecords n u, .ok, .records (u.settlement.queue.length - n) (u.settlement.queue.take n)⟩ := by
  simp [handleFetch, block, records]

end Fetch

theorem exec_setFetchBlock (r : Sender) (code : Option Nat) (s : State) :
    exec (.setFetchBlock r code) s =
      request (.setFetchBlock r code) r RequestKind.setFetchBlock.code (handleFetchBlock r.port code) s := rfl

theorem exec_fetchRecords (r : Sender) (s : State) :
    exec (.fetchRecords r) s = request (.fetchRecords r) r RequestKind.fetchRecords.code (handleFetch r.port) s := rfl

/-- Settles O45: the block size written in one port record; and the fetch by the block size and the queue, with the backlog
level judged on what is left. -/
theorem fetchRecords : Obligations.FetchRecords := by
  refine fun r code s u => ⟨fun set => ⟨?malformed, ?stored⟩, fun fetch => ⟨fun unset => ?unset, fun n block =>
    ⟨fun empty => ?empty, fun records => ⟨removeRecords n u, ?answer, removeRecords_settlement n u, fun same => ?kept,
      removeRecords_level, ?ports, ?frame⟩⟩⟩⟩
  case malformed =>
    rintro rfl
    exact answers_of rfl (exec_setFetchBlock r none s) set rfl
  case stored =>
    rintro c rfl
    exact answers_of rfl (exec_setFetchBlock r (some c) s) set (handleFetchBlock_some r.port c u)
  case unset => exact answers_of rfl (exec_fetchRecords r s) fetch (handleFetch_unset unset)
  case empty => exact answers_of rfl (exec_fetchRecords r s) fetch (handleFetch_of_empty block empty)
  case answer => exact answers_of rfl (exec_fetchRecords r s) fetch (handleFetch_moves block records)
  case kept =>
    rw [removeRecords_of_same same]
    exact ⟨rfl, rfl⟩
  case ports => exact (removeRecords_settlementOnly n u).2
  case frame => exact (removeRecords_settlementOnly n u).1

/-! ## What the close of a period moves (R175 steps 1 to 3) -/

theorem Table.get_foldl_set {α : Type} [DecidableEq α] {d : α} (f : Nat → α) (l : List Nat) (t : Table α d) (k : Nat) :
    (l.foldl (fun t c => t.set c (f c)) t).get k = if k ∈ l then f k else t.get k := by
  induction l generalizing t with
  | nil => rfl
  | cons x l ih =>
    rw [List.foldl_cons, ih, Table.get_set]
    by_cases hk : k = x
    · subst hk
      simp
    · simp [hk]

theorem mem_range_carriers {c : Nat} (h : c ≤ 63) : c ∈ List.range Config.carriers :=
  List.mem_range.mpr (Nat.lt_succ_of_le h)

theorem closedCopy_total (s : State) {c : Nat} (h : c ≤ 63) : (closedCopy s).totals.get c = (s.carrier c).total := by
  rw [closedCopy, Table.get_foldl_set, if_pos (mem_range_carriers h)]

/-- R175 step 2: the totals become 0; the record of a carrier that was never written keeps its reset value. -/
theorem closeTotals_carrier {s : State} (canonical : s.settlement.carriers.wf = true) (c : Nat) :
    (closeTotals s).carrier c = { s.carrier c with total := 0 } :=
  Table.get_mapValues _ s.settlement.carriers c canonical rfl

/-- R173: a total of 0 reaches no limit that is set. -/
theorem holdOf_zero (limit : Nat) : holdOf limit 0 = false := by
  simp [holdOf]

/-! ## The state that CLOSE_PERIOD tells the ports of (R175 steps 1 to 4) -/

/-- R175 steps 1 to 4: the totals moved and every hold evaluated. -/
def totalsClosed (s : State) : State := (List.range Config.carriers).foldl evaluateHold (closeTotals s)

theorem closePeriod_eq (s : State) :
    closePeriod s =
      notifyAllUp (.periodClosed s.settlement.period ((s.settlement.period + 1) % 65536)) (totalsClosed s) := rfl

theorem totalsClosed_settlement (s : State) :
    (totalsClosed s).settlement = { (closeTotals s).settlement with carriers := (totalsClosed s).settlement.carriers } := by
  rw [totalsClosed, ← foldl_evaluateHold_rest]

theorem totalsClosed_carrier {s : State} (canonical : s.settlement.carriers.wf = true) {c : Nat} (h : c ≤ 63) :
    (totalsClosed s).carrier c = ⟨0, (s.carrier c).limit, false⟩ := by
  rw [totalsClosed, carrier_foldl_evaluateHold, if_pos (mem_range_carriers h), closeTotals_carrier canonical, holdOf_zero]

theorem totalsClosed_level {s : State} (canonical : s.settlement.carriers.wf = true) {c : Nat} (h : c ≤ 63)
    (held : (s.carrier c).hold = true) : (totalsClosed s).level ⟨.carrierHold, c⟩ = 0 := by
  have cleared : (closeTotals s).carrier c = { s.carrier c with total := 0 } := closeTotals_carrier canonical c
  have released : holdOf ((closeTotals s).carrier c).limit ((closeTotals s).carrier c).total = false := by
    rw [cleared, holdOf_zero]
  have change : holdOf ((closeTotals s).carrier c).limit ((closeTotals s).carrier c).total ≠
      ((closeTotals s).carrier c).hold := by
    rw [released, cleared, held]
    exact Bool.false_ne_true
  rw [totalsClosed, level_foldl_evaluateHold_of_change (mem_range_carriers h) change, released]
  rfl

theorem totalsClosed_settlementOnly (s : State) : SettlementOnly s (totalsClosed s) :=
  (SettlementOnly.write s _).trans (SettlementOnly.foldl evaluateHold_settlementOnly _ _)

/-! ## CLOSE_PERIOD and RELEASE_CLOSED (R175, R177) -/

section Periods

variable {u : State}

theorem handleClosePeriod_full (full : u.settlement.closed.isSome = true) :
    handleClosePeriod u = refuse .closedBankFull u :=
  if_pos full

theorem handleClosePeriod_closes (free : u.settlement.closed = none) :
    handleClosePeriod u =
      ⟨closePeriod u, .ok, .closed u.settlement.period ((u.settlement.period + 1) % 65536)⟩ :=
  if_neg (by simp [free])

theorem handleReleaseClosed_free (n : Nat) (free : u.settlement.closed = none) :
    handleReleaseClosed (some n) u = ⟨u, .ok, .alreadyFree⟩ := by
  simp only [handleReleaseClosed, free]

theorem handleReleaseClosed_same {b : ClosedBank} (full : u.settlement.closed = some b) :
    handleReleaseClosed (some b.period) u =
      ⟨{ u with settlement := { u.settlement with closed := none } }, .ok, .periodReleased b.period⟩ := by
  simp only [handleReleaseClosed, full, if_true]

theorem handleReleaseClosed_other {b : ClosedBank} {n : Nat} (full : u.settlement.closed = some b)
    (other : b.period ≠ n) : handleReleaseClosed (some n) u = ⟨u, .wrongState, .closedPeriodIs b.period⟩ := by
  simp only [handleReleaseClosed, full, if_neg other]

end Periods

theorem exec_closePeriod (r : Sender) (s : State) :
    exec (.closePeriod r) s = request (.closePeriod r) r RequestKind.closePeriod.code handleClosePeriod s := rfl

theorem exec_releaseClosed (r : Sender) (period : Option Nat) (s : State) :
    exec (.releaseClosed r period) s =
      request (.releaseClosed r period) r RequestKind.releaseClosed.code (handleReleaseClosed period) s := rfl

/-- Settles O47: the live values copied and cleared in one write, the holds evaluated carrier by carrier on totals of 0, and
the notice made last; and the release by what the closed bank holds. -/
theorem periods : Obligations.Periods := by
  rintro r period s u ⟨-, carriers⟩
  refine ⟨fun close => ⟨fun full => ?full, fun free => ?closes⟩,
    fun release => ⟨?malformed, fun n given => ⟨fun free => ?free, fun b full => ⟨?same, fun other => ?other⟩⟩⟩⟩
  case full => exact answers_of rfl (exec_closePeriod r s) close (handleClosePeriod_full full)
  case closes =>
    have canonical : u.settlement.carriers.wf = true := by rw [takes_settlement close]; exact carriers
    have moved := totalsClosed_settlement u
    obtain ⟨frame, ports⟩ := totalsClosed_settlementOnly u
    refine ⟨closePeriod u, totalsClosed u, closedCopy u,
      answers_of rfl (exec_closePeriod r s) close (handleClosePeriod_closes free), closePeriod_eq u, ?bank, rfl,
      fun _ => rfl, fun c hc => closedCopy_total u hc, fun k => ?pairs, fun c hc => totalsClosed_carrier canonical hc,
      fun c hc held => totalsClosed_level canonical hc held, ?period, ?queue, ?backlog, ?handed, ports, frame⟩
    case pairs =>
      rw [State.pair, moved]
      rfl
    all_goals
      rw [moved]
      rfl
  case malformed =>
    rintro rfl
    exact answers_of rfl (exec_releaseClosed r none s) release rfl
  case free =>
    subst given
    exact answers_of rfl (exec_releaseClosed r _ s) release (handleReleaseClosed_free n free)
  case same =>
    rintro rfl
    subst given
    exact answers_of rfl (exec_releaseClosed r _ s) release (handleReleaseClosed_same full)
  case other =>
    subst given
    exact answers_of rfl (exec_releaseClosed r _ s) release (handleReleaseClosed_other full other)

end Sys2Proof.Machine
end

section
/-! The machine as a whole: every command answers a next state (no rule of the spec stops the device), the values of device
reset, and the invariants that they meet. -/

namespace Sys2Proof.Machine

/-! ## Every command answers a next state -/

theorem request_next (c : Instr) (r : Sender) (code : Nat) (f : State → Reply) (s : State) :
    ∃ t, request c r code f s = .next t := by
  rcases request_cases c r code f s with ⟨s1, -, e⟩ | ⟨-, e⟩
  · exact ⟨_, e⟩
  · exact ⟨_, e⟩

theorem execOffer_next (r : OfferStep) (circuit : Nat) (digits : List Nat) (cls : Arg CallClass) (s : State) :
    ∃ t, execOffer r circuit digits cls s = .next t := by
  obtain ⟨p, part⟩ := r
  cases part with
  | whole => exact request_next _ _ _ _ _
  | walk => exact ⟨_, rfl⟩
  | keep => exact ⟨_, rfl⟩

/-- No command faults or is refused: a request is answered or arrives, and an event answers by its definition. -/
theorem exec_next (c : Instr) (s : State) : ∃ t, exec c s = .next t := by
  cases c
  case offer r circuit digits cls => exact execOffer_next r circuit digits cls s
  all_goals first
    | exact request_next _ _ _ _ _
    | exact ⟨_, rfl⟩

theorem step_of_pending {s : State} {c : Instr} {rest : List Instr} (h : s.pending = c :: rest) :
    step s = exec c { s with pending := rest } := by
  simp only [step, h]

theorem step_of_idle {s : State} (h : s.pending = []) : step s = .next s := by
  simp only [step, h]

theorem step_next (s : State) : ∃ t, step s = .next t := by
  cases h : s.pending with
  | nil => exact ⟨s, step_of_idle h⟩
  | cons c rest =>
    rw [step_of_pending h]
    exact exec_next c _

theorem safeRun (n : Nat) (s : State) : SafeRun n s := by
  induction n generalizing s with
  | zero => exact trivial
  | succ n ih =>
    obtain ⟨t, ht⟩ := step_next s
    simp only [SafeRun, ht]
    exact ih t

/-- Settles O55: a step is the execution of the front command, every command answers a next state, and so does every step
of a run. -/
theorem stepRunsFrontCommand : Obligations.StepRunsFrontCommand :=
  ⟨fun _ _ _ h => step_of_pending h, fun _ h => step_of_idle h, safeRun⟩

/-! ## The invariants at device reset -/

theorem reset_plantSound : PlantSound State.reset :=
  ⟨Table.empty_wf, fun _ _ h => (by cases h), fun _ _ h => (by cases h)⟩

theorem portInitial_sound : PortRecord.initial.Sound := by
  simp [PortRecord.Sound, PortRecord.initial]

theorem reset_portsSound : PortsSound State.reset := by
  intro p
  rw [show State.reset.port p = PortRecord.initial from PerPort.get_all _ p]
  exact portInitial_sound

theorem reset_tariffSound : TariffSound State.reset := by
  refine ⟨by decide, fun _ h => (by cases h), by decide, fun _ h => (by cases h), fun _ h => (by cases h), ?_, fun _ => rfl,
    ?_, ?_⟩
  · exact ⟨fun _ => rfl, fun _ => rfl⟩
  · exact ⟨fun h => (by cases h), fun h => (by cases h)⟩
  · exact ⟨fun h => (by cases h), fun h => (by cases h)⟩

theorem pairZero_within : PairTotals.zero.Within := by
  simp [PairTotals.Within, PairTotals.zero]

theorem reset_settlementSound : SettlementSound State.reset :=
  ⟨fun _ => pairZero_within, fun _ => Nat.zero_le _, fun _ => Nat.zero_le _, Nat.zero_le _, fun h => absurd h (by decide),
    fun _ => rfl, by decide, fun _ _ => rfl⟩

theorem reset_ledgerSound : LedgerSound State.reset := ⟨Table.empty_wf, Table.empty_wf⟩

theorem reset_analyserSound : AnalyserSound State.reset :=
  ⟨Table.empty_wf, Nat.zero_le _, Table.empty_wf, Nat.zero_le _, fun _ _ h => (by cases h), fun _ => (by decide : 0 < Config.plans)⟩

theorem reset_routesSound : RoutesSound State.reset := by
  refine ⟨by decide, fun p n => ?_, fun p => ?_⟩
  · rw [show State.reset.plan p = [] from rfl, show State.reset.service.planSets.get n = [] from rfl]
    simp
  · rw [show State.reset.plan p = [] from rfl]
    simp

/-- R88: a set as device reset leaves it holds no valid entry. -/
theorem not_mem_initial_ways (e : MemoryEntry) : some e ∉ MemorySet.initial.ways := by
  simp [MemorySet.initial]

theorem reset_memorySound : MemorySound State.reset := by
  refine ⟨Table.empty_wf, fun k => ?_⟩
  rw [show State.reset.memorySet k = .initial from rfl]
  exact ⟨rfl, by decide, fun e h => absurd h (not_mem_initial_ways e),
    fun i j e f h => absurd (List.mem_of_getElem? h) (not_mem_initial_ways e)⟩

theorem reset_callsSound : CallsSound State.reset := by
  refine ⟨Table.empty_wf, by decide, List.nodup_nil, fun _ => (by decide : 0 < 256), fun k => ?_, fun _ _ h => (by cases h),
    List.nodup_nil, fun _ h => absurd h (List.not_mem_nil)⟩
  exact ⟨fun h => absurd h (List.not_mem_nil), fun ⟨_, h, _⟩ => (by cases h)⟩

theorem reset_batchSound : BatchSound State.reset := by
  refine ⟨by decide, List.nodup_nil, by decide, fun _ => rfl, ?_, ?_, ?_, fun h => (by cases h), fun h => (by cases h), ?_,
    fun n => ⟨fun h => absurd h (List.not_mem_nil), ?_⟩⟩
  · exact ⟨fun h => (by cases h), fun h => (by cases h)⟩
  · exact ⟨fun h => (by cases h), fun h => (by cases h.1)⟩
  · exact ⟨fun h => (by cases h), fun h => (by cases h.1)⟩
  · rintro (h | h) <;> cases h
  · rintro (h | h) <;> cases h

theorem reset_pendingBusy : PendingBusy State.reset := fun h => (by cases h)

theorem reset_levelsSound : LevelsSound State.reset :=
  ⟨Table.empty_wf, fun _ _ h => (by cases h), fun _ _ => rfl, fun _ _ => rfl, fun _ => rfl, fun _ _ => ⟨rfl, rfl⟩,
    fun _ _ => rfl, fun _ _ => rfl, fun _ _ => rfl, rfl⟩

theorem reset_call (r : CallRef) : State.reset.call r = none := by
  simp only [State.call]
  split
  · rfl
  · rfl

theorem reset_legsSound : LegsSound State.reset := by
  refine ⟨fun _ _ _ h => (by cases h), fun _ _ _ h => (by cases h), fun _ _ h => (by cases h),
    fun _ h => absurd h (List.not_mem_nil), List.nodup_nil, fun r => ⟨fun h => absurd h (List.not_mem_nil), ?_⟩⟩
  rintro ⟨x, hx, -⟩
  rw [reset_call] at hx
  cases hx

theorem reset_referencesSound : ReferencesSound State.reset :=
  ⟨rfl, fun _ h => (by cases h), fun _ _ _ h => (by cases h)⟩

/-! ## RESET_N and POWER_ON (R195) -/

theorem exec_resetN_asserts {s : State} (h : s.resetLine = false) :
    exec .resetN s = .next { s with resetLine := true } := by
  show execResetN s = _
  rw [execResetN, if_neg (by simp [h])]

theorem exec_resetN_releases {s : State} (h : s.resetLine = true) : exec .resetN s = .next (deviceReset s) := by
  show execResetN s = _
  rw [execResetN, if_pos h]

/-- Settles O56: the release of RESET_N and POWER_ON both leave `deviceReset`, whose values are those of `State.reset`. -/
theorem resetValues : Obligations.ResetValues := by
  refine ⟨fun s h => exec_resetN_asserts h, fun s => ⟨deviceReset s, exec_resetN_releases, rfl, rfl, rfl, rfl, rfl, rfl, rfl,
    rfl, rfl, rfl, rfl, fun _ => rfl, fun _ => ⟨rfl, rfl⟩, rfl, rfl, fun _ => rfl, fun _ => ⟨rfl, rfl⟩, fun _ => rfl, rfl,
    fun _ => rfl, fun _ => rfl, rfl, rfl, rfl, rfl, rfl, rfl, rfl, fun _ _ => rfl, fun _ => rfl, ?schedules,
    fun _ => rfl, rfl, rfl, fun _ => rfl, fun _ => rfl, rfl, rfl, rfl, rfl, fun _ => rfl, ?ports⟩,
    reset_plantSound, reset_portsSound, reset_tariffSound, reset_settlementSound, reset_ledgerSound, reset_analyserSound,
    reset_routesSound, reset_memorySound, reset_callsSound, reset_batchSound, reset_pendingBusy, reset_levelsSound,
    reset_legsSound, reset_referencesSound⟩
  case schedules =>
    rintro (_ | _) i
    · rfl
    · rfl
  case ports =>
    intro p
    rw [show (deviceReset s).port p = PortRecord.initial from PerPort.get_all _ p]
    exact ⟨rfl, rfl, rfl, rfl, rfl, rfl, rfl, rfl, rfl, fun _ => rfl⟩

/-! ## A table of carriers that is not in canonical form

A table reads the first record listed for a number. `twiceListed` lists two for one carrier above 63: the first with a total
alone, the second with a limit out of range. CLOSE_PERIOD clears the totals, the first record becomes the default one and is
no longer listed, and the second is read from then on. -/

def twiceListed : State :=
  { State.reset with
    ports := .all { PortRecord.initial with state := .up }
    settlement :=
      { State.reset.settlement with carriers := ⟨[(100, ⟨1, 0, false⟩), (100, ⟨0, Config.capMax + 1, false⟩)]⟩ } }

theorem twiceListed_carrier (c : Nat) :
    twiceListed.carrier c = if c = 100 then ⟨1, 0, false⟩ else ⟨0, 0, false⟩ := by
  show lookupIn Carrier.initial [(100, ⟨1, 0, false⟩), (100, ⟨0, Config.capMax + 1, false⟩)] c = _
  by_cases hc : c = 100
  · subst hc
    rfl
  · simp only [lookupIn, if_neg hc, if_neg (Ne.symm hc), Carrier.initial, ite_self]

theorem twiceListed_plantSound : PlantSound twiceListed := reset_plantSound.of_plant rfl

theorem twiceListed_routesSound : RoutesSound twiceListed := reset_routesSound

theorem twiceListed_settlementSound : SettlementSound twiceListed := by
  refine ⟨fun _ => pairZero_within, fun c => ?_, fun c => ?_, Nat.zero_le _, fun h => absurd h (by decide), fun _ => rfl,
    by decide, fun c hc => ?_⟩
  all_goals rw [twiceListed_carrier]
  · split <;> simp [Config.fieldMax]
  · split <;> simp
  · rw [if_neg (by simp only [Config.carriers] at hc; omega)]
    rfl

theorem twiceListed_levelsSound : LevelsSound twiceListed := by
  refine ⟨Table.empty_wf, fun _ _ h => (by cases h), fun _ _ => rfl, fun _ _ => rfl, fun _ => rfl, fun c _ => ?_,
    fun _ _ => rfl, fun _ _ => rfl, fun c _ => ?_, rfl⟩
  all_goals rw [twiceListed_carrier]
  · split <;> exact ⟨rfl, rfl⟩
  · split <;> rfl

/-- After CLOSE_PERIOD the second record of the carrier is read. -/
theorem closePeriod_twiceListed :
    ∃ t, exec (.closePeriod ⟨.a, 0⟩) twiceListed = .next t ∧ (t.carrier 100).limit = Config.capMax + 1 := by
  refine ⟨respond ⟨.a, 0⟩ RequestKind.closePeriod.code (handleClosePeriod twiceListed), rfl, ?_⟩
  have free : twiceListed.settlement.closed = none := rfl
  have closed : (handleClosePeriod twiceListed).state = closePeriod twiceListed := by
    rw [handleClosePeriod_closes free]
  obtain ⟨-, -, -, -, -, -, -, answered, -⟩ :=
    respond_same ⟨.a, 0⟩ RequestKind.closePeriod.code (handleClosePeriod twiceListed)
  have told : (closePeriod twiceListed).settlement = (totalsClosed twiceListed).settlement := by
    rw [closePeriod_eq, (notifyAllUp_told _ (totalsClosed twiceListed)).settlement]
  have unlisted : 100 ∉ List.range Config.carriers := by decide
  have second : (totalsClosed twiceListed).carrier 100 = ⟨0, Config.capMax + 1, false⟩ := by
    rw [totalsClosed, carrier_foldl_evaluateHold, if_neg unlisted]
    rfl
  rw [State.carrier, answered, closed, told]
  exact congrArg Carrier.limit second

/-- Refutes O57: LevelsSound asks for a limit of 0 above carrier 63, and the statement has no premise that the table of
carriers is in canonical form. -/
theorem not_plantStaysSound : ¬ Obligations.PlantStaysSound := by
  intro h
  obtain ⟨t, ht, limit⟩ := closePeriod_twiceListed
  obtain ⟨-, -, -, -, -, above, -⟩ :=
    (h _ _ t twiceListed_plantSound ht).2 twiceListed_routesSound twiceListed_levelsSound
  have zero := (above 100 (by decide)).1
  exact absurd (limit.symm.trans zero) (by decide)

/-- Refutes O58: SettlementSound bounds every limit, and is claimed kept without the premise that the table of carriers is
in canonical form. -/
theorem not_portsTariffAndSettlementStaySound : ¬ Obligations.PortsTariffAndSettlementStaySound := by
  intro h
  obtain ⟨t, ht, limit⟩ := closePeriod_twiceListed
  obtain ⟨-, -, settled, -⟩ := h _ _ t ht
  obtain ⟨-, -, limits, -⟩ := settled twiceListed_settlementSound
  have bounded := limits 100
  rw [limit] at bounded
  exact absurd bounded (Nat.not_succ_le_self _)

end Sys2Proof.Machine
end

section
/-! The requests that change nothing or one field of one record: the plant lock and the plant queries (R10, R24, R25), the
queries of routing and calls (R44, R62, R68, R101, R126), and the far-end level with its timer (R30, R31). -/

namespace Sys2Proof.Machine

/-! ## Number ranges -/

theorem Config.groups_le_iff (n : Nat) : Config.groups ≤ n ↔ 255 < n := Nat.succ_le_iff

theorem Config.circuits_le_iff (n : Nat) : Config.circuits ≤ n ↔ 16383 < n := Nat.succ_le_iff

theorem Config.destinations_le_iff (n : Nat) : Config.destinations ≤ n ↔ 2047 < n := Nat.succ_le_iff

theorem Config.plans_le_iff (n : Nat) : Config.plans ≤ n ↔ 1023 < n := Nat.succ_le_iff

theorem Config.memorySets_le_iff (n : Nat) : Config.memorySets ≤ n ↔ 255 < n := Nat.succ_le_iff

theorem Config.slots_le_iff (n : Nat) : Config.slots ≤ n ↔ 8191 < n := Nat.succ_le_iff

theorem Config.carriers_le_iff (n : Nat) : Config.carriers ≤ n ↔ 63 < n := Nat.succ_le_iff

theorem Config.tariffClasses_le_iff (n : Nat) : Config.tariffClasses ≤ n ↔ 7 < n := Nat.succ_le_iff

/-! ## Plant lock and plant queries (R10, R24, R25) -/

theorem exec_lockPlant (r : Sender) (s : State) :
    exec (.lockPlant r) s = request (.lockPlant r) r RequestKind.lockPlant.code (handleLock true) s := rfl

theorem exec_unlockPlant (r : Sender) (s : State) :
    exec (.unlockPlant r) s = request (.unlockPlant r) r RequestKind.unlockPlant.code (handleLock false) s := rfl

theorem exec_queryGroup (r : Sender) (n : Nat) (s : State) :
    exec (.queryGroup r n) s = request (.queryGroup r n) r RequestKind.queryGroup.code (handleQueryGroup n) s := rfl

theorem exec_queryCircuit (r : Sender) (n : Nat) (s : State) :
    exec (.queryCircuit r n) s = request (.queryCircuit r n) r RequestKind.queryCircuit.code (handleQueryCircuit n) s := rfl

theorem handleQueryGroup_outOfRange {n : Nat} (range : 255 < n) (u : State) :
    handleQueryGroup n u = refuse .outOfRange u := if_pos range

theorem handleQueryGroup_undefined {n : Nat} {u : State} (range : n ≤ 255) (undefined : u.group n = none) :
    handleQueryGroup n u = ⟨u, .ok, .groupUndefined⟩ := by
  simp only [handleQueryGroup, Config.groups_le_iff, if_neg (Nat.not_lt.mpr range), undefined]

theorem handleQueryGroup_defined {n : Nat} {u : State} {g : Group} (range : n ≤ 255) (defined : u.group n = some g) :
    handleQueryGroup n u = ⟨u, .ok, .group (groupView u n g)⟩ := by
  simp only [handleQueryGroup, Config.groups_le_iff, if_neg (Nat.not_lt.mpr range), defined]

theorem handleQueryCircuit_outOfRange {c : Nat} (range : 16383 < c) (u : State) :
    handleQueryCircuit c u = refuse .outOfRange u := if_pos range

theorem handleQueryCircuit_inRange {c : Nat} (range : c ≤ 16383) (u : State) :
    handleQueryCircuit c u = ⟨u, .ok, .circuit (circuitView u c)⟩ :=
  if_neg (Nat.not_le.mpr (Nat.lt_succ_of_le range))

theorem circuitView_unequipped {u : State} {c : Nat} (h : u.circuit c = none) :
    circuitView u c = ⟨.unequipped, false, false, none, none, none⟩ := by
  simp only [circuitView, h]

/-- Settles O1. -/
theorem plantLockAndQueries : Obligations.PlantLockAndQueries := by
  intro r n s u
  refine ⟨fun lock => answers_of rfl (exec_lockPlant r s) lock rfl,
    fun unlock => answers_of rfl (exec_unlockPlant r s) unlock rfl, fun query => ?group, fun query => ?circuit⟩
  case group =>
    have answer := fun {v st x} => answers_of (v := v) (st := st) (x := x) rfl (exec_queryGroup r n s) query
    exact ⟨fun range => answer (handleQueryGroup_outOfRange range u),
      fun range undefined => answer (handleQueryGroup_undefined range undefined),
      fun g range defined => answer (handleQueryGroup_defined range defined)⟩
  case circuit =>
    have answer := fun {v st x} => answers_of (v := v) (st := st) (x := x) rfl (exec_queryCircuit r n s) query
    refine ⟨fun range => answer (handleQueryCircuit_outOfRange range u), fun range unequipped => answer ?_,
      fun e range equipped => answer ?_⟩
    · rw [handleQueryCircuit_inRange range, circuitView_unequipped unequipped]
    · rw [handleQueryCircuit_inRange range]
      simp only [circuitView, equipped]
      cases e.occupancy <;> rfl

/-! ## The queries of routing and calls -/

theorem exec_queryDrain (r : Sender) (s : State) :
    exec (.queryDrain r) s = request (.queryDrain r) r RequestKind.queryDrain.code handleQueryDrain s := rfl

theorem exec_queryGap (r : Sender) (q : GapQuery) (s : State) :
    exec (.queryGap r q) s = request (.queryGap r q) r RequestKind.queryGap.code (handleQueryGap q) s := rfl

theorem exec_queryPlan (r : Sender) (n : Nat) (s : State) :
    exec (.queryPlan r n) s = request (.queryPlan r n) r RequestKind.queryPlan.code (handleQueryPlan n) s := rfl

theorem exec_queryRouteMemory (r : Sender) (x y : Option Nat) (s : State) :
    exec (.queryRouteMemory r x y) s =
      request (.queryRouteMemory r x y) r RequestKind.queryRouteMemory.code (handleQueryMemory x y) s := rfl

theorem exec_queryCall (r : Sender) (call : CallRef) (s : State) :
    exec (.queryCall r call) s = request (.queryCall r call) r RequestKind.queryCall.code (handleQueryCall call) s := rfl

/-- R44: a member shows the service state of its group while the group is defined. -/
theorem serviceShown_eq_ite (s : State) (n : Nat) :
    serviceShown s n = if (s.group n).isSome = true then some (s.svc n).service else none := by
  unfold serviceShown
  cases s.group n <;> rfl

theorem handleQueryGap_outOfRange {d : Nat} (range : 2047 < d) (u : State) :
    handleQueryGap (.one d) u = refuse .outOfRange u := if_pos range

theorem handleQueryGap_one {d : Nat} (range : d ≤ 2047) (u : State) :
    handleQueryGap (.one d) u = ⟨u, .ok, .gap ((u.gap d).map (gapView u d))⟩ :=
  if_neg (Nat.not_le.mpr (Nat.lt_succ_of_le range))

theorem handleQueryPlan_outOfRange {p : Nat} (range : 1023 < p) (u : State) :
    handleQueryPlan p u = refuse .outOfRange u := if_pos range

theorem handleQueryPlan_inRange {p : Nat} (range : p ≤ 1023) (u : State) :
    handleQueryPlan p u =
      ⟨u, .ok, .plan ((u.plan p).map (fun st => ⟨st, (u.group st.group).isSome⟩)) (u.service.exhausted.get p)⟩ :=
  if_neg (Nat.not_le.mpr (Nat.lt_succ_of_le range))

/-- R101: the query names a destination or a set, and not both. -/
theorem handleQueryMemory_badRequest {x y : Option Nat}
    (h : (x = none ∧ y = none) ∨ (x.isSome = true ∧ y.isSome = true)) (u : State) :
    handleQueryMemory x y u = refuse .badRequest u := by
  rcases h with ⟨rfl, rfl⟩ | ⟨hx, hy⟩
  · rfl
  · obtain ⟨d, rfl⟩ := Option.isSome_iff_exists.mp hx
    obtain ⟨k, rfl⟩ := Option.isSome_iff_exists.mp hy
    rfl

theorem handleQueryMemory_destination_outOfRange {d : Nat} (range : 2047 < d) (u : State) :
    handleQueryMemory (some d) none u = refuse .outOfRange u := if_pos range

theorem handleQueryMemory_destination {d : Nat} (range : d ≤ 2047) (u : State) :
    handleQueryMemory (some d) none u =
      ⟨u, .ok, .memoryEntry (setOf d) (tagOf d) ((entryOf u d).map (memoryView u))⟩ :=
  if_neg (Nat.not_le.mpr (Nat.lt_succ_of_le range))

theorem handleQueryMemory_set_outOfRange {k : Nat} (range : 255 < k) (u : State) :
    handleQueryMemory none (some k) u = refuse .outOfRange u := if_pos range

theorem handleQueryMemory_set {k : Nat} (range : k ≤ 255) (u : State) :
    handleQueryMemory none (some k) u =
      ⟨u, .ok, .memorySet (u.memorySet k).pointer ((u.memorySet k).ways.map (fun w => w.map (wayView k)))⟩ :=
  if_neg (Nat.not_le.mpr (Nat.lt_succ_of_le range))

theorem handleQueryCall_outOfRange {call : CallRef} (range : 8191 < call.slot) (u : State) :
    handleQueryCall call u = refuse .outOfRange u := by
  simp only [handleQueryCall, findCall_outOfRange range]

theorem handleQueryCall_noCall {call : CallRef} {u : State} (range : call.slot ≤ 8191) (absent : u.call call = none) :
    handleQueryCall call u = refuse .noCall u := by
  simp only [handleQueryCall, findCall_of_none range absent]

theorem handleQueryCall_found {call : CallRef} {u : State} {c : Call} (range : call.slot ≤ 8191)
    (found : u.call call = some c) : handleQueryCall call u = ⟨u, .ok, .call (callView u call c)⟩ := by
  simp only [handleQueryCall, findCall_of_some range found]

/-- Settles O29. -/
theorem queriesOfRoutingAndCalls : Obligations.QueriesOfRoutingAndCalls := by
  intro r n call s u
  refine ⟨fun query => ?drain, fun query => ?gap, fun query => answers_of rfl (exec_queryGap r .all s) query rfl,
    fun query => ?plan, fun x y form query => ?malformed, fun query => ?destination, fun query => ?set,
    fun query => ?call⟩
  case drain =>
    refine answers_of rfl (exec_queryDrain r s) query ?_
    simp only [handleQueryDrain, drainView, serviceShown_eq_ite, untilExpiry]
  case gap =>
    exact ⟨fun range => answers_of rfl (exec_queryGap r (.one n) s) query (handleQueryGap_outOfRange range u),
      fun range => answers_of rfl (exec_queryGap r (.one n) s) query (handleQueryGap_one range u)⟩
  case plan =>
    exact ⟨fun range => answers_of rfl (exec_queryPlan r n s) query (handleQueryPlan_outOfRange range u),
      fun range => answers_of rfl (exec_queryPlan r n s) query (handleQueryPlan_inRange range u)⟩
  case malformed => exact answers_of rfl (exec_queryRouteMemory r x y s) query (handleQueryMemory_badRequest form u)
  case destination =>
    have answer := fun {v st x} =>
      answers_of (v := v) (st := st) (x := x) rfl (exec_queryRouteMemory r (some n) none s) query
    exact ⟨fun range => answer (handleQueryMemory_destination_outOfRange range u),
      fun range => answer (handleQueryMemory_destination range u)⟩
  case set =>
    have answer := fun {v st x} =>
      answers_of (v := v) (st := st) (x := x) rfl (exec_queryRouteMemory r none (some n) s) query
    exact ⟨fun range => answer (handleQueryMemory_set_outOfRange range u),
      fun range => answer (handleQueryMemory_set range u)⟩
  case call =>
    have answer := fun {v st x} => answers_of (v := v) (st := st) (x := x) rfl (exec_queryCall r call s) query
    exact ⟨fun range => answer (handleQueryCall_outOfRange range u),
      fun range absent => answer (handleQueryCall_noCall range absent),
      fun c range found => answer (handleQueryCall_found range found)⟩

/-! ## The far-end level (R30, R31) -/

theorem exec_reportFarCongestion (r : Sender) (n level : Nat) (s : State) :
    exec (.reportFarCongestion r n level) s =
      request (.reportFarCongestion r n level) r RequestKind.reportFarCongestion.code (handleFarReport n level) s := rfl

theorem handleFarReport_refuses {n : Nat} {u : State} {st : Status}
    (h : FirstOf [(255 < n, .outOfRange), (u.group n = none, .wrongState)] st) (level : Nat) :
    handleFarReport n level u = refuse st u := by
  unfold handleFarReport
  rcases h with ⟨range, rfl⟩ | ⟨range, ⟨undefined, rfl⟩ | ⟨-, noCheck⟩⟩
  · exact if_pos range
  · rw [if_neg (mt (Config.groups_le_iff n).mp range), undefined]
    rfl
  · exact noCheck.elim

/-- R29: a far-end report of a defined group stores its level and starts or stops the timer. -/
theorem farReport_defined {s : State} {n : Nat} {g : Group} (defined : s.group n = some g) (level : Nat) :
    farReport n level s =
      s.setSvc n
        { s.svc n with
          farLevel := level
          decayExpiry := if level = 0 then none else some (s.now + g.decay * 1000) } := by
  simp only [farReport, defined]

theorem handleFarReport_defined {n : Nat} {u : State} (range : n ≤ 255) (defined : (u.group n).isSome = true)
    (level : Nat) :
    handleFarReport n level u = ⟨farReport n (clamp 0 3 level) u, okOr (outside 0 3 level), .farLevel (clamp 0 3 level)⟩ := by
  have range : ¬Config.groups ≤ n := Nat.not_le.mpr (Nat.lt_succ_of_le range)
  have defined : ¬(u.group n).isNone = true := by simpa using Option.isSome_iff_ne_none.mp defined
  simp only [handleFarReport, if_neg range, if_neg defined]

theorem expireDecay_reached {s : State} {n x : Nat} {g : Group} (defined : s.group n = some g)
    (running : (s.svc n).decayExpiry = some x) (reached : x ≤ s.now) :
    expireDecay n s = s.setSvc n (decayOnce g (s.svc n) s.now) := by
  simp only [expireDecay, defined, running, if_pos reached]

/-- R31: with no running timer that has been reached there is nothing to take. -/
theorem expireDecay_early {s : State} {n : Nat}
    (h : s.group n = none ∨ ∀ x, (s.svc n).decayExpiry = some x → s.now < x) : expireDecay n s = s := by
  unfold expireDecay
  split
  · next g x defined running =>
    rcases h with undefined | early
    · rw [undefined] at defined
      cases defined
    · exact if_neg (Nat.not_le.mpr (early x running))
  · rfl

/-- Settles O12. -/
theorem farEndLevel : Obligations.FarEndLevel := by
  refine ⟨fun r n level s u takes => ⟨fun st check => ?refused, fun g range defined => ?set⟩,
    fun s n => ⟨fun g x defined running reached => ?decays, fun idle => ?nothing⟩⟩
  case refused => exact answers_of rfl (exec_reportFarCongestion r n level s) takes (handleFarReport_refuses check level)
  case set =>
    refine answers_of rfl (exec_reportFarCongestion r n level s) takes ?_
    have stopped : (min level 3 = 0) = (level = 0) := by rw [eq_iff_iff]; omega
    rw [handleFarReport_defined range (by rw [defined]; rfl), farReport_defined defined, clamp_zero, okOr_outside_zero]
    simp only [stopped]
  case decays =>
    show Host.Outcome.next (expireDecay n s) = _
    have restarts : (if (s.svc n).farLevel - 1 = 0 then none else some (s.now + g.decay * 1000)) =
        if 1 < (s.svc n).farLevel then some (s.now + g.decay * 1000) else none := by
      rw [← ite_not]
      exact if_congr (by omega) rfl rfl
    rw [expireDecay_reached defined running reached, decayOnce, restarts]
  case nothing => exact congrArg Host.Outcome.next (expireDecay_early idle)

/-! ## The gap table (R57 to R59) -/

theorem exec_setGap (r : Sender) (d : Nat) (interval life : Option Nat) (s : State) :
    exec (.setGap r d interval life) s =
      request (.setGap r d interval life) r RequestKind.setGap.code (handleSetGap d interval life) s := rfl

theorem exec_clearGap (r : Sender) (d : Nat) (s : State) :
    exec (.clearGap r d) s = request (.clearGap r d) r RequestKind.clearGap.code (handleClearGap d) s := rfl

theorem exec_gapLifeExpiry (d : Nat) (s : State) :
    exec (.gapLifeExpiry d) s = .next (if gapLifeReached s d then s.setGap d none else s) := rfl

/-- R56: what a write of an entry makes of the number of entries. -/
theorem State.size_setGap_some {s : State} (h : s.analyser.gaps.wf = true) (d : Nat) (g : Gap) :
    (s.setGap d (some g)).analyser.gaps.size =
      if s.gap d = none then s.analyser.gaps.size + 1 else s.analyser.gaps.size := by
  have size := Table.size_set h d (some g)
  simp only [reduceCtorEq, if_false] at size
  change (s.analyser.gaps.set d (some g)).size = _
  change _ + (if s.gap d = none then 0 else 1) = _ at size
  split at size <;> simp_all

theorem clamp_one_eq {hi : Nat} (h : 1 ≤ hi) (x : Nat) : clamp 1 hi x = max 1 (min x hi) := by
  simp only [clamp]
  split
  · omega
  · split <;> omega

theorem handleSetGap_refuses {d : Nat} {interval life : Option Nat} {u : State} {st : Status}
    (h : FirstOf
      [(2047 < d, .outOfRange), (interval = none ∨ life = none, .badRequest),
        (u.gap d = none ∧ ¬u.analyser.gaps.size < 64, .tableFull)] st) :
    handleSetGap d interval life u = refuse st u := by
  unfold handleSetGap
  rcases h with ⟨range, rfl⟩ | ⟨range, ⟨form, rfl⟩ | ⟨form, ⟨⟨new, full⟩, rfl⟩ | ⟨-, noCheck⟩⟩⟩
  · exact if_pos range
  · rw [if_neg (mt (Config.destinations_le_iff d).mp range)]
    cases interval with
    | none => rfl
    | some i =>
      cases life with
      | none => rfl
      | some l => simp at form
  · rw [if_neg (mt (Config.destinations_le_iff d).mp range)]
    rw [not_or] at form
    obtain ⟨i, rfl⟩ := Option.ne_none_iff_exists'.mp form.1
    obtain ⟨l, rfl⟩ := Option.ne_none_iff_exists'.mp form.2
    exact if_pos (by rw [new]; exact decide_eq_true (Nat.not_lt.mp full))
  · exact noCheck.elim

theorem handleSetGap_sets {d : Nat} {u : State} (range : d ≤ 2047) (room : u.gap d = none → u.analyser.gaps.size < 64)
    (i l : Nat) :
    handleSetGap d (some i) (some l) u =
      ⟨u.setGap d (some (gapSet u d (clamp 1 6000 i) (clamp 0 86400 l))), okOr (outside 1 6000 i || outside 0 86400 l),
        .gapSet (u.gap d).isNone (clamp 1 6000 i) (clamp 0 86400 l)
          (u.setGap d (some (gapSet u d (clamp 1 6000 i) (clamp 0 86400 l)))).analyser.gaps.size⟩ := by
  have fits : ¬((u.gap d).isNone && decide (Config.gaps ≤ u.analyser.gaps.size)) = true := by
    rw [Bool.and_eq_true, Option.isNone_iff_eq_none, decide_eq_true_eq]
    exact fun ⟨new, full⟩ => absurd (room new) (Nat.not_lt.mpr full)
  unfold handleSetGap
  rw [if_neg (mt (Config.destinations_le_iff d).mp (Nat.not_lt.mpr range))]
  exact if_neg fits

theorem gapSet_new {s : State} {d : Nat} (h : s.gap d = none) (i l : Nat) :
    gapSet s d i l = ⟨i, l, lifeExpiryFrom s l, s.now, 0⟩ := by
  simp only [gapSet, h]

theorem gapSet_standing {s : State} {d : Nat} {g : Gap} (h : s.gap d = some g) (i l : Nat) :
    gapSet s d i l = { g with interval := i, life := l, lifeExpiry := lifeExpiryFrom s l } := by
  simp only [gapSet, h]

/-- R57: interval, life and life expiry are those of the request, whether the entry is new or stands. -/
theorem gapSet_fields (s : State) (d i l : Nat) :
    (gapSet s d i l).interval = i ∧ (gapSet s d i l).life = l ∧ (gapSet s d i l).lifeExpiry = lifeExpiryFrom s l := by
  cases h : s.gap d with
  | none => simp only [gapSet_new h, and_self]
  | some g => simp only [gapSet_standing h, and_self]

theorem handleClearGap_outOfRange {d : Nat} (range : 2047 < d) (u : State) :
    handleClearGap d u = refuse .outOfRange u := if_pos range

theorem handleClearGap_clears {d : Nat} (range : d ≤ 2047) (u : State) :
    handleClearGap d u = ⟨u.setGap d none, .ok, .gapCleared ((u.gap d).map (·.refused))⟩ :=
  if_neg (Nat.not_le.mpr (Nat.lt_succ_of_le range))

theorem gapLifeReached_iff (s : State) (d : Nat) :
    gapLifeReached s d = true ↔ ∃ g x, s.gap d = some g ∧ g.lifeExpiry = some x ∧ x ≤ s.now := by
  unfold gapLifeReached
  cases hg : s.gap d with
  | none => simp
  | some g => cases hx : g.lifeExpiry <;> simp [hx]

/-- Settles O22. -/
theorem gapTable : Obligations.GapTable := by
  rintro r d k interval life s u sound rfl
  refine ⟨fun takes => ⟨fun st check => ?refused, ?set⟩, fun takes => ⟨fun range => ?clearRange, fun range => ?clear⟩,
    fun g x standing life reached => ?expires, fun early => ?nothing⟩
  case refused => exact answers_of rfl (exec_setGap r d interval life s) takes (handleSetGap_refuses check)
  case set =>
    rintro i l range rfl rfl room
    have canonical : u.analyser.gaps.wf = true := (takes_analyser takes).symm ▸ sound.2.2.1
    obtain ⟨hi, hl, hx⟩ := gapSet_fields u d (clamp 1 6000 i) (clamp 0 86400 l)
    refine ⟨_, gapSet u d (clamp 1 6000 i) (clamp 0 86400 l), ?_, ?_, State.gap_setGap_same _ _ _, ?_, ?_, ?_,
      fun new => ?_, fun old stands => ?_, fun e other => State.gap_setGap_other u d e _ other⟩
    · have adjusted : okOr (outside 1 6000 i || outside 0 86400 l) =
          if i < 1 ∨ 6000 < i ∨ 86400 < l then .adjusted else .ok := by
        simp only [okOr, outside, Bool.or_eq_true, decide_eq_true_eq, or_assoc, Nat.not_lt_zero, false_or]
      refine answers_of rfl (exec_setGap r d (some i) (some l) s) takes ?_
      rw [handleSetGap_sets range room, State.size_setGap_some canonical, adjusted, clamp_one_eq (by decide), clamp_zero]
    · rfl
    · rw [hi, clamp_one_eq (by decide)]
    · rw [hl, clamp_zero]
    · rw [hx, clamp_zero, lifeExpiryFrom]
      exact if_congr (by omega) rfl rfl
    · rw [gapSet_new new]
      exact ⟨rfl, rfl⟩
    · rw [gapSet_standing stands]
      exact ⟨rfl, rfl⟩
  case clearRange => exact answers_of rfl (exec_clearGap r d s) takes (handleClearGap_outOfRange range u)
  case clear =>
    exact ⟨u.setGap d none, answers_of rfl (exec_clearGap r d s) takes (handleClearGap_clears range u), rfl,
      State.gap_setGap_same u d none, fun e other => State.gap_setGap_other u d e none other⟩
  case expires =>
    refine ⟨s.setGap d none, ?_, rfl, State.gap_setGap_same s d none, fun e other => State.gap_setGap_other s d e none other⟩
    rw [exec_gapLifeExpiry, if_pos ((gapLifeReached_iff s d).mpr ⟨g, x, standing, life, reached⟩)]
  case nothing =>
    rw [exec_gapLifeExpiry, if_neg]
    rintro due
    obtain ⟨g, x, standing, life, reached⟩ := (gapLifeReached_iff s d).mp due
    exact absurd (early g x standing life) (Nat.not_lt.mpr reached)

end Sys2Proof.Machine
end

section
/-! The tariff store: the clocks (R129 to R131, R142), the staging requests (R137 to R141, R145, R146), and the queries of the
tariff store, the settlement unit and the device (R147, R176, R178, R194). -/

namespace Sys2Proof.Machine

/-! ## The tick (R129, R130, R181) -/

/-- R129: past the full count the monotonic time is a free 48-bit value. -/
theorem nextMonotonic_lt (s : State) : nextMonotonic s < 281474976710656 := by
  unfold nextMonotonic
  split
  · next room => exact room
  · exact (Config.timeAfterFull s.freeDrawn).isLt

theorem tickPort_eq_ite (line : Bool) (r : PortRecord) :
    tickPort line r = if r.state = .down ∨ line = true then r else { r with silence := r.silence + 1 } := by
  cases line with
  | true => simp [tickPort]
  | false => cases h : r.state <;> simp [tickPort, h]

theorem tickStaging_eq (t : Staging) :
    tickStaging t =
      { t with advance := if t.state = .scheduled then t.advance.map (fun a => a - 1) else t.advance } := by
  unfold tickStaging
  split <;> rfl

/-! ## SET_CLOCK (R131, R142) -/

theorem exec_setClock (r : Sender) (d ms : Option Nat) (s : State) :
    exec (.setClock r d ms) s = request (.setClock r d ms) r RequestKind.setClock.code (handleSetClock d ms) s := rfl

theorem handleSetClock_badRequest {d ms : Option Nat} (h : d = none ∨ ms = none) (u : State) :
    handleSetClock d ms u = refuse .badRequest u := by
  rcases h with rfl | rfl
  · rfl
  · cases d <;> rfl

theorem handleSetClock_outOfRange {x y : Nat} (h : 6 < x ∨ 86399999 < y) (u : State) :
    handleSetClock (some x) (some y) u = refuse .outOfRange u := if_pos h

theorem handleSetClock_sets {x y : Nat} (hx : x ≤ 6) (hy : y ≤ 86399999) (u : State) :
    handleSetClock (some x) (some y) u =
      ⟨setWeekClock (x * 86400000 + y) u, .ok, .clock u.tariff.weekTime (x * 86400000 + y)⟩ := by
  have range : ¬(7 ≤ x ∨ Config.day ≤ y) := by
    show ¬(7 ≤ x ∨ 86400000 ≤ y)
    omega
  exact if_neg range

theorem setWeekClock_unscheduled {s : State} (h : s.tariff.staging.state ≠ .scheduled) (w : Nat) :
    setWeekClock w s = withWeekTime w s := by
  simp only [setWeekClock]
  split
  · next scheduled _ _ _ => exact absurd scheduled h
  · rfl

theorem setWeekClock_due {s : State} {old target : Nat} (state : s.tariff.staging.state = .scheduled)
    (week : s.tariff.weekTime = some old) (aim : s.tariff.staging.target = some target)
    (advance : s.tariff.staging.advance = some 0) (w : Nat) : setWeekClock w s = withWeekTime w (takeDue s) := by
  simp only [setWeekClock, state, week, aim, advance, if_true]

/-- R142: a jump with advance left settles the activation by its forward distance. -/
theorem setWeekClock_jump {s : State} {old target a : Nat} (state : s.tariff.staging.state = .scheduled)
    (week : s.tariff.weekTime = some old) (aim : s.tariff.staging.target = some target)
    (advance : s.tariff.staging.advance = some a) (left : 0 < a) (w : Nat) :
    setWeekClock w s =
      (afterJump old w target a).elim (takeDue (withWeekTime w s))
        (fun x => (withWeekTime w s).setStaging { s.tariff.staging with advance := some x }) := by
  simp only [setWeekClock, state, week, aim, advance, if_neg left.ne']
  cases afterJump old w target a <;> rfl

theorem afterJump_eq (old new target advance : Nat) :
    afterJump old new target advance =
      if (new + 604800000 - old) % 604800000 = 0 then some advance
      else if (new + 604800000 - old) % 604800000 < 302400000 then
        if advance ≤ (new + 604800000 - old) % 604800000 then none
        else some (advance - (new + 604800000 - old) % 604800000)
      else if new = target then none
      else some ((target + 604800000 - new) % 604800000) := rfl

/-- Settles O39. -/
theorem clocks : Obligations.Clocks := by
  refine ⟨fun s => ?tick, fun r d ms s u takes => ⟨fun missing => ?malformed, ?given⟩⟩
  case tick =>
    refine ⟨_, rfl, fun room => ⟨if_pos room, ?_⟩, fun _ => nextMonotonic_lt s, ?_, fun p => ?_, rfl⟩
    · exact congrArg (s.freeDrawn + ·) (if_pos room)
    · exact congrArg (fun t => { s.tariff with
        monotonic := nextMonotonic s, weekTime := s.tariff.weekTime.map nextWeekTime, staging := t })
        (tickStaging_eq s.tariff.staging)
    · cases p <;> exact tickPort_eq_ite s.resetLine _
  case malformed => exact answers_of rfl (exec_setClock r d ms s) takes (handleSetClock_badRequest missing u)
  case given =>
    rintro x y rfl rfl
    refine ⟨fun range => answers_of rfl (exec_setClock r _ _ s) takes (handleSetClock_outOfRange range u), fun hx hy => ?_⟩
    rintro n w rfl rfl
    have answer : ∀ v, setWeekClock (x * 86400000 + y) u = v →
        Answers (.setClock r (some x) (some y)) s .ok (.clock u.tariff.weekTime (x * 86400000 + y)) v :=
      fun v hv => answers_of rfl (exec_setClock r _ _ s) takes (by rw [handleSetClock_sets hx hy, hv])
    refine ⟨fun state => answer _ (setWeekClock_unscheduled state _), fun old target state week aim advance => ?_,
      fun old target a f state week aim advance left hf => ?_⟩
    · exact week ▸ answer _ (setWeekClock_due state week aim advance _)
    · refine week ▸ answer _ ?_
      rw [setWeekClock_jump state week aim advance left, afterJump_eq, ← hf]
      split_ifs
      · rw [Option.elim_some, ← advance]
        rfl
      all_goals rfl

/-! ## STAGE_OPEN, STAGE_ABORT and the loss of the holder (R137, R145, R146) -/

theorem exec_stageOpen (r : Sender) (s : State) :
    exec (.stageOpen r) s = request (.stageOpen r) r RequestKind.stageOpen.code (handleStageOpen r.port) s := rfl

theorem exec_stageAbort (r : Sender) (s : State) :
    exec (.stageAbort r) s = request (.stageAbort r) r RequestKind.stageAbort.code (handleStageAbort r.port) s := rfl

theorem handleStageAbort_refuses {p : Port} {u : State} {st : Status}
    (h : FirstOf
      [(u.tariff.staging.state = .none, .wrongState),
        (u.tariff.staging.holder ≠ none ∧ u.tariff.staging.holder ≠ some p, .notStageHolder)] st) :
    handleStageAbort p u = refuse st u := by
  unfold handleStageAbort
  rcases h with ⟨empty, rfl⟩ | ⟨full, ⟨other, rfl⟩ | ⟨-, noCheck⟩⟩
  · exact if_pos empty
  · rw [if_neg full]
    exact if_pos other
  · exact noCheck.elim

theorem handleStageAbort_aborts {p : Port} {u : State} (full : u.tariff.staging.state ≠ .none)
    (mine : u.tariff.staging.holder = none ∨ u.tariff.staging.holder = some p) :
    handleStageAbort p u =
      ⟨u.setStaging .empty, .ok, .aborted u.tariff.staging.state (u.tariff.staging.generation.map (·.number))⟩ := by
  unfold handleStageAbort
  rw [if_neg full]
  exact if_neg (by tauto)

theorem loseHolder_eq_ite (p : Port) (t : Staging) :
    loseHolder p t =
      if t.holder ≠ some p then t
      else if t.state = .scheduled ∨ t.state = .held then { t with holder := none }
      else .empty := by
  unfold loseHolder
  by_cases mine : t.holder = some p
  · rw [if_pos mine, if_neg (not_not.mpr mine)]
    cases h : t.state <;> simp
  · rw [if_neg mine, if_pos mine]

/-- Settles O40. -/
theorem stageOpenAbortAndLoss : Obligations.StageOpenAbortAndLoss := by
  intro r p s u
  refine ⟨fun takes => ⟨fun empty => ?_, fun full => ?_⟩, fun takes => ⟨fun st check => ?_, fun full mine => ?_⟩,
    fun absent => congrArg Host.Outcome.next (if_neg absent), fun lost => ?_⟩
  · exact answers_of rfl (exec_stageOpen r s) takes (if_pos empty)
  · exact answers_of rfl (exec_stageOpen r s) takes (if_neg full)
  · exact answers_of rfl (exec_stageAbort r s) takes (handleStageAbort_refuses check)
  · exact answers_of rfl (exec_stageAbort r s) takes (handleStageAbort_aborts full mine)
  · refine (congrArg Host.Outcome.next (if_pos lost)).trans ?_
    rw [loseHolder_eq_ite]
    rfl

/-! ## The checks of a writing request (R138) -/

/-- R138: the two checks of every writing request, in their order. -/
def writeChecks (u : State) (p : Port) : List (Prop × Status) :=
  [(u.tariff.staging.state = .none ∨ u.tariff.staging.holder ≠ some p, .notStageHolder),
    (u.tariff.staging.state ≠ .opened, .activationPending)]

theorem writeRefusal_of_firstOf {u : State} {p : Port} {st : Status} (h : FirstOf (writeChecks u p) st) :
    writeRefusal u p = some st := by
  unfold writeRefusal
  rcases h with ⟨other, rfl⟩ | ⟨mine, ⟨pending, rfl⟩ | ⟨-, noCheck⟩⟩
  · exact if_pos other
  · rw [if_neg mine, if_pos pending]
  · exact noCheck.elim

theorem writeRefusal_of_allPass {u : State} {p : Port} (h : AllPass (writeChecks u p)) : writeRefusal u p = none := by
  have mine := h _ List.mem_cons_self
  have opened := h _ (List.mem_cons_of_mem _ List.mem_cons_self)
  rw [writeRefusal, if_neg mine, if_neg opened]

theorem stagedTariffs_of_some {u : State} {g : StagedGeneration} (h : u.tariff.staging.generation = some g) :
    stagedTariffs u = g.tariffs := by
  simp only [stagedTariffs, h]

theorem changeStaged_of_some {u : State} {g : StagedGeneration} (h : u.tariff.staging.generation = some g)
    (f : Tariffs → Tariffs) :
    changeStaged f u = u.setStaging { u.tariff.staging with generation := some ⟨g.number, f g.tariffs⟩ } := by
  simp only [changeStaged, h, Option.map_some]

/-! ## STAGE_WRITE_TARIFF and STAGE_WRITE_MARGIN (R139) -/

theorem exec_stageWriteTariff (r : Sender) (c k : Nat) (f : TariffFields) (s : State) :
    exec (.stageWriteTariff r c k f) s =
      request (.stageWriteTariff r c k f) r RequestKind.stageWriteTariff.code (handleWriteTariff r.port c k f) s := rfl

theorem exec_stageWriteMargin (r : Sender) (c : Nat) (margin : Option Nat) (s : State) :
    exec (.stageWriteMargin r c margin) s =
      request (.stageWriteMargin r c margin) r RequestKind.stageWriteMargin.code (handleWriteMargin r.port c margin) s :=
  rfl

theorem handleWriteTariff_refuses {p : Port} {c k : Nat} {f : TariffFields} {u : State} {st : Status}
    (h : FirstOf ([(63 < c ∨ 7 < k, .outOfRange), (f.any = false, .badRequest)] ++ writeChecks u p) st) :
    handleWriteTariff p c k f u = refuse st u := by
  unfold handleWriteTariff
  rcases h with ⟨range, rfl⟩ | ⟨range, ⟨empty, rfl⟩ | ⟨fields, checks⟩⟩
  · exact if_pos range
  · rw [if_neg (show ¬(Config.carriers ≤ c ∨ Config.tariffClasses ≤ k) from range), empty]
    rfl
  · rw [if_neg (show ¬(Config.carriers ≤ c ∨ Config.tariffClasses ≤ k) from range),
      if_neg (by simpa using fields), writeRefusal_of_firstOf checks]

theorem handleWriteTariff_writes {p : Port} {c k : Nat} {f : TariffFields} {u : State} {g : StagedGeneration}
    (staged : u.tariff.staging.generation = some g) (hc : c ≤ 63) (hk : k ≤ 7) (fields : f.any = true)
    (pass : AllPass (writeChecks u p)) :
    handleWriteTariff p c k f u =
      ⟨u.setStaging
          { u.tariff.staging with
            generation :=
              some
                ⟨g.number,
                  { g.tariffs with
                    entries := g.tariffs.entries.set (entryKey c k) (applyFields f (g.tariffs.entry c k)) }⟩ },
        okOr (fieldsClamped f), .tariffEntry (applyFields f (g.tariffs.entry c k))⟩ := by
  have range : ¬(Config.carriers ≤ c ∨ Config.tariffClasses ≤ k) := by
    show ¬(64 ≤ c ∨ 8 ≤ k)
    omega
  simp only [handleWriteTariff, if_neg range, fields, Bool.not_true, Bool.false_eq_true, if_false,
    writeRefusal_of_allPass pass, stagedTariffs_of_some staged, changeStaged_of_some staged]

/-- R132: different carriers and classes have different entries. -/
theorem entryKey_ne {c k x y : Nat} (hk : k ≤ 7) (hy : y ≤ 7) (other : ¬(x = c ∧ y = k)) :
    entryKey x y ≠ entryKey c k := by
  show x * 8 + y ≠ c * 8 + k
  omega

theorem handleWriteMargin_refuses {p : Port} {c : Nat} {margin : Option Nat} {u : State} {st : Status}
    (h : FirstOf ([(63 < c, .outOfRange), (margin = none, .badRequest)] ++ writeChecks u p) st) :
    handleWriteMargin p c margin u = refuse st u := by
  unfold handleWriteMargin
  rcases h with ⟨range, rfl⟩ | ⟨range, ⟨rfl, rfl⟩ | ⟨present, checks⟩⟩
  · exact if_pos range
  · exact if_neg range
  · obtain ⟨m, rfl⟩ := Option.ne_none_iff_exists'.mp present
    rw [if_neg (show ¬Config.carriers ≤ c from range), writeRefusal_of_firstOf checks]

theorem handleWriteMargin_writes {p : Port} {c : Nat} {u : State} {g : StagedGeneration}
    (staged : u.tariff.staging.generation = some g) (hc : c ≤ 63) (pass : AllPass (writeChecks u p)) (m : Nat) :
    handleWriteMargin p c (some m) u =
      ⟨u.setStaging
          { u.tariff.staging with
            generation := some ⟨g.number, { g.tariffs with margins := g.tariffs.margins.set c (clamp 0 2000 m) }⟩ },
        okOr (outside 0 2000 m), .margin (clamp 0 2000 m)⟩ := by
  have range : ¬Config.carriers ≤ c := Nat.not_le.mpr (Nat.lt_succ_of_le hc)
  simp only [handleWriteMargin, if_neg range, writeRefusal_of_allPass pass, changeStaged_of_some staged]

/-! ## STAGE_WRITE_SCHEDULE and STAGE_WRITE_WEEK (R140) -/

theorem exec_stageWriteSchedule (r : Sender) (day : Arg DayType) (first : Nat) (bands : List (Arg Band)) (s : State) :
    exec (.stageWriteSchedule r day first bands) s =
      request (.stageWriteSchedule r day first bands) r RequestKind.stageWriteSchedule.code
        (handleWriteSchedule r.port day first bands) s := rfl

theorem exec_stageWriteWeek (r : Sender) (days : List (Nat × Arg DayType)) (s : State) :
    exec (.stageWriteWeek r days) s =
      request (.stageWriteWeek r days) r RequestKind.stageWriteWeek.code (handleWriteWeek r.port days) s := rfl

/-- A list is read whole, or some item of it cannot be read. -/
theorem readAll_cases {α β : Type} (f : α → Option β) (xs : List α) :
    (readAll f xs = none ∧ ∃ x ∈ xs, f x = none) ∨ ∃ ys, readAll f xs = some ys ∧ xs.map f = ys.map some := by
  cases h : readAll f xs with
  | some ys => exact .inr ⟨ys, rfl, (readAll_eq_some_iff f xs ys).mp h⟩
  | none =>
    refine .inl ⟨rfl, ?_⟩
    by_contra all
    push Not at all
    have whole : xs.map f = (xs.filterMap f).map some := by
      clear h
      induction xs with
      | nil => rfl
      | cons x xs ih =>
        obtain ⟨y, hy⟩ := Option.ne_none_iff_exists'.mp (all x List.mem_cons_self)
        simp [hy, ih fun z hz => all z (List.mem_cons_of_mem x hz)]
    rw [(readAll_eq_some_iff f xs _).mpr whole] at h
    cases h

theorem length_of_map_eq {α β γ : Type} {f : α → γ} {g : β → γ} {xs : List α} {ys : List β}
    (h : xs.map f = ys.map g) : xs.length = ys.length := by
  simpa using congrArg List.length h

theorem all_read_of_map_eq {α β : Type} {f : α → Option β} {xs : List α} {ys : List β} (h : xs.map f = ys.map some) :
    ¬∃ x ∈ xs, f x = none := by
  rintro ⟨x, hx, unread⟩
  have listed : f x ∈ ys.map some := h ▸ List.mem_map_of_mem hx
  simp [unread] at listed

theorem handleWriteSchedule_refuses {p : Port} {day : Arg DayType} {first : Nat} {bands : List (Arg Band)} {u : State}
    {st : Status}
    (h : FirstOf
      ([(day.value? = none ∨ bands.length < 1 ∨ 48 < bands.length ∨ ∃ b ∈ bands, b.value? = none, .badRequest),
        (47 < first ∨ 48 < first + bands.length, .outOfRange)] ++ writeChecks u p) st) :
    handleWriteSchedule p day first bands u = refuse st u := by
  unfold handleWriteSchedule
  cases hd : day.value? with
  | none =>
    rcases h with ⟨-, rfl⟩ | ⟨form, -⟩
    · rfl
    · exact absurd (.inl hd) form
  | some d =>
    rcases readAll_cases Arg.value? bands with ⟨unread, some_bad⟩ | ⟨bs, read, whole⟩
    · rw [unread]
      rcases h with ⟨-, rfl⟩ | ⟨form, -⟩
      · rfl
      · exact absurd (.inr (.inr (.inr some_bad))) form
    · have count := length_of_map_eq whole
      have good := all_read_of_map_eq whole
      rw [hd, count] at h
      simp only [read]
      rcases h with ⟨form, rfl⟩ | ⟨form, ⟨range, rfl⟩ | ⟨range, checks⟩⟩
      · refine if_pos ?_
        rcases form with bad | few | many | bad
        · cases bad
        · omega
        · exact .inr many
        · exact absurd bad good
      · rw [if_neg (by omega), if_pos (show 48 ≤ first ∨ 48 < first + bs.length from range)]
      · rw [if_neg (by omega), if_neg (show ¬(48 ≤ first ∨ 48 < first + bs.length) from range)]
        simp only [writeRefusal_of_firstOf checks]

theorem handleWriteSchedule_writes {p : Port} {d : DayType} {first : Nat} {bs : List Band} {u : State}
    {g : StagedGeneration} (staged : u.tariff.staging.generation = some g) (least : 1 ≤ bs.length) (start : first ≤ 47)
    (most : first + bs.length ≤ 48) (pass : AllPass (writeChecks u p)) :
    handleWriteSchedule p (.given d) first (bs.map .given) u =
      ⟨u.setStaging
          { u.tariff.staging with
            generation := some ⟨g.number, g.tariffs.setSchedule d (writeBands (g.tariffs.schedule d) first bs)⟩ },
        .ok, .schedule (bandsOf (writeBands (g.tariffs.schedule d) first bs))⟩ := by
  have read : readAll Arg.value? (bs.map .given) = some bs := by
    rw [readAll_eq_some_iff, List.map_map]
    rfl
  have count : ¬(bs.length = 0 ∨ 48 < bs.length) := by omega
  have range : ¬(48 ≤ first ∨ 48 < first + bs.length) := by omega
  simp only [handleWriteSchedule, read, Arg.value?, if_neg count, if_neg range, writeRefusal_of_allPass pass,
    stagedTariffs_of_some staged, changeStaged_of_some staged]

/-- R140: the slots from the first on take the bands in their order, the others stay. -/
theorem writeBands_get (t : Table Band .band0) (first : Nat) (bs : List Band) (i : Nat) :
    (writeBands t first bs).get i = if first ≤ i then (bs[i - first]?).getD (t.get i) else t.get i := by
  induction bs generalizing t first with
  | nil => simp [writeBands]
  | cons b bs ih =>
    rw [writeBands, ih, Table.get_set]
    rcases Nat.lt_trichotomy i first with below | rfl | above
    · rw [if_neg (by omega), if_neg (by omega), if_neg (by omega)]
    · simp
    · have next : i - first = i - (first + 1) + 1 := by omega
      rw [if_pos (show first + 1 ≤ i from above), if_pos above.le, if_neg above.ne', next, List.getElem?_cons_succ]

@[simp] theorem Tariffs.setSchedule_schedule_same (t : Tariffs) (d : DayType) (v : Table Band .band0) :
    (t.setSchedule d v).schedule d = v := by
  cases d <;> rfl

theorem Tariffs.setSchedule_schedule_other (t : Tariffs) {d x : DayType} (v : Table Band .band0) (h : x ≠ d) :
    (t.setSchedule d v).schedule x = t.schedule x := by
  cases d <;> cases x <;> simp_all [Tariffs.schedule, Tariffs.setSchedule]

theorem Tariffs.setSchedule_rest (t : Tariffs) (d : DayType) (v : Table Band .band0) :
    (t.setSchedule d v).entries = t.entries ∧ (t.setSchedule d v).margins = t.margins ∧
      (t.setSchedule d v).weekMap = t.weekMap := by
  cases d <;> exact ⟨rfl, rfl, rfl⟩

theorem readDay_map_fst {days : List (Nat × Arg DayType)} {ds : List (Nat × DayType)}
    (h : days.map readDay = ds.map some) : days.map Prod.fst = ds.map Prod.fst := by
  induction days generalizing ds with
  | nil =>
    cases ds with
    | nil => rfl
    | cons y ys => simp at h
  | cons x xs ih =>
    cases ds with
    | nil => simp at h
    | cons y ys =>
      simp only [List.map_cons, List.cons.injEq, readDay, Option.map_eq_some_iff] at h
      obtain ⟨⟨v, -, rfl⟩, rest⟩ := h
      simp [ih rest]

theorem readDay_eq_none_iff (x : Nat × Arg DayType) : readDay x = none ↔ x.2.value? = none := by
  simp [readDay]

/-- A check on the days named reads the same of the request and of what is read from it. -/
theorem exists_day_iff {days : List (Nat × Arg DayType)} {ds : List (Nat × DayType)} (p : Nat → Prop)
    (h : days.map Prod.fst = ds.map Prod.fst) : (∃ x ∈ days, p x.1) ↔ ∃ x ∈ ds, p x.1 := by
  have key : (∃ n ∈ days.map Prod.fst, p n) ↔ ∃ n ∈ ds.map Prod.fst, p n := by rw [h]
  simpa only [List.mem_map, exists_exists_and_eq_and] using key

theorem handleWriteWeek_refuses {p : Port} {days : List (Nat × Arg DayType)} {u : State} {st : Status}
    (h : FirstOf
      ([(days.length < 1 ∨ 7 < days.length ∨ ¬(days.map Prod.fst).Nodup ∨ ∃ x ∈ days, x.2.value? = none, .badRequest),
        (∃ x ∈ days, 6 < x.1, .outOfRange)] ++ writeChecks u p) st) :
    handleWriteWeek p days u = refuse st u := by
  unfold handleWriteWeek
  simp only [← readDay_eq_none_iff] at h
  rcases readAll_cases readDay days with ⟨unread, some_bad⟩ | ⟨ds, read, whole⟩
  · simp only [unread]
    rcases h with ⟨-, rfl⟩ | ⟨form, -⟩
    · rfl
    · exact absurd (.inr (.inr (.inr some_bad))) form
  · have count := length_of_map_eq whole
    have good := all_read_of_map_eq whole
    have names := readDay_map_fst whole
    have late : (ds.any fun x => decide (7 ≤ x.1)) = true ↔ ∃ x ∈ days, 6 < x.1 := by
      rw [exists_day_iff (6 < ·) names]
      simp [Nat.succ_le_iff]
    rw [names, count] at h
    simp only [read]
    rcases h with ⟨form, rfl⟩ | ⟨form, ⟨range, rfl⟩ | ⟨range, checks⟩⟩
    · refine if_pos ?_
      rcases form with few | many | twice | bad
      · omega
      · exact .inr (.inl many)
      · exact .inr (.inr (by simpa [← noRepeat_iff] using twice))
      · exact absurd bad good
    all_goals
      have counted : ¬(ds.length = 0 ∨ 7 < ds.length ∨ noRepeat (ds.map Prod.fst) = false) := by
        rw [← Bool.not_eq_true, noRepeat_iff]
        rintro (few | many | twice)
        · omega
        · omega
        · exact form (.inr (.inr (.inl twice)))
      rw [if_neg counted]
    · rw [if_pos (late.mpr range)]
    · rw [if_neg (mt late.mp range), writeRefusal_of_firstOf checks]

theorem handleWriteWeek_writes {p : Port} {ds : List (Nat × DayType)} {u : State} {g : StagedGeneration}
    (staged : u.tariff.staging.generation = some g) (least : 1 ≤ ds.length) (most : ds.length ≤ 7)
    (once : (ds.map Prod.fst).Nodup) (range : ∀ x ∈ ds, x.1 ≤ 6) (pass : AllPass (writeChecks u p)) :
    handleWriteWeek p (ds.map (fun x => (x.1, .given x.2))) u =
      ⟨u.setStaging
          { u.tariff.staging with
            generation := some ⟨g.number, { g.tariffs with weekMap := writeDays g.tariffs.weekMap ds }⟩ },
        .ok, .weekMap (daysOf (writeDays g.tariffs.weekMap ds))⟩ := by
  have read : readAll readDay (ds.map (fun x => (x.1, .given x.2))) = some ds := by
    rw [readAll_eq_some_iff, List.map_map]
    rfl
  have counted : ¬(ds.length = 0 ∨ 7 < ds.length ∨ noRepeat (ds.map Prod.fst) = false) := by
    rw [← Bool.not_eq_true, noRepeat_iff]
    rintro (few | many | twice)
    · omega
    · omega
    · exact twice once
  have early : ¬(ds.any fun x => decide (7 ≤ x.1)) = true := by
    simp only [List.any_eq_true, decide_eq_true_eq, not_exists, not_and]
    exact fun x hx => by have := range x hx; omega
  simp only [handleWriteWeek, read, if_neg counted, if_neg early, writeRefusal_of_allPass pass,
    stagedTariffs_of_some staged, changeStaged_of_some staged]

/-- R140: a day that is not named keeps its type. -/
theorem writeDays_get_other (t : Table DayType .workday) {ds : List (Nat × DayType)} {d : Nat}
    (h : d ∉ ds.map Prod.fst) : (writeDays t ds).get d = t.get d := by
  induction ds generalizing t with
  | nil => rfl
  | cons x ds ih =>
    obtain ⟨head, rest⟩ := not_or.mp (mt List.mem_cons.mpr h)
    rw [writeDays, ih _ rest, Table.get_set_other _ _ _ _ head]

theorem writeDays_get_of_mem (t : Table DayType .workday) {ds : List (Nat × DayType)} (once : (ds.map Prod.fst).Nodup)
    {x : Nat × DayType} (h : x ∈ ds) : (writeDays t ds).get x.1 = x.2 := by
  induction ds generalizing t with
  | nil => cases h
  | cons y ds ih =>
    obtain ⟨apart, once⟩ := List.nodup_cons.mp once
    rcases List.mem_cons.mp h with rfl | h
    · rw [writeDays, writeDays_get_other _ apart, Table.get_set_same]
    · exact ih _ once h

/-- Settles O41. -/
theorem stagingWrites : Obligations.StagingWrites := by
  rintro r s u mine rfl
  refine ⟨fun c k f takes => ⟨fun st check => ?tariffRefused, ?tariff⟩,
    fun c margin takes => ⟨fun st check => ?marginRefused, ?margin⟩,
    fun day first bands takes => ⟨fun st check => ?scheduleRefused, ?schedule⟩,
    fun days takes => ⟨fun st check => ?weekRefused, ?week⟩⟩
  case tariffRefused => exact answers_of rfl (exec_stageWriteTariff r c k f s) takes (handleWriteTariff_refuses check)
  case marginRefused => exact answers_of rfl (exec_stageWriteMargin r c margin s) takes (handleWriteMargin_refuses check)
  case scheduleRefused =>
    exact answers_of rfl (exec_stageWriteSchedule r day first bands s) takes (handleWriteSchedule_refuses check)
  case weekRefused => exact answers_of rfl (exec_stageWriteWeek r days s) takes (handleWriteWeek_refuses check)
  case tariff =>
    rintro g old e staged hc hk fields pass rfl rfl
    exact ⟨_, answers_of rfl (exec_stageWriteTariff r c k f s) takes (handleWriteTariff_writes staged hc hk fields pass),
      rfl, Table.get_set_same _ _ _, fun x y hy other => Table.get_set_other _ _ _ _ (entryKey_ne hk hy other)⟩
  case margin =>
    rintro g m staged hc rfl pass
    refine ⟨{ g.tariffs with margins := g.tariffs.margins.set c (clamp 0 2000 m) }, ?_, rfl, ?_,
      fun x other => Table.get_set_other _ _ _ _ other⟩
    · refine answers_of rfl (exec_stageWriteMargin r c (some m) s) takes ?_
      rw [handleWriteMargin_writes staged hc pass, okOr_outside_zero, clamp_zero]
    · rw [Table.get_set_same, clamp_zero]
  case schedule =>
    rintro g d bs staged rfl rfl least start most pass
    obtain ⟨entries, margins, week⟩ := g.tariffs.setSchedule_rest d (writeBands (g.tariffs.schedule d) first bs)
    refine ⟨g.tariffs.setSchedule d (writeBands (g.tariffs.schedule d) first bs), ?_, entries, margins, week,
      fun x other => g.tariffs.setSchedule_schedule_other _ other, fun i b hb => ?_, fun i out => ?_⟩
    · refine answers_of rfl (exec_stageWriteSchedule r _ first _ s) takes ?_
      rw [handleWriteSchedule_writes staged least start most pass, Tariffs.setSchedule_schedule_same]
      rfl
    · rw [Tariffs.setSchedule_schedule_same, writeBands_get, if_pos (Nat.le_add_right first i), Nat.add_sub_cancel_left,
        hb, Option.getD_some]
    · rw [Tariffs.setSchedule_schedule_same, writeBands_get]
      rcases out with below | above
      · rw [if_neg (by omega)]
      · rw [if_pos (by omega), List.getElem?_eq_none (by omega), Option.getD_none]
  case week =>
    rintro g ds staged rfl least most once range pass
    exact ⟨{ g.tariffs with weekMap := writeDays g.tariffs.weekMap ds },
      answers_of rfl (exec_stageWriteWeek r _ s) takes (handleWriteWeek_writes staged least most once range pass), rfl,
      fun x hx => writeDays_get_of_mem _ once hx, fun d other => writeDays_get_other _ other⟩

end Sys2Proof.Machine
end

section
/-! The activation of a staged generation (R141 to R144), the band split (R130, R154 to R156), and the queries of the tariff
store, the settlement unit and the device (R147, R176, R178, R194). -/

namespace Sys2Proof.Machine

/-! ## What a due activation does (R143, R144) -/

/-- R143: the store with the staged generation live, the live one retired and the staging record empty, and the route memory
flushed, before the ports are told. -/
def activated (g : StagedGeneration) (s : State) : State :=
  invalidateAll
    { s with
      tariff := { s.tariff with retired := some s.tariff.live, live := ⟨g.number, 0, g.tariffs⟩, staging := .empty } }

theorem activate_of_some {s : State} {g : StagedGeneration} (h : s.tariff.staging.generation = some g) (held : Bool) :
    activate held s =
      notifyAllUp (.tariffActive g.number s.tariff.live.number s.tariff.live.references held) (activated g s) := by
  simp only [activate, h]
  rfl

theorem activated_eq (g : StagedGeneration) (s : State) :
    activated g s =
      { s with
        tariff := { s.tariff with retired := some s.tariff.live, live := ⟨g.number, 0, g.tariffs⟩, staging := .empty }
        memory := (activated g s).memory } := rfl

theorem retiredReferences_eq_zero {s : State} (h : ∀ b, s.tariff.retired = some b → b.references = 0) :
    retiredReferences s = 0 := by
  unfold retiredReferences
  split
  · next b retired => exact h b retired
  · rfl

theorem retiredReferences_of_some {s : State} {b : BankRecord} (h : s.tariff.retired = some b) :
    retiredReferences s = b.references := by
  simp only [retiredReferences, h]

theorem retiredNumber_of_some {s : State} {b : BankRecord} (h : s.tariff.retired = some b) : retiredNumber s = b.number := by
  simp only [retiredNumber, h]

theorem stagedNumber_of_some {s : State} {g : StagedGeneration} (h : s.tariff.staging.generation = some g) :
    stagedNumber s = g.number := by
  simp only [stagedNumber, h]

theorem takeDue_activates {s : State} (h : ∀ b, s.tariff.retired = some b → b.references = 0) :
    takeDue s = activate false s := if_pos (retiredReferences_eq_zero h)

theorem takeDue_holds {s : State} {b : BankRecord} (retired : s.tariff.retired = some b) (bound : b.references ≠ 0) :
    takeDue s = hold s := if_neg (by rwa [retiredReferences_of_some retired])

/-- R143: the staging record of a held activation. -/
def heldStaging (s : State) : State :=
  s.setStaging { s.tariff.staging with state := .held, target := none, advance := none }

theorem hold_of_none {s : State} (h : s.tariff.staging.holder = none) : hold s = heldStaging s := by
  simp only [hold, heldStaging, h]

theorem hold_of_some {s : State} {p : Port} (h : s.tariff.staging.holder = some p) :
    hold s = notify p (.activationHeld (stagedNumber s) (retiredNumber s) (retiredReferences s)) (heldStaging s) := by
  simp only [hold, heldStaging, h]

theorem hold_tariff (s : State) : (hold s).tariff = (heldStaging s).tariff := by
  cases h : s.tariff.staging.holder with
  | none => rw [hold_of_none h]
  | some p => rw [hold_of_some h, (notify_told p _ _).tariff]

/-- R144: the lowering that brings the retired count to 0 lets a held activation take place. -/
theorem lower_activates {s : State} {b : BankRecord} (retired : s.tariff.retired = some b)
    (other : b.number ≠ s.tariff.live.number) (last : b.references = 1) (held : s.tariff.staging.state = .held) :
    lower b.number s =
      activate true { s with tariff := { s.tariff with retired := some { b with references := 0 } } } := by
  simp only [lower, if_neg other.symm, retired, if_true, last, Nat.sub_self, held, and_self]

theorem activated_withRetired (g : StagedGeneration) (s : State) (b : Option BankRecord) :
    activated g { s with tariff := { s.tariff with retired := b } } = activated g s := rfl

/-! ## STAGE_ACTIVATE and ACTIVATION_DUE (R141, R142) -/

theorem exec_stageActivate (r : Sender) (target : Option ActivationTarget) (s : State) :
    exec (.stageActivate r target) s =
      request (.stageActivate r target) r RequestKind.stageActivate.code (handleStageActivate r.port target) s := rfl

theorem exec_activationDue (s : State) :
    exec .activationDue s =
      .next (if s.tariff.staging.state = .scheduled ∧ s.tariff.staging.advance = some 0 then takeDue s else s) := rfl

theorem handleStageActivate_refused {p : Port} {t : ActivationTarget} {u : State} {st : Status}
    (h : activationRefusal u p t = some st) : handleStageActivate p (some t) u = refuse st u := by
  simp only [handleStageActivate, h]

theorem handleStageActivate_starts {p : Port} {t : ActivationTarget} {u : State} (h : activationRefusal u p t = none) :
    handleStageActivate p (some t) u = ⟨startActivation t u, .ok, activationResult (startActivation t u)⟩ := by
  simp only [handleStageActivate, h]

theorem handleStageActivate_refuses {p : Port} {target : Option ActivationTarget} {u : State} {st : Status}
    (h : FirstOf
      [(target = none, .badRequest), (∃ w, target = some (.at w) ∧ 604799999 < w, .outOfRange),
        (u.tariff.staging.state = .none ∨ u.tariff.staging.holder ≠ some p, .notStageHolder),
        (u.tariff.staging.state ≠ .opened, .activationPending),
        (u.tariff.weekTime = none ∧ ∃ w, target = some (.at w), .clockUnset)] st) :
    handleStageActivate p target u = refuse st u := by
  rcases h with ⟨rfl, rfl⟩ | ⟨present, h⟩
  · rfl
  obtain ⟨t, rfl⟩ := Option.ne_none_iff_exists'.mp present
  refine handleStageActivate_refused ?_
  have checks : FirstOf (writeChecks u p) st → writeRefusal u p = some st := writeRefusal_of_firstOf
  rcases t with _ | w
  · rcases h with ⟨⟨w, at_w, -⟩, -⟩ | ⟨-, ⟨other, rfl⟩ | ⟨mine, ⟨pending, rfl⟩ | ⟨-, ⟨⟨-, w, at_w⟩, -⟩ | ⟨-, noCheck⟩⟩⟩⟩
    · cases at_w
    · exact checks (.inl ⟨other, rfl⟩)
    · exact checks (.inr ⟨mine, .inl ⟨pending, rfl⟩⟩)
    · cases at_w
    · exact noCheck.elim
  · rcases h with ⟨⟨x, at_x, late⟩, rfl⟩ | ⟨early, h⟩
    · cases at_x
      exact if_pos late
    have range : ¬Config.week ≤ w := fun late => early ⟨w, rfl, late⟩
    simp only [activationRefusal, if_neg range]
    rcases h with ⟨other, rfl⟩ | ⟨mine, ⟨pending, rfl⟩ | ⟨opened, ⟨⟨unset, -⟩, rfl⟩ | ⟨-, noCheck⟩⟩⟩
    · simp only [checks (.inl ⟨other, rfl⟩)]
    · simp only [checks (.inr ⟨mine, .inl ⟨pending, rfl⟩⟩)]
    · simp only [writeRefusal, if_neg mine, if_neg opened, if_pos unset]
    · exact noCheck.elim

theorem activationRefusal_eq_none {p : Port} {t : ActivationTarget} {u : State} (opened : u.tariff.staging.state = .opened)
    (mine : u.tariff.staging.holder = some p)
    (h : t = .now ∨ ∃ w, w ≤ 604799999 ∧ t = .at w ∧ u.tariff.weekTime ≠ none) : activationRefusal u p t = none := by
  have pass : writeRefusal u p = none := by simp [writeRefusal, opened, mine]
  rcases h with rfl | ⟨w, range, rfl, set⟩
  · exact pass
  · have range : ¬Config.week ≤ w := Nat.not_le.mpr (Nat.lt_succ_of_le range)
    simp only [activationRefusal, if_neg range, pass, if_neg set]

/-- R141: NOW, and the present week time, make the activation due. -/
theorem startActivation_due {t : ActivationTarget} {u : State}
    (h : t = .now ∨ ∃ w, t = .at w ∧ u.tariff.weekTime = some w) : startActivation t u = takeDue u := by
  rcases h with rfl | ⟨w, rfl, week⟩
  · rfl
  · simp only [startActivation, week, if_true]

theorem startActivation_schedules {w x : Nat} {u : State} (week : u.tariff.weekTime = some x) (other : w ≠ x) :
    startActivation (.at w) u =
      u.setStaging
        { u.tariff.staging with
          state := .scheduled, target := some w, advance := some ((w + 604800000 - x) % 604800000) } := by
  simp only [startActivation, week, if_neg other]
  rfl

theorem activationResult_activates {s : State} {g : StagedGeneration} (staged : s.tariff.staging.generation = some g)
    (free : ∀ b, s.tariff.retired = some b → b.references = 0) : activationResult (takeDue s) = .activated g.number := by
  rw [takeDue_activates free, activate_of_some staged, activationResult, (notifyAllUp_told _ _).tariff]
  rfl

theorem activationResult_holds {s : State} {b : BankRecord} (retired : s.tariff.retired = some b)
    (bound : b.references ≠ 0) : activationResult (takeDue s) = .heldActivation b.number b.references := by
  have same : (hold s).tariff = (heldStaging s).tariff := hold_tariff s
  have kept : (hold s).tariff.retired = some b := by rw [same]; exact retired
  rw [takeDue_holds retired bound, activationResult, retiredNumber_of_some kept, retiredReferences_of_some kept, same]
  rfl

theorem activationResult_scheduled (s : State) (w d : Nat) :
    activationResult
        (s.setStaging { s.tariff.staging with state := .scheduled, target := some w, advance := some d }) =
      .scheduledActivation d := by
  simp only [activationResult, State.staging_setStaging, Option.getD_some]

theorem handleStageActivate_schedules {p : Port} {u : State} {w x : Nat} (opened : u.tariff.staging.state = .opened)
    (mine : u.tariff.staging.holder = some p) (range : w ≤ 604799999) (week : u.tariff.weekTime = some x)
    (other : w ≠ x) :
    handleStageActivate p (some (.at w)) u =
      ⟨u.setStaging
          { u.tariff.staging with
            state := .scheduled, target := some w, advance := some ((w + 604800000 - x) % 604800000) },
        .ok, .scheduledActivation ((w + 604800000 - x) % 604800000)⟩ := by
  have pass : activationRefusal u p (.at w) = none :=
    activationRefusal_eq_none opened mine (.inr ⟨w, range, rfl, by simp [week]⟩)
  rw [handleStageActivate_starts pass, startActivation_schedules week other, activationResult_scheduled]

/-- Settles O42. -/
theorem activation : Obligations.Activation := by
  refine ⟨fun r target s u takes => ⟨fun st check => ?refused, fun opened mine => ⟨?due, ?scheduled⟩⟩, fun s =>
    ⟨fun state due => ?taken, fun notDue => ?nothing, ?effect⟩⟩
  case refused => exact answers_of rfl (exec_stageActivate r target s) takes (handleStageActivate_refuses check)
  case due =>
    intro g staged now
    obtain ⟨t, rfl, pass, start⟩ : ∃ t, target = some t ∧ activationRefusal u r.port t = none ∧
        startActivation t u = takeDue u := by
      rcases now with rfl | ⟨w, range, rfl, week⟩
      · exact ⟨.now, rfl, activationRefusal_eq_none opened mine (.inl rfl), startActivation_due (.inl rfl)⟩
      · exact ⟨.at w, rfl, activationRefusal_eq_none opened mine (.inr ⟨w, range, rfl, by simp [week]⟩),
          startActivation_due (.inr ⟨w, rfl, week⟩)⟩
    have handled := handleStageActivate_starts pass
    rw [start] at handled
    refine ⟨fun free => ?_, fun b retired bound => ?_⟩
    · rw [activationResult_activates staged free] at handled
      exact answers_of rfl (exec_stageActivate r _ s) takes handled
    · rw [activationResult_holds retired bound] at handled
      exact answers_of rfl (exec_stageActivate r _ s) takes handled
  case scheduled =>
    rintro w x rfl range week other
    exact answers_of rfl (exec_stageActivate r _ s) takes (handleStageActivate_schedules opened mine range week other)
  case taken => rw [exec_activationDue, if_pos ⟨state, due⟩]
  case nothing => rw [exec_activationDue, if_neg (by tauto)]
  case effect =>
    rintro g done staged rfl
    refine ⟨fun free => ?_, fun b retired bound w hw => ⟨fun noHolder => ?_, fun p holder => ?_⟩,
      fun b retired other last held => ?_⟩
    · refine ⟨activated g s, ?_, activated_eq g s, fun k i e memory => way_invalidateAll_ne memory.1 k i e⟩
      rw [takeDue_activates free, activate_of_some staged]
    · rw [takeDue_holds retired bound, hold_of_none noHolder, hw]
      rfl
    · rw [takeDue_holds retired bound, hold_of_some holder, stagedNumber_of_some staged, retiredNumber_of_some retired,
        retiredReferences_of_some retired, hw]
      rfl
    · refine ⟨activated g s, ?_, activated_eq g s⟩
      rw [lower_activates retired other last held, activate_of_some (by exact staged), activated_withRetired]

/-! ## The band of a week time (R130) -/

/-- R130: two week times in the same half-hour slot have the same band. -/
theorem bandAt_eq_of_slot (T : Tariffs) {v w : Nat} (h : v / 1800000 = w / 1800000) : T.bandAt v = T.bandAt w := by
  have day : dayOf v = dayOf w := by
    show v / 86400000 = w / 86400000
    omega
  have slot : slotOf v = slotOf w := by
    show v % 86400000 / 1800000 = w % 86400000 / 1800000
    omega
  rw [Tariffs.bandAt, day, slot, Tariffs.bandAt]

theorem bandAt_slot (T : Tariffs) {day slot r : Nat} (hs : slot < 48) (hr : r < 1800000) :
    T.bandAt (day * 86400000 + slot * 1800000 + r) = (T.schedule (T.weekMap.get day)).get slot := by
  have hday : dayOf (day * 86400000 + slot * 1800000 + r) = day := by
    show (day * 86400000 + slot * 1800000 + r) / 86400000 = day
    omega
  have hslot : slotOf (day * 86400000 + slot * 1800000 + r) = slot := by
    show (day * 86400000 + slot * 1800000 + r) % 86400000 / 1800000 = slot
    omega
  rw [Tariffs.bandAt, hday, hslot]

/-! ## Segments count milliseconds (R154, R155) -/

/-- R155: how many of the first `d` milliseconds from a week time fall in a band. -/
def msOfBand (T : Tariffs) (k : Band) (t d : Nat) : Nat :=
  (List.range d).countP (fun i => decide (T.bandAt ((t + i) % 604800000) = k))

/-- The milliseconds of a band are those of the first part of the time and those of the rest. -/
theorem msOfBand_add (T : Tariffs) (k : Band) (t m n : Nat) :
    msOfBand T k t (m + n) = msOfBand T k t m + msOfBand T k ((t + m) % 604800000) n := by
  have shift : ∀ i, (t + (m + i)) % 604800000 = ((t + m) % 604800000 + i) % 604800000 := by omega
  simp only [msOfBand, List.range_add, List.countP_append, List.countP_map, Function.comp_def, shift]

/-- Time within one slot falls in the band of its start. -/
theorem msOfBand_within (T : Tariffs) (k : Band) {t n : Nat} (ht : t < 604800000) (hn : n ≤ 1800000 - t % 1800000) :
    msOfBand T k t n = if T.bandAt t = k then n else 0 := by
  have same : ∀ i ∈ List.range n, T.bandAt ((t + i) % 604800000) = T.bandAt t := fun i hi =>
    bandAt_eq_of_slot T (by have := List.mem_range.mp hi; omega)
  have decided : msOfBand T k t n = (List.range n).countP (fun _ => decide (T.bandAt t = k)) :=
    List.countP_congr (fun i hi => by rw [same i hi])
  rw [decided]
  split <;> simp_all

theorem segments_succ_of_pos (fuel t : Nat) {rest : Nat} (h : rest ≠ 0) :
    segments (fuel + 1) t rest =
      (t, min rest (1800000 - t % 1800000)) ::
        segments fuel ((t + min rest (1800000 - t % 1800000)) % 604800000) (rest - min rest (1800000 - t % 1800000)) :=
  if_neg h

@[simp] theorem segments_zero (fuel t : Nat) : segments fuel t 0 = [] := by
  cases fuel <;> rfl

theorem msInBand_cons (T : Tariffs) (k : Band) (x : Nat × Nat) (segs : List (Nat × Nat)) :
    msInBand T k (x :: segs) = (if T.bandAt x.1 = k then x.2 else 0) + msInBand T k segs := by
  by_cases h : T.bandAt x.1 = k <;> simp [msInBand, h]

/-- R154, R155: the segments of a time count its milliseconds band by band, while there is fuel for its slots. -/
theorem msInBand_segments (T : Tariffs) (k : Band) (fuel : Nat) {t rest : Nat} (ht : t < 604800000)
    (hf : rest ≠ 0 → rest + t % 1800000 ≤ fuel * 1800000) : msInBand T k (segments fuel t rest) = msOfBand T k t rest := by
  induction fuel generalizing t rest with
  | zero =>
    obtain rfl : rest = 0 := by omega
    rfl
  | succ fuel ih =>
    by_cases empty : rest = 0
    · subst empty
      rw [segments_zero]
      rfl
    · have fuelled := hf empty
      have left : rest - min rest (1800000 - t % 1800000) ≠ 0 →
          rest - min rest (1800000 - t % 1800000) + (t + min rest (1800000 - t % 1800000)) % 604800000 % 1800000 ≤
            fuel * 1800000 := by
        rcases Nat.le_total rest (1800000 - t % 1800000) with last | more
        · rw [min_eq_left last]
          omega
        · rw [min_eq_right more]
          omega
      rw [segments_succ_of_pos fuel t empty, msInBand_cons, ih (Nat.mod_lt _ (by decide)) left]
      have parts : rest = min rest (1800000 - t % 1800000) + (rest - min rest (1800000 - t % 1800000)) := by omega
      conv_rhs => rw [parts, msOfBand_add, msOfBand_within T k ht (min_le_right _ _)]

/-- R155: the last segment holds the last millisecond. -/
theorem getLast?_segments (fuel : Nat) {t rest : Nat} (ht : t < 604800000) (hf : rest + t % 1800000 ≤ fuel * 1800000)
    (some_time : rest ≠ 0) :
    ∃ x, (segments fuel t rest).getLast? = some x ∧ x.1 / 1800000 = (t + rest - 1) % 604800000 / 1800000 := by
  induction fuel generalizing t rest with
  | zero => omega
  | succ fuel ih =>
    rw [segments_succ_of_pos fuel t some_time]
    by_cases last : rest ≤ 1800000 - t % 1800000
    · rw [min_eq_left last, Nat.sub_self, segments_zero]
      exact ⟨_, rfl, by show t / 1800000 = _; omega⟩
    · rw [min_eq_right (Nat.le_of_not_le last)]
      obtain ⟨x, listed, slot⟩ := ih (t := (t + (1800000 - t % 1800000)) % 604800000)
        (rest := rest - (1800000 - t % 1800000)) (Nat.mod_lt _ (by decide)) (by omega) (by omega)
      refine ⟨x, ?_, ?_⟩
      · rw [List.getLast?_cons, listed, Option.getD_some]
      · rw [slot]
        congr 1
        omega

theorem segments_fuel {t d : Nat} (hd : d ≤ 86400000) : d + t % 1800000 ≤ 50 * 1800000 := by omega

theorem releaseBand_eq (T : Tariffs) {t0 d : Nat} (ht : t0 < 604800000) (hd : d ≤ 86400000) :
    releaseBand T t0 (segmentsOf t0 d) =
      if d = 0 then T.bandAt t0 else T.bandAt ((t0 + d - 1) % 604800000) := by
  by_cases empty : d = 0
  · subst empty
    rfl
  · obtain ⟨x, listed, slot⟩ := getLast?_segments 50 ht (segments_fuel hd) empty
    simp only [releaseBand, segmentsOf, listed, if_neg empty]
    exact bandAt_eq_of_slot T slot

theorem wholeSeconds_eq (T : Tariffs) {t0 d : Nat} (ht : t0 < 604800000) (hd : d ≤ 86400000) :
    wholeSeconds T (segmentsOf t0 d) =
      ⟨msOfBand T .band0 t0 d / 1000, msOfBand T .band1 t0 d / 1000, msOfBand T .band2 t0 d / 1000,
        msOfBand T .band3 t0 d / 1000⟩ := by
  simp only [wholeSeconds, segmentsOf, msInBand_segments T _ 50 ht (fun _ => segments_fuel hd)]

/-- Every millisecond falls in one of the four bands. -/
theorem msOfBand_sum (T : Tariffs) (t d : Nat) :
    msOfBand T .band0 t d + msOfBand T .band1 t d + msOfBand T .band2 t d + msOfBand T .band3 t d = d := by
  induction d with
  | zero => rfl
  | succ d ih =>
    simp only [msOfBand, List.range_succ, List.countP_append, List.countP_singleton] at ih ⊢
    cases T.bandAt ((t + d) % 604800000) <;> simp <;> omega

theorem BandSeconds.sum_add (x : BandSeconds) (b : Band) (r : Nat) :
    (x.add b r).band0 + (x.add b r).band1 + (x.add b r).band2 + (x.add b r).band3 = x.sum + r := by
  cases b <;> simp only [BandSeconds.add, BandSeconds.sum] <;> omega

/-- R155 step 3: only the band of the last millisecond takes the remainder. -/
theorem BandSeconds.add_other (x : BandSeconds) (b : Band) (r : Nat) :
    (b ≠ .band0 → (x.add b r).band0 = x.band0) ∧ (b ≠ .band1 → (x.add b r).band1 = x.band1) ∧
      (b ≠ .band2 → (x.add b r).band2 = x.band2) ∧ (b ≠ .band3 → (x.add b r).band3 = x.band3) := by
  cases b <;> simp [BandSeconds.add]

/-- Settles O44. -/
theorem bandSplitCountsMilliseconds : Obligations.BandSplitCountsMilliseconds := by
  rintro T t0 d b x last ms ht hd billed rfl rfl hms
  obtain rfl : ms = fun k => msOfBand T k t0 d := funext hms
  have split : bandSplit T (some t0) d b =
      (wholeSeconds T (segmentsOf t0 d)).add
        (if d = 0 then T.bandAt t0 else T.bandAt ((t0 + d - 1) % 604800000))
        (b - (wholeSeconds T (segmentsOf t0 d)).sum) := by
    rw [← releaseBand_eq T ht hd]
    rfl
  obtain ⟨rest0, rest1, rest2, rest3⟩ :=
    BandSeconds.add_other (wholeSeconds T (segmentsOf t0 d))
      (if d = 0 then T.bandAt t0 else T.bandAt ((t0 + d - 1) % 604800000))
      (b - (wholeSeconds T (segmentsOf t0 d)).sum)
  have whole := wholeSeconds_eq T ht hd
  have fits : (wholeSeconds T (segmentsOf t0 d)).sum ≤ b := by
    have total := msOfBand_sum T t0 d
    rw [whole]
    simp only [BandSeconds.sum]
    omega
  rw [split]
  refine ⟨rfl, ?_, fun h => (rest0 h).trans (by rw [whole]), fun h => (rest1 h).trans (by rw [whole]),
    fun h => (rest2 h).trans (by rw [whole]), fun h => (rest3 h).trans (by rw [whole]), fun day slot r _ hs hr => ?_,
    fun s => ?_⟩
  · rw [BandSeconds.sum_add, Nat.add_sub_cancel' fits]
  · rw [bandAt_slot T hs hr]
    cases T.weekMap.get day <;> rfl
  · unfold bandInForce
    cases s.tariff.weekTime <;> rfl

/-! ## QUERY_TARIFF (R147) -/

theorem exec_queryTariff (r : Sender) (bank : Arg Bank) (item : Arg TariffItem) (s : State) :
    exec (.queryTariff r bank item) s =
      request (.queryTariff r bank item) r RequestKind.queryTariff.code (handleQueryTariff bank item) s := rfl

theorem handleQueryTariff_badRequest {bank : Arg Bank} {item : Arg TariffItem}
    (h : bank.value? = none ∨ item.value? = none) (u : State) :
    handleQueryTariff bank item u = refuse .badRequest u := by
  unfold handleQueryTariff
  rcases h with h | h
  · simp only [h]
  · rw [h]
    cases bank.value? <;> rfl

theorem handleQueryTariff_itemRefused {b : Bank} {i : TariffItem} {st : Status} (h : itemRefusal i = some st) (u : State) :
    handleQueryTariff (.given b) (.given i) u = refuse st u := by
  simp only [handleQueryTariff, Arg.value?, h]

theorem handleQueryTariff_noBank {b : Bank} {i : TariffItem} {u : State} (item : itemRefusal i = none)
    (bank : bankView u b = none) : handleQueryTariff (.given b) (.given i) u = refuse .wrongState u := by
  simp only [handleQueryTariff, Arg.value?, item, bank]

theorem handleQueryTariff_shows {b : Bank} {i : TariffItem} {u : State} {v : Nat × Option Nat × Tariffs}
    (item : itemRefusal i = none) (bank : bankView u b = some v) :
    handleQueryTariff (.given b) (.given i) u = ⟨u, .ok, itemResult u v i⟩ := by
  simp only [handleQueryTariff, Arg.value?, item, bank]

/-- R147: the item has an undefined day type. -/
def itemMalformed (i : TariffItem) : Prop := ∃ d : Arg DayType, i = .schedule d ∧ d.value? = none

/-- R147: the item names a carrier or a class out of range. -/
def itemOutOfRange (i : TariffItem) : Prop :=
  ∃ c j, (i = .entry c j ∧ (63 < c ∨ 7 < j)) ∨ (i = .margin c ∧ 63 < c)

theorem itemRefusal_malformed {i : TariffItem} (h : itemMalformed i) : itemRefusal i = some .badRequest := by
  obtain ⟨d, rfl, undefined⟩ := h
  simp only [itemRefusal, undefined, Option.isNone_none, if_true]

theorem itemRefusal_outOfRange {i : TariffItem} (h : itemOutOfRange i) : itemRefusal i = some .outOfRange := by
  obtain ⟨c, j, ⟨rfl, range⟩ | ⟨rfl, range⟩⟩ := h
  · exact if_pos range
  · exact if_pos range

theorem itemRefusal_eq_none {i : TariffItem} (form : ¬itemMalformed i) (range : ¬itemOutOfRange i) :
    itemRefusal i = none := by
  cases i with
  | entry c j => exact if_neg fun out => range ⟨c, j, .inl ⟨rfl, out⟩⟩
  | margin c => exact if_neg fun out => range ⟨c, 0, .inr ⟨rfl, out⟩⟩
  | schedule d => exact if_neg fun undefined => form ⟨d, rfl, Option.isNone_iff_eq_none.mp undefined⟩
  | weekMap => rfl
  | summary => rfl

theorem bankView_eq_none {u : State} {b : Bank}
    (h : (b = .retired ∧ u.tariff.retired = none) ∨ (b = .staging ∧ u.tariff.staging.state = .none)) :
    bankView u b = none := by
  rcases h with ⟨rfl, free⟩ | ⟨rfl, free⟩
  · simp only [bankView, free, Option.map_none]
  · exact if_pos free

/-- R147: what a bank that holds a generation shows, bank by bank. -/
theorem bankView_eq_some {u : State} {b : Bank} {number : Nat} {references : Option Nat} {T : Tariffs}
    (h : b = .live ∧ number = u.tariff.live.number ∧ references = some u.tariff.live.references ∧
          T = u.tariff.live.tariffs ∨
        (∃ x, b = .retired ∧ u.tariff.retired = some x ∧ number = x.number ∧ references = some x.references ∧
          T = x.tariffs) ∨
        ∃ x, b = .staging ∧ u.tariff.staging.state ≠ .none ∧ u.tariff.staging.generation = some x ∧
          number = x.number ∧ references = none ∧ T = x.tariffs) :
    bankView u b = some (number, references, T) := by
  rcases h with ⟨rfl, rfl, rfl, rfl⟩ | ⟨x, rfl, full, rfl, rfl, rfl⟩ | ⟨x, rfl, open_, full, rfl, rfl, rfl⟩
  · rfl
  · simp only [bankView, full, Option.map_some]
  · simp only [bankView, if_neg open_, full, Option.map_some]

/-! ## READ_CLOSED, QUERY_PAIR and IDENTIFY (R176, R178, R194) -/

theorem exec_readClosed (r : Sender) (item : Arg ClosedItem) (s : State) :
    exec (.readClosed r item) s =
      request (.readClosed r item) r RequestKind.readClosed.code (handleReadClosed item) s := rfl

theorem exec_queryPair (r : Sender) (n k : Nat) (s : State) :
    exec (.queryPair r n k) s = request (.queryPair r n k) r RequestKind.queryPair.code (handleQueryPair n k) s := rfl

theorem exec_identify (r : Sender) (s : State) :
    exec (.identify r) s = request (.identify r) r RequestKind.identify.code (handleIdentify r.port) s := rfl

theorem handleReadClosed_badRequest {item : Arg ClosedItem} (h : item.value? = none) (u : State) :
    handleReadClosed item u = refuse .badRequest u := by
  simp only [handleReadClosed, h]

theorem readPairs_outOfRange {n : Nat} (range : 4095 < n) (k : Nat) (u : State) :
    handleReadClosed (.given (.pairs n k)) u = refuse .outOfRange u := if_pos range

theorem readPairs_free {n : Nat} {u : State} (range : n ≤ 4095) (free : u.settlement.closed = none) (k : Nat) :
    handleReadClosed (.given (.pairs n k)) u = refuse .wrongState u := by
  have range : ¬Config.pairs ≤ n := Nat.not_le.mpr (Nat.lt_succ_of_le range)
  simp only [handleReadClosed, Arg.value?, readPairs, if_neg range, free]

theorem pairsShown_eq (n k : Nat) : pairsShown n k = min (max 1 (min k 64)) (4096 - n) := by
  rw [pairsShown, clamp_one_eq (by decide)]
  rfl

theorem readPairs_full {n : Nat} {u : State} {b : ClosedBank} (range : n ≤ 4095) (full : u.settlement.closed = some b)
    (k : Nat) :
    handleReadClosed (.given (.pairs n k)) u =
      ⟨u, if pairsShown n k = k then .ok else .adjusted,
        .closedPairs b.period
          ((List.range' n (pairsShown n k)).map (fun j => (j / 64, j % 64, b.pairs.get j)))⟩ := by
  have range : ¬Config.pairs ≤ n := Nat.not_le.mpr (Nat.lt_succ_of_le range)
  have status : okOr (decide (pairsShown n k ≠ k)) = if pairsShown n k = k then .ok else .adjusted := by
    simp only [okOr, decide_eq_true_eq, ne_eq, ite_not]
  simp only [handleReadClosed, Arg.value?, readPairs, if_neg range, full, status]
  rfl

theorem readCarriers_free {u : State} (free : u.settlement.closed = none) :
    handleReadClosed (.given .carriers) u = refuse .wrongState u := by
  simp only [handleReadClosed, Arg.value?, readCarriers, free]

theorem readCarriers_full {u : State} {b : ClosedBank} (full : u.settlement.closed = some b) :
    handleReadClosed (.given .carriers) u =
      ⟨u, .ok, .closedCarriers b.period ((List.range 64).map (fun c => b.totals.get c))⟩ := by
  simp only [handleReadClosed, Arg.value?, readCarriers, full]
  rfl

/-- Settles O48. -/
theorem queriesOfTariffAndSettlement : Obligations.QueriesOfTariffAndSettlement := by
  intro r n k s u
  refine ⟨fun bank item takes => ⟨fun missing => ?malformed, ?tariff⟩, fun item takes => ?closed,
    fun takes => ⟨fun range => ?pairRange, fun hn hk => ?pair⟩,
    fun takes => answers_of rfl (exec_identify r s) takes rfl⟩
  case malformed => exact answers_of rfl (exec_queryTariff r bank item s) takes (handleQueryTariff_badRequest missing u)
  case tariff =>
    rintro b i rfl rfl
    have answer := fun {v st x} =>
      answers_of (v := v) (st := st) (x := x) rfl (exec_queryTariff r (.given b) (.given i) s) takes
    refine ⟨fun st check => answer ?_, fun number references T held => ?_⟩
    · rcases check with ⟨form, rfl⟩ | ⟨form, ⟨range, rfl⟩ | ⟨range, ⟨free, rfl⟩ | ⟨-, noCheck⟩⟩⟩
      · exact handleQueryTariff_itemRefused (itemRefusal_malformed form) u
      · exact handleQueryTariff_itemRefused (itemRefusal_outOfRange range) u
      · exact handleQueryTariff_noBank (itemRefusal_eq_none form range) (bankView_eq_none free)
      · exact noCheck.elim
    · have shows := fun pass => answer (handleQueryTariff_shows (i := i) pass (bankView_eq_some held))
      refine ⟨?_, ?_, ?_, ?_, ?_⟩
      · rintro c j rfl hc hj
        exact shows (if_neg (show ¬(64 ≤ c ∨ 8 ≤ j) by omega))
      · rintro c rfl hc
        exact shows (if_neg (show ¬64 ≤ c by omega))
      · rintro d rfl
        exact shows rfl
      · rintro rfl
        exact shows rfl
      · rintro rfl
        exact shows rfl
  case closed =>
    refine ⟨fun missing => answers_of rfl (exec_readClosed r item s) takes (handleReadClosed_badRequest missing u), ?_, ?_,
      ?_, ?_⟩
    · rintro rfl range
      exact answers_of rfl (exec_readClosed r _ s) takes (readPairs_outOfRange range k u)
    · rintro rfl range free
      exact answers_of rfl (exec_readClosed r _ s) takes (readPairs_free range free k)
    · rintro rfl free
      exact answers_of rfl (exec_readClosed r _ s) takes (readCarriers_free free)
    · rintro b m full hm
      obtain rfl : m = pairsShown n k := hm.trans (pairsShown_eq n k).symm
      refine ⟨?_, ?_⟩
      · rintro rfl range
        exact answers_of rfl (exec_readClosed r _ s) takes (readPairs_full range full k)
      · rintro rfl
        exact answers_of rfl (exec_readClosed r _ s) takes (readCarriers_full full)
  case pairRange => exact answers_of rfl (exec_queryPair r n k s) takes (if_pos range)
  case pair =>
    have range : ¬(Config.carriers ≤ n ∨ Config.carriers ≤ k) := by
      show ¬(64 ≤ n ∨ 64 ≤ k)
      omega
    exact answers_of rfl (exec_queryPair r n k s) takes (if_neg range)

end Sys2Proof.Machine
end

section
/-! The group service controller: what the re-evaluation of plans, the derivation of congestion, the member tests and the
completion of the batch leave of the controller's record, and the reports that are made of them. -/

namespace Sys2Proof.Machine

/-! ## Fields of a served or planted state -/

theorem Planted.sameElsewhere {s t : State} (h : Planted s t) : SameElsewhere s t := by
  refine ⟨h.2.1, ?_⟩
  rw [h.1]
  exact ⟨rfl, rfl, rfl, rfl, rfl, rfl, rfl, rfl⟩

theorem Planted.calls {s t : State} (h : Planted s t) : t.calls = s.calls := by rw [h.1]

theorem Planted.now {s t : State} (h : Planted s t) : t.now = s.now := by rw [h.1]; rfl

theorem Served.group {s t : State} (h : Served s t) (n : Nat) : t.group n = s.group n := by
  simp only [State.group, h.plant]

theorem Served.circuit {s t : State} (h : Served s t) (c : Nat) : t.circuit c = s.circuit c := by
  simp only [State.circuit, h.plant]

theorem State.busyTotal_congr {s t : State} {n : Nat} (h : t.group n = s.group n) : t.busyTotal n = s.busyTotal n := by
  simp only [State.busyTotal, h]

theorem State.idleCount_congr {s t : State} {n : Nat} (h : t.group n = s.group n) : t.idleCount n = s.idleCount n := by
  simp only [State.idleCount, h]

theorem Served.busyTotal {s t : State} (h : Served s t) (n : Nat) : t.busyTotal n = s.busyTotal n :=
  State.busyTotal_congr (h.group n)

theorem State.svc_congr {s t : State} (h : t.service.groups = s.service.groups) (n : Nat) : t.svc n = s.svc n := by
  simp only [State.svc, h]

/-! ## The re-evaluation of plans (R45, R46) -/

/-- Of the controller's record only the exhaustion of plans has changed, with the levels and notices that report it. -/
def ExhaustionOnly (s t : State) : Prop :=
  Served s t ∧ t.service = { s.service with exhausted := t.service.exhausted }

theorem Told.exhaustionOnly {s t : State} (h : Told s t) : ExhaustionOnly s t := ⟨h.served, by rw [h.service]⟩

theorem ExhaustionOnly.refl (s : State) : ExhaustionOnly s s := (Told.refl s).exhaustionOnly

theorem ExhaustionOnly.trans {s t u : State} (h : ExhaustionOnly s t) (g : ExhaustionOnly t u) : ExhaustionOnly s u := by
  refine ⟨h.1.trans g.1, ?_⟩
  have := g.2
  rw [h.2] at this
  exact this

theorem ExhaustionOnly.foldl {α : Type} (f : State → α → State) (hf : ∀ s x, ExhaustionOnly s (f s x)) (l : List α)
    (s : State) : ExhaustionOnly s (l.foldl f s) := by
  induction l generalizing s with
  | nil => exact ExhaustionOnly.refl s
  | cons x l ih => exact (hf s x).trans (ih (f s x))

theorem ExhaustionOnly.batch {s t : State} (h : ExhaustionOnly s t) : t.service.batch = s.service.batch := by rw [h.2]

theorem ExhaustionOnly.svc {s t : State} (h : ExhaustionOnly s t) (n : Nat) : t.svc n = s.svc n :=
  State.svc_congr (by rw [h.2]) n

theorem evaluatePlan_exhaustionOnly (s : State) (p : Nat) : ExhaustionOnly s (evaluatePlan s p) :=
  ⟨evaluatePlan_served s p, evaluatePlan_service s p⟩

theorem reevaluate_exhaustionOnly (gs : List Nat) (b s : State) : ExhaustionOnly s (reevaluate gs b s) :=
  ExhaustionOnly.foldl _ evaluatePlan_exhaustionOnly _ s

/-! ## The derivation of congestion (R28) -/

/-- R28: the service record of a group once its congestion state has been derived. -/
def derivedSvc (s : State) (n : Nat) : GroupService :=
  match s.group n with
  | none => s.svc n
  | some g =>
    { s.svc n with congestion := nextCongestion (s.svc n).congestion g.available g.threshold g.hysteresis }

theorem derivedSvc_of_none {s : State} {n : Nat} (h : s.group n = none) : derivedSvc s n = s.svc n := by
  simp only [derivedSvc, h]

theorem derivedSvc_of_some {s : State} {n : Nat} {g : Group} (h : s.group n = some g) :
    derivedSvc s n =
      { s.svc n with congestion := nextCongestion (s.svc n).congestion g.available g.threshold g.hysteresis } := by
  simp only [derivedSvc, h]

/-- R28: a derivation writes no field but the congestion state. -/
theorem derivedSvc_rest (s : State) (n : Nat) :
    (derivedSvc s n).farLevel = (s.svc n).farLevel ∧ (derivedSvc s n).decayExpiry = (s.svc n).decayExpiry ∧
      (derivedSvc s n).service = (s.svc n).service := by
  cases h : s.group n with
  | none => rw [derivedSvc_of_none h]; exact ⟨rfl, rfl, rfl⟩
  | some g => rw [derivedSvc_of_some h]; exact ⟨rfl, rfl, rfl⟩

theorem derivedSvc_congr {s t : State} {n : Nat} (group : t.group n = s.group n) (svc : t.svc n = s.svc n) :
    derivedSvc t n = derivedSvc s n := by
  simp only [derivedSvc, group, svc]

/-- R28: a derivation that changes something stores the derived record of its group and reports it. -/
theorem deriveCongestion_cases (s : State) (n : Nat) :
    (deriveCongestion s n = s ∧ derivedSvc s n = s.svc n) ∨
      ∃ level, deriveCongestion s n = reportLevel ⟨.groupCongestion, n⟩ level (s.setSvc n (derivedSvc s n)) := by
  cases h : s.group n with
  | none => exact .inl ⟨by simp only [deriveCongestion, h], derivedSvc_of_none h⟩
  | some g =>
    rw [derivedSvc_of_some h]
    by_cases same :
        nextCongestion (s.svc n).congestion g.available g.threshold g.hysteresis = (s.svc n).congestion
    · exact .inl ⟨deriveCongestion_of_same h same, by rw [same]⟩
    · exact .inr ⟨_, deriveCongestion_of_change h rfl same⟩

theorem deriveCongestion_service (s : State) (n : Nat) :
    (deriveCongestion s n).service = { s.service with groups := (deriveCongestion s n).service.groups } := by
  rcases deriveCongestion_cases s n with ⟨same, -⟩ | ⟨level, change⟩
  · rw [same]
  · rw [change, (reportLevel_told _ _ _).service]
    rfl

theorem deriveCongestion_svc (s : State) (n m : Nat) :
    (deriveCongestion s n).svc m = if m = n then derivedSvc s n else s.svc m := by
  rcases deriveCongestion_cases s n with ⟨same, rest⟩ | ⟨level, change⟩
  · rw [same]
    split
    · next h => rw [h, rest]
    · rfl
  · have told := reportLevel_told ⟨.groupCongestion, n⟩ level (s.setSvc n (derivedSvc s n))
    have svc : (deriveCongestion s n).svc m = (s.setSvc n (derivedSvc s n)).svc m := by
      rw [change]
      exact State.svc_congr (by rw [told.service]) m
    rw [svc]
    split
    · next h => rw [h, State.svc_setSvc_same]
    · next h => exact State.svc_setSvc_other s n m _ h

theorem foldl_deriveCongestion_service (gs : List Nat) (s : State) :
    (gs.foldl deriveCongestion s).service =
      { s.service with groups := (gs.foldl deriveCongestion s).service.groups } := by
  induction gs generalizing s with
  | nil => rfl
  | cons n gs ih =>
    rw [List.foldl_cons, ih, deriveCongestion_service]

theorem foldl_deriveCongestion_served (gs : List Nat) (s : State) : Served s (gs.foldl deriveCongestion s) :=
  Served.foldl _ deriveCongestion_served gs s

/-- R28: each of some different groups has its own derivation. -/
theorem foldl_deriveCongestion_svc {gs : List Nat} (once : gs.Nodup) (s : State) (m : Nat) :
    (gs.foldl deriveCongestion s).svc m = if m ∈ gs then derivedSvc s m else s.svc m := by
  induction gs generalizing s with
  | nil => rfl
  | cons n gs ih =>
    obtain ⟨apart, once⟩ := List.nodup_cons.mp once
    have here : ∀ k, (deriveCongestion s n).svc k = if k = n then derivedSvc s n else s.svc k := deriveCongestion_svc s n
    rw [List.foldl_cons, ih once]
    by_cases eq : m = n
    · subst eq
      rw [if_neg apart, if_pos List.mem_cons_self, here, if_pos rfl]
    · have same : (deriveCongestion s n).svc m = s.svc m := by rw [here, if_neg eq]
      rw [same, derivedSvc_congr ((deriveCongestion_served s n).group m) same]
      simp only [List.mem_cons, eq, false_or]

/-- R28: whatever the groups derived, no service state changes. -/
theorem foldl_deriveCongestion_state (gs : List Nat) (s : State) (m : Nat) :
    ((gs.foldl deriveCongestion s).svc m).service = (s.svc m).service := by
  induction gs generalizing s with
  | nil => rfl
  | cons n gs ih =>
    rw [List.foldl_cons, ih, deriveCongestion_svc]
    split
    · next h => rw [h]; exact (derivedSvc_rest s n).2.2
    · rfl

/-! ## The completion of the batch (R33, R38) -/

/-- R38: the record that the completion leaves: the NONE values when the batch is complete. -/
def DrainBatch.settled (b : DrainBatch) : DrainBatch := if b.complete then .empty else b

theorem DrainBatch.complete_iff (b : DrainBatch) :
    b.complete = true ↔ (b.state = .draining ∨ b.state = .suspended) ∧ ∀ m ∈ b.members, m.result ≠ .pending := by
  simp [DrainBatch.complete]

theorem DrainBatch.settled_of_complete {b : DrainBatch} (h : b.complete = true) : b.settled = .empty := if_pos h

theorem DrainBatch.settled_of_not_complete {b : DrainBatch} (h : b.complete = false) : b.settled = b := by
  simp [DrainBatch.settled, h]

@[simp] theorem DrainBatch.settled_settled (b : DrainBatch) : b.settled.settled = b.settled := by
  cases h : b.complete
  · rw [settled_of_not_complete h, settled_of_not_complete h]
  · rw [settled_of_complete h]; rfl

theorem DrainBatch.settled_complete (b : DrainBatch) : b.settled.complete = false := by
  cases h : b.complete
  · rw [settled_of_not_complete h, h]
  · rw [settled_of_complete h]; rfl

/-- A batch that runs with a pending member is not complete. -/
theorem DrainBatch.settled_of_any_pending {b : DrainBatch} (h : b.members.any (fun m => m.result == .pending) = true) :
    b.settled = b := by
  refine settled_of_not_complete (Bool.eq_false_iff.mpr fun done => ?_)
  obtain ⟨m, hm, pending⟩ := List.any_eq_true.mp h
  exact ((complete_iff b).mp done).2 m hm (by simpa using pending)

/-- R38: a running batch is settled by whether a member is pending. -/
theorem DrainBatch.settled_running {b : DrainBatch} (running : b.state = .draining ∨ b.state = .suspended) :
    b.settled = if b.members.any (fun m => m.result == .pending) = true then b else .empty := by
  by_cases h : b.members.any (fun m => m.result == .pending) = true
  · rw [if_pos h, settled_of_any_pending h]
  · rw [if_neg h]
    refine settled_of_complete ((complete_iff b).mpr ⟨running, fun m hm pending => h ?_⟩)
    exact List.any_eq_true.mpr ⟨m, hm, by simp [pending]⟩

theorem completeBatch_service (s : State) : (completeBatch s).service = { s.service with batch := .empty } := by
  show { (notifyUp _ _ s).service with batch := DrainBatch.empty } = _
  rw [(notifyUp_told _ _ s).service]

theorem completeIfDone_service (s : State) :
    (completeIfDone s).service = { s.service with batch := s.service.batch.settled } := by
  unfold completeIfDone
  cases h : s.service.batch.complete
  · simp [DrainBatch.settled_of_not_complete h]
  · simp [DrainBatch.settled_of_complete h, completeBatch_service]

theorem completeIfDone_of_not_complete {s : State} (h : s.service.batch.complete = false) : completeIfDone s = s := by
  simp [completeIfDone, h]

theorem completeIfDone_svc (s : State) (n : Nat) : (completeIfDone s).svc n = s.svc n :=
  State.svc_congr (by rw [completeIfDone_service]) n

/-! ## The entry of a member (R33) -/

/-- R33: the batch with the entry of a group at a result. -/
def DrainBatch.withResult (g : Nat) (v : MemberResult) (b : DrainBatch) : DrainBatch :=
  { b with members := b.members.map (fun m => if m.group = g then { m with result := v } else m) }

theorem setResult_eq (g : Nat) (v : MemberResult) (s : State) :
    setResult g v s = s.setBatch (s.service.batch.withResult g v) := rfl

theorem DrainBatch.resultOf_eq_some_iff {b : DrainBatch} (once : (b.members.map (·.group)).Nodup) (g : Nat)
    (v : MemberResult) : b.resultOf g = some v ↔ ⟨g, v⟩ ∈ b.members := by
  unfold DrainBatch.resultOf
  generalize b.members = ms at once
  induction ms with
  | nil => simp
  | cons m ms ih =>
    obtain ⟨apart, once⟩ := List.nodup_cons.mp once
    by_cases here : m.group = g
    · subst here
      have absent : (⟨m.group, v⟩ : Member) ∉ ms := fun hm => apart (List.mem_map_of_mem (f := (·.group)) hm)
      rw [List.find?_cons_of_pos (by simp)]
      cases m
      simp_all [eq_comm]
    · rw [List.find?_cons_of_neg (by simpa using here), ih once, List.mem_cons, or_iff_right]
      rintro rfl
      exact here rfl

theorem DrainBatch.resultOf_eq_none_iff (b : DrainBatch) (g : Nat) :
    b.resultOf g = none ↔ ∀ m ∈ b.members, m.group ≠ g := by
  simp [DrainBatch.resultOf]

theorem DrainBatch.mem_of_resultOf {b : DrainBatch} {g : Nat} {v : MemberResult} (h : b.resultOf g = some v) :
    ⟨g, v⟩ ∈ b.members := by
  obtain ⟨m, found, rfl⟩ := Option.map_eq_some_iff.mp h
  have hg : m.group = g := by simpa using List.find?_some found
  exact hg ▸ List.mem_of_find?_eq_some found

theorem DrainBatch.mem_pendingGroups (b : DrainBatch) (n : Nat) : n ∈ b.pendingGroups ↔ ⟨n, .pending⟩ ∈ b.members := by
  simp only [DrainBatch.pendingGroups, List.mem_map, List.mem_filter, beq_iff_eq]
  constructor
  · rintro ⟨⟨g, v⟩, ⟨hm, rfl⟩, rfl⟩
    exact hm
  · exact fun hm => ⟨_, ⟨hm, rfl⟩, rfl⟩

/-- Entries of a group other than the one written stay, and so does none of that group but with its new result. -/
theorem DrainBatch.mem_withResult_iff (b : DrainBatch) (g n : Nat) (v w : MemberResult) :
    ⟨n, w⟩ ∈ (b.withResult g v).members ↔
      (n ≠ g ∧ ⟨n, w⟩ ∈ b.members) ∨ (n = g ∧ w = v ∧ ∃ m ∈ b.members, m.group = g) := by
  simp only [DrainBatch.withResult, List.mem_map]
  constructor
  · rintro ⟨m, hm, eq⟩
    by_cases here : m.group = g
    · rw [if_pos here] at eq
      cases eq
      exact .inr ⟨here, rfl, m, hm, here⟩
    · rw [if_neg here] at eq
      subst eq
      exact .inl ⟨here, hm⟩
  · rintro (⟨ne, hm⟩ | ⟨rfl, rfl, m, hm, here⟩)
    · exact ⟨_, hm, if_neg ne⟩
    · exact ⟨m, hm, by rw [if_pos here, ← here]⟩

theorem DrainBatch.groups_withResult (b : DrainBatch) (g : Nat) (v : MemberResult) :
    (b.withResult g v).members.map (·.group) = b.members.map (·.group) := by
  simp only [DrainBatch.withResult, List.map_map]
  refine List.map_congr_left fun m _ => ?_
  simp only [Function.comp]
  split <;> rfl

/-! ## The member test (R37) -/

/-- R37: the group is a pending member of a DRAINING batch and has no busy circuit. -/
def Drains (s : State) (g : Nat) : Prop :=
  s.service.batch.state = .draining ∧ s.service.batch.resultOf g = some .pending ∧ s.busyTotal g = 0

theorem memberTest_of_not {s : State} {g : Nat} (h : ¬Drains s g) : memberTest s g = s := if_neg h

theorem memberTest_of_drains {s : State} {g : Nat} (h : Drains s g) :
    memberTest s g = completeIfDone (reevaluate [g] s (setService g .outOfService (setResult g .drained s))) := if_pos h

/-- R37: a member that is drained goes out of service, its entry is written, and the batch may complete. -/
theorem memberTest_drained {s : State} {g : Nat} (h : Drains s g) :
    (memberTest s g).service.batch = (s.service.batch.withResult g .drained).settled ∧
      ∀ n, (memberTest s g).svc n = if n = g then { s.svc g with service := .outOfService } else s.svc n := by
  have same := reevaluate_exhaustionOnly [g] s (setService g .outOfService (setResult g .drained s))
  rw [memberTest_of_drains h]
  refine ⟨?_, fun n => ?_⟩
  · rw [completeIfDone_service]
    show DrainBatch.settled _ = _
    rw [same.batch]
    rfl
  · rw [completeIfDone_svc, same.svc]
    split
    · next eq => rw [eq]; exact State.svc_setSvc_same _ _ _
    · next ne => exact State.svc_setSvc_other _ _ _ _ ne

/-- R37: whatever it finds, a member test leaves the plan sets and the losses. -/
theorem memberTest_rest (s : State) (g : Nat) :
    (memberTest s g).service.planSets = s.service.planSets ∧ (memberTest s g).service.losses = s.service.losses := by
  by_cases h : Drains s g
  · rw [memberTest_of_drains h, completeIfDone_service, (reevaluate_exhaustionOnly _ _ _).2]
    exact ⟨rfl, rfl⟩
  · rw [memberTest_of_not h]
    exact ⟨rfl, rfl⟩

theorem foldl_memberTest_served (gs : List Nat) (s : State) : Served s (gs.foldl memberTest s) :=
  Served.foldl _ memberTest_served gs s

theorem foldl_memberTest_rest (gs : List Nat) (s : State) :
    (gs.foldl memberTest s).service.planSets = s.service.planSets ∧
      (gs.foldl memberTest s).service.losses = s.service.losses := by
  induction gs generalizing s with
  | nil => exact ⟨rfl, rfl⟩
  | cons g gs ih => exact ⟨(ih _).1.trans (memberTest_rest s g).1, (ih _).2.trans (memberTest_rest s g).2⟩

theorem foldl_memberTest_of_not {gs : List Nat} {s : State} (h : ∀ g ∈ gs, ¬Drains s g) : gs.foldl memberTest s = s := by
  induction gs with
  | nil => rfl
  | cons g gs ih =>
    rw [List.foldl_cons, memberTest_of_not (h g List.mem_cons_self)]
    exact ih fun n hn => h n (List.mem_cons_of_mem g hn)

theorem not_drains_of_pendingBusy {s : State} (h : PendingBusy s) (g : Nat) : ¬Drains s g := fun ⟨state, pending, idle⟩ =>
  absurd idle (h state g (DrainBatch.mem_of_resultOf pending)).ne'

/-- A test after which the batch still runs was made in a batch that ran; one of a complete batch is none. -/
theorem foldl_memberTest_not_complete {s : State} (h : s.service.batch.complete = false) (gs : List Nat) :
    (gs.foldl memberTest s).service.batch.complete = false := by
  induction gs generalizing s with
  | nil => exact h
  | cons g gs ih =>
    rw [List.foldl_cons]
    by_cases drains : Drains s g
    · exact ih (by rw [(memberTest_drained drains).1]; exact DrainBatch.settled_complete _)
    · exact ih (by rw [memberTest_of_not drains]; exact h)

/-- R37: the members after the tests of some groups: the pending ones among these with no busy circuit are DRAINED. -/
def testedMembers (s : State) (gs : List Nat) (ms : List Member) : List Member :=
  ms.map (fun m =>
    if m.result = .pending ∧ m.group ∈ gs ∧ s.busyTotal m.group = 0 then { m with result := .drained } else m)

theorem testedMembers_nil (s : State) (ms : List Member) : testedMembers s [] ms = ms := by
  simp [testedMembers]

theorem testedMembers_congr {s t : State} (h : ∀ n, t.busyTotal n = s.busyTotal n) (gs : List Nat) (ms : List Member) :
    testedMembers t gs ms = testedMembers s gs ms := by
  simp only [testedMembers, h]

/-- A group that does not drain adds nothing to the tests. -/
theorem testedMembers_cons_of_not {s : State} {g : Nat} (once : (s.service.batch.members.map (·.group)).Nodup)
    (draining : s.service.batch.state = .draining) (h : ¬Drains s g) (gs : List Nat) :
    testedMembers s (g :: gs) s.service.batch.members = testedMembers s gs s.service.batch.members := by
  refine List.map_congr_left fun m hm => ?_
  by_cases here : m.group = g
  · have idle : ¬(m.result = .pending ∧ s.busyTotal m.group = 0) := by
      rintro ⟨pending, idle⟩
      refine h ⟨draining, (DrainBatch.resultOf_eq_some_iff once g .pending).mpr ?_, here ▸ idle⟩
      rw [← here, ← pending]
      exact hm
    rw [if_neg (by tauto), if_neg (by tauto)]
  · simp only [List.mem_cons, here, false_or]

/-- A group that drains has its entry written before the other tests. -/
theorem testedMembers_cons_of_drains {s : State} {g : Nat} (once : (s.service.batch.members.map (·.group)).Nodup)
    (h : Drains s g) (gs : List Nat) :
    testedMembers s gs (s.service.batch.withResult g .drained).members =
      testedMembers s (g :: gs) s.service.batch.members := by
  obtain ⟨-, pending, idle⟩ := h
  simp only [testedMembers, DrainBatch.withResult, List.map_map]
  refine List.map_congr_left fun m hm => ?_
  by_cases here : m.group = g
  · have result : m.result = .pending := by
      have mine : s.service.batch.resultOf g = some m.result :=
        (DrainBatch.resultOf_eq_some_iff once g m.result).mpr (here ▸ hm)
      exact Option.some.inj (mine.symm.trans pending)
    simp [here, result, idle]
  · simp [here]

theorem foldl_memberTest_of_not_draining {s : State} (h : s.service.batch.state ≠ .draining) (gs : List Nat) :
    gs.foldl memberTest s = s :=
  foldl_memberTest_of_not fun _ _ drains => h drains.1

/-- R37, R38: the tests of some groups in a DRAINING batch, and the completion that follows: which members are drained, whether
the batch completes, and which groups go out of service. -/
theorem completeIfDone_memberTests {s : State} (gs : List Nat) (once : (s.service.batch.members.map (·.group)).Nodup)
    (draining : s.service.batch.state = .draining) :
    (completeIfDone (gs.foldl memberTest s)).service.batch =
        DrainBatch.settled
          { s.service.batch with members := testedMembers s gs s.service.batch.members } ∧
      ∀ n, (completeIfDone (gs.foldl memberTest s)).svc n =
        if n ∈ gs ∧ ⟨n, .pending⟩ ∈ s.service.batch.members ∧ s.busyTotal n = 0 then
          { s.svc n with service := .outOfService }
        else s.svc n := by
  induction gs generalizing s with
  | nil =>
    refine ⟨?_, fun n => ?_⟩
    · rw [testedMembers_nil, List.foldl_nil, completeIfDone_service]
    · rw [List.foldl_nil, completeIfDone_svc, if_neg (by simp)]
  | cons g gs ih =>
    rw [List.foldl_cons]
    by_cases drains : Drains s g
    · obtain ⟨batch, svc⟩ := memberTest_drained drains
      have busy := (memberTest_served s g).busyTotal
      have member : ⟨g, .pending⟩ ∈ s.service.batch.members := DrainBatch.mem_of_resultOf drains.2.1
      have groups := s.service.batch.groups_withResult g .drained
      have left : ∀ n, ⟨n, .pending⟩ ∈ (s.service.batch.withResult g .drained).members ↔
          n ≠ g ∧ ⟨n, .pending⟩ ∈ s.service.batch.members := by
        intro n
        rw [DrainBatch.mem_withResult_iff]
        simp
      have out : ∀ n, (if n ∈ gs ∧ (n ≠ g ∧ ⟨n, .pending⟩ ∈ s.service.batch.members) ∧ s.busyTotal n = 0 then
            { (memberTest s g).svc n with service := .outOfService } else (memberTest s g).svc n) =
          if n ∈ g :: gs ∧ ⟨n, .pending⟩ ∈ s.service.batch.members ∧ s.busyTotal n = 0 then
            { s.svc n with service := .outOfService } else s.svc n := by
        intro n
        rw [svc]
        by_cases eq : n = g
        · subst eq
          simp [member, drains.2.2]
        · simp [eq]
      cases done : (s.service.batch.withResult g .drained).complete
      · rw [DrainBatch.settled_of_not_complete done] at batch
        obtain ⟨batch', svc'⟩ := ih (s := memberTest s g) (by rw [batch, groups]; exact once)
          (by rw [batch]; exact draining)
        refine ⟨?_, fun n => ?_⟩
        · rw [batch', batch, testedMembers_congr busy, testedMembers_cons_of_drains once drains]
          rfl
        · rw [svc', batch, busy, ← out]
          simp only [left]
      · rw [DrainBatch.settled_of_complete done] at batch
        have ended : (memberTest s g).service.batch.state ≠ .draining := by rw [batch]; decide
        have gone := ((DrainBatch.complete_iff _).mp done).2
        have empties : DrainBatch.complete
            { s.service.batch with members := testedMembers s (g :: gs) s.service.batch.members } = true := by
          refine (DrainBatch.complete_iff _).mpr ⟨.inl draining, fun m hm => ?_⟩
          rw [← testedMembers_cons_of_drains once drains] at hm
          obtain ⟨x, hx, rfl⟩ := List.mem_map.mp hm
          split
          · simp
          · exact gone x hx
        rw [foldl_memberTest_of_not_draining ended,
          completeIfDone_of_not_complete (s := memberTest s g) (by rw [batch]; rfl)]
        refine ⟨batch.trans (DrainBatch.settled_of_complete empties).symm, fun n => ?_⟩
        · rw [← out, if_neg]
          rintro ⟨-, pending, -⟩
          exact gone _ ((left n).mpr pending) rfl
    · rw [memberTest_of_not drains]
      obtain ⟨batch, svc⟩ := ih once draining
      refine ⟨?_, fun n => ?_⟩
      · rw [batch, testedMembers_cons_of_not once draining drains]
      · rw [svc]
        by_cases eq : n = g
        · subst eq
          have not_pending : ¬(⟨n, .pending⟩ ∈ s.service.batch.members ∧ s.busyTotal n = 0) := fun ⟨member, idle⟩ =>
            drains ⟨draining, (DrainBatch.resultOf_eq_some_iff once n .pending).mpr member, idle⟩
          rw [if_neg (by tauto), if_neg (by tauto)]
        · simp only [List.mem_cons, eq, false_or]

/-! ## The reports of the plant store (R4) -/

/-- R4: the controller before the member tests of a report. -/
def derivedReport (gs : List Nat) (b s : State) : State := reevaluate gs b (gs.foldl deriveCongestion s)

theorem takeReports_eq (gs : List Nat) (b s : State) :
    takeReports gs b s = gs.foldl memberTest (derivedReport gs b s) := rfl

theorem derivedReport_served (gs : List Nat) (b s : State) : Served s (derivedReport gs b s) :=
  (foldl_deriveCongestion_served gs s).trans (reevaluate_served _ _ _)

/-- R28, R45: but for the congestion states and the exhaustion of plans the controller's record is as it was. -/
theorem derivedReport_service (gs : List Nat) (b s : State) :
    (derivedReport gs b s).service =
      { s.service with
        groups := (derivedReport gs b s).service.groups, exhausted := (derivedReport gs b s).service.exhausted } := by
  have h := (reevaluate_exhaustionOnly gs b (gs.foldl deriveCongestion s)).2
  rw [foldl_deriveCongestion_service gs s] at h
  unfold derivedReport
  rw [h]

theorem derivedReport_batch (gs : List Nat) (b s : State) : (derivedReport gs b s).service.batch = s.service.batch := by
  rw [derivedReport_service]

theorem derivedReport_svc {gs : List Nat} (once : gs.Nodup) (b s : State) (m : Nat) :
    (derivedReport gs b s).svc m = if m ∈ gs then derivedSvc s m else s.svc m := by
  rw [derivedReport, (reevaluate_exhaustionOnly _ _ _).svc, foldl_deriveCongestion_svc once]

theorem derivedReport_state (gs : List Nat) (b s : State) (m : Nat) :
    ((derivedReport gs b s).svc m).service = (s.svc m).service := by
  rw [derivedReport, (reevaluate_exhaustionOnly _ _ _).svc, foldl_deriveCongestion_state]

/-- R37: reports after which no tested member is drained are derivations and re-evaluations. -/
theorem takeReports_of_not_drains {gs : List Nat} {b s : State} (h : ∀ g ∈ gs, ¬Drains s g) :
    takeReports gs b s = derivedReport gs b s := by
  rw [takeReports_eq]
  refine foldl_memberTest_of_not fun g hg ⟨state, pending, idle⟩ => h g hg ?_
  rw [derivedReport_batch] at state pending
  rw [(derivedReport_served gs b s).busyTotal] at idle
  exact ⟨state, pending, idle⟩

theorem countsMoved_iff (b s : State) (n : Nat) :
    countsMoved b s n = true ↔ ¬(s.idleCount n = b.idleCount n ∧ s.busyTotal n = b.busyTotal n) := by
  simp only [countsMoved, Bool.or_eq_true, bne_iff_ne, ne_eq, not_and_or]

/-- R4, R28: a report leaves each group's service record derived when its counts have moved, and else as it was. -/
theorem derivedReport_derived {gs : List Nat} (once : gs.Nodup) {b s : State}
    (others : ∀ n, n ∉ gs → s.group n = b.group n) (svc : ∀ n, s.svc n = b.svc n) (n : Nat) :
    Derived b (derivedReport (gs.filter (countsMoved b s)) b s) n := by
  have served := derivedReport_served (gs.filter (countsMoved b s)) b s
  unfold Derived
  rw [served.group, State.idleCount_congr (served.group n), State.busyTotal_congr (served.group n),
    derivedReport_svc (once.filter _)]
  simp only [List.mem_filter, countsMoved_iff]
  cases h : s.group n with
  | none =>
    rw [derivedSvc_of_none h, svc, ite_self]
  | some g =>
    rw [derivedSvc_of_some h, svc]
    by_cases same : s.idleCount n = b.idleCount n ∧ s.busyTotal n = b.busyTotal n
    · rw [if_neg (by tauto)]
      exact (if_pos same).symm
    · have listed : n ∈ gs := by
        by_contra absent
        exact same ⟨State.idleCount_congr (others n absent), State.busyTotal_congr (others n absent)⟩
      rw [if_pos ⟨listed, same⟩]
      exact (if_neg same).symm

end Sys2Proof.Machine
end

section
/-! The drain batch (R34 to R43): how a group joins it, how it is suspended and resumed, how a group returns, how its join
window closes, and how it ends. -/

namespace Sys2Proof.Machine

theorem SameElsewhere.trans {s t u : State} (h : SameElsewhere s t) (g : SameElsewhere t u) : SameElsewhere s u := by
  obtain ⟨p, a, r, m, t, st, l, f, q⟩ := h
  obtain ⟨p', a', r', m', t', st', l', f', q'⟩ := g
  exact ⟨fun x => (p x).trans (p' x), a'.trans a, r'.trans r, m'.trans m, t'.trans t, st'.trans st, l'.trans l,
    f'.trans f, q'.trans q⟩

theorem Served.sameElsewhere {s t : State} (h : Served s t) : SameElsewhere s t := h.planted.sameElsewhere

theorem Served.calls {s t : State} (h : Served s t) : t.calls = s.calls := h.planted.calls

/-! ## Notices (R188) -/

/-- R188: a port record once a notice has been made for it: queued, or dropped and counted. -/
def PortRecord.withNotice (n : Notice) (r : PortRecord) : PortRecord :=
  if r.notices.length < 64 then { r with notices := r.notices ++ [n] }
  else { r with drops := min (r.drops + 1) 65535 }

@[simp] theorem PortRecord.withNotice_state (n : Notice) (r : PortRecord) : (r.withNotice n).state = r.state := by
  unfold withNotice
  split <;> rfl

theorem notify_eq_ite (p : Port) (n : Notice) (s : State) :
    notify p n s = if (s.port p).state = .down then s else s.setPort p ((s.port p).withNotice n) := by
  rcases notify_cases p n s with ⟨down, h⟩ | ⟨notDown, room, h⟩ | ⟨notDown, full, h⟩
  · rw [if_pos down, h]
  · rw [if_neg notDown, h, PortRecord.withNotice, if_pos (show _ < 64 from room)]
  · rw [if_neg notDown, h, PortRecord.withNotice, if_neg (show ¬_ < 64 from full)]
    rfl

theorem notify_port_self {p : Port} {s : State} (h : (s.port p).state ≠ .down) (n : Notice) :
    (notify p n s).port p = (s.port p).withNotice n := by
  rw [notify_eq_ite, if_neg h, State.port_setPort_same]

/-- R188: a notice to the UP ports of a list without repetition is made once for each. -/
theorem notifyUp_port {ps : List Port} (once : ps.Nodup) (n : Notice) (s : State) (p : Port) :
    (notifyUp ps n s).port p = if p ∈ ps ∧ (s.port p).state = .up then (s.port p).withNotice n else s.port p := by
  induction ps generalizing s with
  | nil => simp [notifyUp]
  | cons q ps ih =>
    obtain ⟨apart, once⟩ := List.nodup_cons.mp once
    have rest : notifyUp (q :: ps) n s = notifyUp ps n (if s.isUp q then notify q n s else s) := rfl
    have up : s.isUp q = true ↔ (s.port q).state = .up := by simp [State.isUp]
    rw [rest, ih once]
    by_cases here : p = q
    · subst here
      rw [if_neg fun h => apart h.1]
      by_cases isUp : (s.port p).state = .up
      · rw [if_pos (up.mpr isUp), if_pos ⟨List.mem_cons_self, isUp⟩, notify_port_self (by rw [isUp]; decide)]
      · rw [if_neg (mt up.mp isUp), if_neg fun h => isUp h.2]
    · have same : (if s.isUp q then notify q n s else s).port p = s.port p := by
        split
        · exact notify_port_other q p n s here
        · rfl
      simp only [same, List.mem_cons, here, false_or]

theorem mem_allPorts (p : Port) : p ∈ allPorts := by cases p <;> decide

theorem allPorts_nodup : allPorts.Nodup := by decide

theorem notifyUp_eq (ps : List Port) (n : Notice) (s : State) :
    notifyUp ps n s = { s with ports := (notifyUp ps n s).ports } := by
  have told := (notifyUp_told ps n s).1
  rw [notifyUp_levels] at told
  exact told

/-- R38: the completion tells the contributors that are UP and empties the record; nothing else. -/
theorem completeBatch_eq (s : State) :
    completeBatch s =
      { s with service := { s.service with batch := .empty }, ports := (completeBatch s).ports } := by
  show (notifyUp _ _ s).setBatch .empty = _
  rw [notifyUp_eq]
  rfl

theorem completeBatch_port (s : State) (p : Port) :
    (completeBatch s).port p =
      if s.service.batch.contributors.get p = true ∧ (s.port p).state = .up then
        (s.port p).withNotice
          (.drainDone s.service.batch.members
            (s.service.batch.members.filter (fun m => m.result == .drained)).length)
      else s.port p := by
  have listed : p ∈ upContributors s ↔ s.service.batch.contributors.get p = true := by
    simp [upContributors, mem_allPorts]
  show (notifyUp (upContributors s) _ s).port p = _
  rw [notifyUp_port (ps := upContributors s) (allPorts_nodup.filter _), List.countP_eq_length_filter]
  simp only [listed]

/-! ## The deadline and the loss of a contributor (R42, R43) -/

theorem exec_deadlineExpiry (s : State) :
    exec .deadlineExpiry s =
      .next (if s.service.batch.state = .draining ∧ reached s s.service.batch.deadlineExpiry then passDeadline s else s) :=
  rfl

theorem exec_drainContributorLoss (p : Port) (s : State) :
    exec (.drainContributorLoss p) s = .next (if p ∈ s.service.losses then dropContributor p s else s) := rfl

theorem reached_iff (s : State) (x : Option Nat) : reached s x = true ↔ ∃ y, x = some y ∧ y ≤ s.now := by
  cases x <;> simp [reached]

theorem not_reached_iff (s : State) (x : Option Nat) : ¬reached s x = true ↔ ∀ y, x = some y → s.now < y := by
  simp only [reached_iff, not_exists, not_and, Nat.not_le]

/-- Settles O18. -/
theorem batchEnds : Obligations.BatchEnds := by
  refine ⟨fun s p => ⟨completeBatch_eq s, completeBatch_port s p⟩, ?_⟩
  rintro s b p rfl
  refine ⟨fun x draining expiry due => ?_, fun idle => ?_, fun lost => ?_, fun absent => ?_, fun n => ⟨?_, ?_, ?_⟩⟩
  · rw [exec_deadlineExpiry, if_pos ⟨draining, (reached_iff s _).mpr ⟨x, expiry, due⟩⟩]
    rfl
  · rw [exec_deadlineExpiry, if_neg]
    rintro ⟨draining, due⟩
    rcases idle with other | early
    · exact other draining
    · exact (not_reached_iff s _).mpr early due
  · rw [exec_drainContributorLoss, if_pos lost]
    rfl
  · rw [exec_drainContributorLoss, if_neg absent]
  · rw [notify_eq_ite, PortRecord.withNotice, apply_ite (s.setPort p)]
  · rw [notifyAllUp, notifyUp_port allPorts_nodup]
    by_cases up : (s.port p).state = .up
    · rw [if_pos ⟨mem_allPorts p, up⟩, if_pos up, notify_port_self (by rw [up]; decide)]
    · rw [if_neg fun h => up h.2, if_neg up]
  · exact notifyUp_eq _ n s

/-! ## The close of the join window (R36) -/

theorem closeWindow_of_not_forming {s : State} (h : s.service.batch.state ≠ .forming) : closeWindow s = s := if_pos h

theorem DrainBatch.allProtected_iff (b : DrainBatch) :
    b.allProtected = true ↔ ∀ m ∈ b.members, m.result = .isProtected := by
  simp [DrainBatch.allProtected]

theorem closeWindow_allProtected {s : State} (forming : s.service.batch.state = .forming)
    (all : ∀ m ∈ s.service.batch.members, m.result = .isProtected) : closeWindow s = completeBatch s := by
  unfold closeWindow
  rw [if_neg (not_not.mpr forming), if_pos ((DrainBatch.allProtected_iff _).mpr all)]

/-- R36: the record of a batch whose window closes with a member to drain. -/
def DrainBatch.started (now : Nat) (b : DrainBatch) : DrainBatch :=
  { b with
    state := .draining
    windowExpiry := none
    deadlineExpiry := if b.deadline = 0 then none else some (now + b.deadline * 1000) }

theorem closeWindow_starts {s : State} (forming : s.service.batch.state = .forming)
    (some_open : ∃ m ∈ s.service.batch.members, m.result ≠ .isProtected) :
    closeWindow s =
      completeIfDone
        (s.service.batch.pendingGroups.foldl memberTest (s.setBatch (s.service.batch.started s.now))) := by
  unfold closeWindow
  rw [if_neg (not_not.mpr forming), if_neg]
  · rfl
  · rw [DrainBatch.allProtected_iff]
    push Not
    exact some_open

/-- The tests of all pending groups test every pending member. -/
theorem testedMembers_pending (s : State) (b : DrainBatch) :
    testedMembers s b.pendingGroups b.members =
      b.members.map
        (fun m => if m.result = .pending ∧ s.busyTotal m.group = 0 then { m with result := .drained } else m) := by
  refine List.map_congr_left fun m hm => ?_
  have listed : m.result = .pending → m.group ∈ b.pendingGroups := fun pending =>
    (DrainBatch.mem_pendingGroups b m.group).mpr (pending ▸ hm)
  exact if_congr (by tauto) rfl rfl

/-- R36, R37: a window that closes with a member to drain starts the batch and tests the pending members. -/
theorem closeWindow_drains {s : State} (once : (s.service.batch.members.map (·.group)).Nodup)
    (forming : s.service.batch.state = .forming)
    (some_open : ∃ m ∈ s.service.batch.members, m.result ≠ .isProtected) :
    (closeWindow s).service.batch =
        DrainBatch.settled
          { s.service.batch.started s.now with
            members := testedMembers s s.service.batch.pendingGroups s.service.batch.members } ∧
      ∀ n, (closeWindow s).svc n =
        if n ∈ s.service.batch.pendingGroups ∧ s.busyTotal n = 0 then { s.svc n with service := .outOfService }
        else s.svc n := by
  rw [closeWindow_starts forming some_open]
  obtain ⟨batch, svc⟩ := completeIfDone_memberTests (s := s.setBatch (s.service.batch.started s.now))
    s.service.batch.pendingGroups once rfl
  refine ⟨batch, fun n => (svc n).trans ?_⟩
  exact if_congr (by rw [DrainBatch.mem_pendingGroups]; exact and_congr_right fun h => and_iff_right h) rfl rfl

theorem exec_windowExpiry (s : State) :
    exec .windowExpiry s = .next (if reached s s.service.batch.windowExpiry then closeWindow s else s) := rfl

/-- Settles O17. -/
theorem windowCloses : Obligations.WindowCloses := by
  rintro s b ms sound rfl rfl
  obtain ⟨-, once, -⟩ := sound
  have served := closeWindow_served s
  refine ⟨fun x expiry due => ?_, fun early => ?_, closeWindow_of_not_forming, fun forming all => ?_,
    fun forming some_open => ?_⟩
  · rw [exec_windowExpiry, if_pos ((reached_iff s _).mpr ⟨x, expiry, due⟩)]
  · rw [exec_windowExpiry, if_neg ((not_reached_iff s _).mpr early)]
  · exact ⟨by rw [closeWindow_allProtected forming all, completeBatch_service], served.plant, served.calls,
      served.sameElsewhere⟩
  · obtain ⟨batch, svc⟩ := closeWindow_drains once forming some_open
    refine ⟨?_, svc, served.plant, served.calls, served.sameElsewhere⟩
    rw [batch, testedMembers_pending, DrainBatch.settled_running (.inl rfl)]
    rfl

/-! ## The service states of the pending members (R39, R40) -/

theorem foldl_setService_svc (gs : List Nat) (v : ServiceState) (s : State) (n : Nat) :
    (gs.foldl (fun s g => setService g v s) s).svc n = if n ∈ gs then { s.svc n with service := v } else s.svc n := by
  induction gs generalizing s with
  | nil => rfl
  | cons g gs ih =>
    rw [List.foldl_cons, ih]
    by_cases eq : n = g
    · subst eq
      have here : (setService n v s).svc n = { s.svc n with service := v } := State.svc_setSvc_same _ _ _
      rw [here, if_pos List.mem_cons_self, ite_self]
    · have there : (setService g v s).svc n = s.svc n := State.svc_setSvc_other _ _ _ _ eq
      simp only [there, List.mem_cons, eq, false_or]

theorem foldl_setService_batch (gs : List Nat) (v : ServiceState) (s : State) :
    (gs.foldl (fun s g => setService g v s) s).service.batch = s.service.batch := by
  induction gs generalizing s with
  | nil => rfl
  | cons g gs ih => exact ih (setService g v s)

theorem movePending_batch (gs : List Nat) (v : ServiceState) (b s : State) :
    (movePending gs v b s).service.batch = s.service.batch := by
  rw [movePending, (reevaluate_exhaustionOnly _ _ _).batch, foldl_setService_batch]

theorem movePending_svc (gs : List Nat) (v : ServiceState) (b s : State) (n : Nat) :
    (movePending gs v b s).svc n = if n ∈ gs then { s.svc n with service := v } else s.svc n := by
  rw [movePending, (reevaluate_exhaustionOnly _ _ _).svc, foldl_setService_svc]

/-- R39: the record of a suspended batch. -/
def DrainBatch.paused (left : Option Nat) (b : DrainBatch) : DrainBatch :=
  { b with state := .suspended, windowExpiry := none, deadlineExpiry := none, remaining := left }

theorem suspendBatch_batch (left : Option Nat) (s : State) :
    (suspendBatch left s).service.batch = s.service.batch.paused left := movePending_batch _ _ _ _

theorem suspendBatch_svc (left : Option Nat) (s : State) (n : Nat) :
    (suspendBatch left s).svc n =
      if n ∈ s.service.batch.pendingGroups then { s.svc n with service := .drainSuspended } else s.svc n :=
  movePending_svc _ _ _ _ _

/-- R40: the record of a resumed batch. -/
def DrainBatch.resumed (now : Nat) (b : DrainBatch) : DrainBatch :=
  { b with state := .draining, deadlineExpiry := b.remaining.map (now + ·), remaining := none }

theorem resumeBatch_eq (s : State) :
    resumeBatch s =
      completeIfDone
        (s.service.batch.pendingGroups.foldl memberTest
          (movePending s.service.batch.pendingGroups .draining s
            (s.setBatch (s.service.batch.resumed s.now)))) := rfl

/-- R40: a resumed batch drains on, its pending members tested. -/
theorem resumeBatch_drains {s : State} (once : (s.service.batch.members.map (·.group)).Nodup) :
    (resumeBatch s).service.batch =
        DrainBatch.settled
          { s.service.batch.resumed s.now with
            members := testedMembers s s.service.batch.pendingGroups s.service.batch.members } ∧
      ∀ n, (resumeBatch s).svc n =
        if n ∈ s.service.batch.pendingGroups then
          { s.svc n with service := if s.busyTotal n = 0 then .outOfService else .draining }
        else s.svc n := by
  rw [resumeBatch_eq]
  have moved := movePending_batch s.service.batch.pendingGroups .draining s (s.setBatch (s.service.batch.resumed s.now))
  have svcMoved := movePending_svc s.service.batch.pendingGroups .draining s (s.setBatch (s.service.batch.resumed s.now))
  have served := movePending_served s.service.batch.pendingGroups .draining s
    (s.setBatch (s.service.batch.resumed s.now))
  generalize movePending s.service.batch.pendingGroups .draining s (s.setBatch (s.service.batch.resumed s.now)) = w
    at moved svcMoved served
  have moved : w.service.batch = s.service.batch.resumed s.now := moved
  have busy : ∀ n, w.busyTotal n = s.busyTotal n := served.busyTotal
  obtain ⟨batch, svc⟩ := completeIfDone_memberTests (s := w) s.service.batch.pendingGroups
    (by rw [moved]; exact once) (by rw [moved]; rfl)
  refine ⟨?_, fun n => ?_⟩
  · rw [batch, moved, testedMembers_congr busy]
    rfl
  · have members : w.service.batch.members = s.service.batch.members := by rw [moved]; rfl
    rw [svc, svcMoved, busy, members, State.svc_setBatch]
    simp only [← DrainBatch.mem_pendingGroups]
    by_cases pending : n ∈ s.service.batch.pendingGroups
    · by_cases idle : s.busyTotal n = 0 <;> simp [pending, idle]
    · simp [pending]

/-! ## DRAIN_SUSPEND and DRAIN_RESUME (R39, R40) -/

theorem exec_drainSuspend (r : Sender) (s : State) :
    exec (.drainSuspend r) s = request (.drainSuspend r) r RequestKind.drainSuspend.code handleDrainSuspend s := rfl

theorem exec_drainResume (r : Sender) (s : State) :
    exec (.drainResume r) s = request (.drainResume r) r RequestKind.drainResume.code handleDrainResume s := rfl

theorem handleDrainSuspend_refuses {u : State}
    (h : u.service.batch.state = .none ∨ u.service.batch.state = .suspended ∨
      (u.service.batch.state = .draining ∧ u.service.batch.deadlinePassed = true)) :
    handleDrainSuspend u = refuse .wrongState u := by
  rcases h with state | state | ⟨state, passed⟩
  · simp only [handleDrainSuspend, state]
  · simp only [handleDrainSuspend, state]
  · simp only [handleDrainSuspend, state, passed, if_true]

theorem handleDrainSuspend_completes {u : State} (forming : u.service.batch.state = .forming)
    (all : ∀ m ∈ u.service.batch.members, m.result = .isProtected) :
    handleDrainSuspend u = suspendReply (completeBatch u) := by
  simp only [handleDrainSuspend, forming, (DrainBatch.allProtected_iff _).mpr all, if_true]

/-- R39: what is left of the deadline of a batch that can be suspended. -/
theorem handleDrainSuspend_suspends {u : State} {left : Option Nat}
    (h : (u.service.batch.state = .forming ∧ (∃ m ∈ u.service.batch.members, m.result ≠ .isProtected) ∧
            left = (if u.service.batch.deadline = 0 then none else some (u.service.batch.deadline * 1000))) ∨
        (u.service.batch.state = .draining ∧ u.service.batch.deadlinePassed = false ∧
          left = u.service.batch.deadlineExpiry.map (· - u.now))) :
    handleDrainSuspend u = suspendReply (suspendBatch left u) := by
  rcases h with ⟨state, some_open, rfl⟩ | ⟨state, early, rfl⟩
  · have open_ : ¬u.service.batch.allProtected = true := by
      rw [DrainBatch.allProtected_iff]
      push Not
      exact some_open
    simp only [handleDrainSuspend, state, if_neg open_]
  · simp only [handleDrainSuspend, state, early, Bool.false_eq_true, if_false]

/-- Settles O14. -/
theorem drainSuspend : Obligations.DrainSuspend := by
  rintro r s u b takes rfl
  refine ⟨fun refused => ?_, fun forming all => ?_, fun left suspends => ?_⟩
  · exact answers_of rfl (exec_drainSuspend r s) takes (handleDrainSuspend_refuses refused)
  · have served := completeBatch_served u
    have service := completeBatch_service u
    refine ⟨completeBatch u, answers_of rfl (exec_drainSuspend r s) takes ?_, service, served.plant, served.calls,
      served.sameElsewhere⟩
    rw [handleDrainSuspend_completes forming all, suspendReply, service]
    rfl
  · have served := suspendBatch_served left u
    have batch := suspendBatch_batch left u
    refine ⟨suspendBatch left u, answers_of rfl (exec_drainSuspend r s) takes ?_, batch, suspendBatch_svc left u,
      served.plant, served.calls, served.sameElsewhere⟩
    rw [handleDrainSuspend_suspends suspends, suspendReply, batch]
    rfl

/-- Settles O15. -/
theorem drainResume : Obligations.DrainResume := by
  rintro r s u b ms takes sound rfl rfl
  have once : (u.service.batch.members.map (·.group)).Nodup := by
    have service : u.service = s.service := by rw [takes_blocks takes]
    rw [service]
    exact sound.2.1
  refine ⟨fun state => answers_of rfl (exec_drainResume r s) takes (if_neg state), fun suspended => ?_⟩
  obtain ⟨batch, svc⟩ := resumeBatch_drains once
  have served := resumeBatch_served u
  have now : (resumeBatch u).now = u.now := served.planted.now
  refine ⟨resumeBatch u, answers_of rfl (exec_drainResume r s) takes ?_, ?_, svc, served.plant, served.calls,
    served.sameElsewhere⟩
  · rw [← now]
    exact if_pos suspended
  rw [batch, testedMembers_pending, DrainBatch.settled_running (.inl rfl)]
  rfl

/-! ## RETURN_GROUP (R41) -/

theorem exec_returnGroup (r : Sender) (n : Nat) (s : State) :
    exec (.returnGroup r n) s = request (.returnGroup r n) r RequestKind.returnGroup.code (handleReturnGroup n) s := rfl

theorem toService_batch (n : Nat) (s : State) : (toService n s).service.batch = s.service.batch := by
  rw [toService, (reevaluate_exhaustionOnly _ _ _).batch]
  rfl

theorem toService_svc (n : Nat) (s : State) (m : Nat) :
    (toService n s).svc m = if m = n then { s.svc n with service := .inService } else s.svc m := by
  rw [toService, (reevaluate_exhaustionOnly _ _ _).svc]
  split
  · next h => rw [h]; exact State.svc_setSvc_same _ _ _
  · next h => exact State.svc_setSvc_other _ _ _ _ h

theorem returnGroup_pending {n : Nat} {s : State} (h : s.service.batch.resultOf n = some .pending) :
    returnGroup n s = completeIfDone (toService n (setResult n .returned s)) := if_pos h

theorem returnGroup_outOfService {n : Nat} {s : State} (h : s.service.batch.resultOf n ≠ some .pending)
    (out : (s.svc n).service = .outOfService) : returnGroup n s = toService n s := by
  rw [returnGroup, if_neg h, if_pos out]

theorem returnGroup_stays {n : Nat} {s : State} (h : s.service.batch.resultOf n ≠ some .pending)
    (other : (s.svc n).service ≠ .outOfService) : returnGroup n s = s := by
  rw [returnGroup, if_neg h, if_neg other]

theorem returnGroup_pending_batch {n : Nat} {s : State} (h : s.service.batch.resultOf n = some .pending) :
    (returnGroup n s).service.batch = (s.service.batch.withResult n .returned).settled := by
  rw [returnGroup_pending h, completeIfDone_service]
  exact congrArg DrainBatch.settled (toService_batch n _)

theorem returnGroup_pending_svc {n : Nat} {s : State} (h : s.service.batch.resultOf n = some .pending) (m : Nat) :
    (returnGroup n s).svc m = if m = n then { s.svc n with service := .inService } else s.svc m := by
  rw [returnGroup_pending h, completeIfDone_svc]
  exact toService_svc n _ m

/-- No entry of the group is PENDING. -/
def NotPending (s : State) (n : Nat) : Prop := ⟨n, .pending⟩ ∉ s.service.batch.members

theorem DrainBatch.settled_members {b : DrainBatch} {m : Member} (h : m ∈ b.settled.members) : m ∈ b.members := by
  cases done : b.complete
  · rwa [settled_of_not_complete done] at h
  · rw [settled_of_complete done] at h
    cases h

/-- R37: the tests leave the service record of a group that is not a pending member. -/
theorem foldl_memberTest_notPending (gs : List Nat) {s : State} {n : Nat} (h : NotPending s n) :
    NotPending (gs.foldl memberTest s) n ∧ (gs.foldl memberTest s).svc n = s.svc n := by
  induction gs generalizing s with
  | nil => exact ⟨h, rfl⟩
  | cons g gs ih =>
    rw [List.foldl_cons]
    by_cases drains : Drains s g
    · obtain ⟨batch, svc⟩ := memberTest_drained drains
      have still : NotPending (memberTest s g) n := by
        unfold NotPending
        rw [batch]
        intro listed
        rcases (DrainBatch.mem_withResult_iff _ _ _ _ _).mp (DrainBatch.settled_members listed) with
          ⟨-, listed⟩ | ⟨-, result, -⟩
        · exact h listed
        · cases result
      have other : n ≠ g := by
        rintro rfl
        exact h (DrainBatch.mem_of_resultOf drains.2.1)
      exact ⟨(ih still).1, by rw [(ih still).2, svc, if_neg other]⟩
    · rw [memberTest_of_not drains]
      exact ih h

theorem closeWindow_svc_notPending {s : State} {n : Nat} (h : NotPending s n) : (closeWindow s).svc n = s.svc n := by
  by_cases forming : s.service.batch.state = .forming
  · by_cases all : ∀ m ∈ s.service.batch.members, m.result = .isProtected
    · rw [closeWindow_allProtected forming all]
      exact State.svc_congr (by rw [completeBatch_service]) n
    · push Not at all
      rw [closeWindow_starts forming all, completeIfDone_svc]
      exact (foldl_memberTest_notPending (s := s.setBatch (s.service.batch.started s.now)) _ h).2
  · rw [closeWindow_of_not_forming forming]

theorem handleReturnGroup_refuses {n : Nat} {u : State} {st : Status}
    (h : FirstOf [(255 < n, .outOfRange), (u.group n = none, .wrongState)] st) :
    handleReturnGroup n u = refuse st (closeWindow u) := by
  unfold handleReturnGroup
  rcases h with ⟨range, rfl⟩ | ⟨range, ⟨undefined, rfl⟩ | ⟨-, noCheck⟩⟩
  · exact if_pos range
  · rw [if_neg (mt (Config.groups_le_iff n).mp range), undefined]
    rfl
  · exact noCheck.elim

theorem handleReturnGroup_returns {n : Nat} {u : State} (range : n ≤ 255) (defined : (u.group n).isSome = true) :
    handleReturnGroup n u =
      ⟨closeWindow (returnGroup n u), .ok, .service ((closeWindow (returnGroup n u)).svc n).service⟩ := by
  have range : ¬Config.groups ≤ n := Nat.not_le.mpr (Nat.lt_succ_of_le range)
  have defined : ¬(u.group n).isNone = true := by simpa using Option.isSome_iff_ne_none.mp defined
  simp only [handleReturnGroup, if_neg range, if_neg defined]

/-- R36: RETURN_GROUP opens no join window. -/
theorem returnGroup_not_forming {n : Nat} {s : State} (h : s.service.batch.state ≠ .forming) :
    (returnGroup n s).service.batch.state ≠ .forming := by
  by_cases pending : s.service.batch.resultOf n = some .pending
  · rw [returnGroup_pending_batch pending]
    cases done : (s.service.batch.withResult n .returned).complete
    · rw [DrainBatch.settled_of_not_complete done]
      exact h
    · rw [DrainBatch.settled_of_complete done]
      decide
  · by_cases out : (s.svc n).service = .outOfService
    · rw [returnGroup_outOfService pending out, toService_batch]
      exact h
    · rw [returnGroup_stays pending out]
      exact h

/-- Settles O16. -/
theorem returnGroup_settled : Obligations.ReturnGroup := by
  rintro r n s u b ms takes rfl rfl
  refine ⟨fun st check => ?_, fun range defined => ?_⟩
  · exact answers_of rfl (exec_returnGroup r n s) takes (handleReturnGroup_refuses check)
  have served := returnGroup_served n u
  refine ⟨returnGroup n u, answers_of rfl (exec_returnGroup r n s) takes (handleReturnGroup_returns range defined),
    fun pending => ?_, fun notPending out => ?_, fun notPending other => returnGroup_stays notPending other,
    fun notForming => ⟨closeWindow_of_not_forming notForming,
      closeWindow_of_not_forming (returnGroup_not_forming notForming)⟩⟩
  · have batch := returnGroup_pending_batch pending
    have svc := returnGroup_pending_svc pending
    have back : (returnGroup n u).svc n = { u.svc n with service := .inService } := by rw [svc, if_pos rfl]
    have gone : NotPending (returnGroup n u) n := by
      unfold NotPending
      rw [batch]
      intro listed
      rcases (DrainBatch.mem_withResult_iff _ _ _ _ _).mp (DrainBatch.settled_members listed) with
        ⟨other, -⟩ | ⟨-, result, -⟩
      · exact other rfl
      · cases result
    refine ⟨batch.trans ?_, back, ?_, fun m other => by rw [svc, if_neg other], served.plant, served.calls,
      served.sameElsewhere⟩
    · exact if_congr (DrainBatch.complete_iff _) rfl rfl
    · rw [closeWindow_svc_notPending gone, back]
  · rw [returnGroup_outOfService notPending out] at served ⊢
    exact ⟨toService_batch n u, by rw [toService_svc, if_pos rfl], fun m other => by rw [toService_svc, if_neg other],
      served.plant, served.calls, served.sameElsewhere⟩

/-! ## DRAIN_GROUP (R34, R35) -/

theorem exec_drainGroup (r : Sender) (n d : Nat) (s : State) :
    exec (.drainGroup r n d) s = request (.drainGroup r n d) r RequestKind.drainGroup.code (handleDrainGroup r.port n d) s :=
  rfl

/-- R34, R35: the batch that a group joins: opened when there is none, with the requester among its contributors. -/
def DrainBatch.joinedBy (p : Port) (deadline now : Nat) (b : DrainBatch) : DrainBatch :=
  { (if b.state = .none then
      { DrainBatch.empty with state := .forming, deadline := deadline, windowExpiry := some (now + 2000) }
    else b) with
    contributors := (if b.state = .none then PerPort.all false else b.contributors).set p true }

theorem addContributor_openBatch (p : Port) (d : Nat) (s : State) :
    addContributor p (openBatch d s) = s.setBatch (s.service.batch.joinedBy p d s.now) := by
  unfold addContributor openBatch DrainBatch.joinedBy
  by_cases none : s.service.batch.state = .none
  · simp only [if_pos none]
    rfl
  · simp only [if_neg none]

/-- R35: the batch with one member more. -/
def DrainBatch.adding (n : Nat) (v : MemberResult) (b : DrainBatch) : DrainBatch :=
  { b with members := b.members ++ [⟨n, v⟩] }

theorem DrainBatch.resultOf_adding {b : DrainBatch} {n : Nat} (h : b.resultOf n = none) (v : MemberResult) :
    (b.adding n v).resultOf n = some v := by
  have absent : b.members.find? (fun m => m.group == n) = none := by simpa [DrainBatch.resultOf] using h
  simp [DrainBatch.resultOf, DrainBatch.adding, absent]

/-- The entry of a group that has just joined is the one that its result is written in. -/
theorem DrainBatch.withResult_adding {b : DrainBatch} {n : Nat} (h : b.resultOf n = none) (v w : MemberResult) :
    (b.adding n v).withResult n w = b.adding n w := by
  have others : b.members.map (fun m => if m.group = n then { m with result := w } else m) = b.members := by
    conv_rhs => rw [← List.map_id b.members]
    exact List.map_congr_left fun m hm => if_neg ((DrainBatch.resultOf_eq_none_iff b n).mp h m hm)
  simp only [DrainBatch.withResult, DrainBatch.adding, List.map_append, others, List.map_cons, List.map_nil, if_true]

theorem addMember_protected {g : Group} (h : g.drainProtected = true) (n : Nat) (s : State) :
    addMember n g s = s.setBatch (s.service.batch.adding n .isProtected) := if_pos h

theorem addMember_unprotected {g : Group} (h : g.drainProtected = false) (n : Nat) (s : State) :
    addMember n g s =
      reevaluate [n] s
        (setService n (joinedService s.service.batch.state) (s.setBatch (s.service.batch.adding n .pending))) :=
  if_neg (by rw [h]; decide)

/-- R35: an unprotected group that joins is PENDING and drains as the batch does. -/
theorem addMember_pending {g : Group} (h : g.drainProtected = false) (n : Nat) (s : State) :
    (addMember n g s).service.batch = s.service.batch.adding n .pending ∧
      (addMember n g s).svc n = { s.svc n with service := joinedService s.service.batch.state } ∧
      (∀ m, m ≠ n → (addMember n g s).svc m = s.svc m) ∧ Served s (addMember n g s) := by
  rw [addMember_unprotected h]
  have same := reevaluate_exhaustionOnly [n] s
    (setService n (joinedService s.service.batch.state) (s.setBatch (s.service.batch.adding n .pending)))
  refine ⟨same.batch, ?_, fun m other => ?_, ((Served.setBatch s _).trans (Served.setSvc _ n _)).trans same.1⟩
  · rw [same.svc]
    exact State.svc_setSvc_same _ _ _
  · rw [same.svc]
    exact State.svc_setSvc_other _ _ _ _ other

theorem joinDraining_of_not {n : Nat} {g : Group} {s : State}
    (h : ¬(s.service.batch.state = .draining ∧ g.drainProtected = false)) : joinDraining n g s = s := if_neg h

theorem handleDrainGroup_refuses {p : Port} {n d : Nat} {u : State} {x : Status}
    (h : FirstOf
      [(255 < n, .outOfRange), (u.group n = none, .wrongState), ((u.service.batch.resultOf n).isSome = true, .ok),
        ((u.svc n).service = .outOfService, .wrongState),
        (¬(u.service.batch.state = .none ∨ u.service.batch.members.length < 32), .batchFull)] x) (refused : x ≠ .ok) :
    handleDrainGroup p n d u = refuse x u := by
  unfold handleDrainGroup
  rcases h with ⟨range, rfl⟩ | ⟨range, h⟩
  · exact if_pos range
  rw [if_neg (mt (Config.groups_le_iff n).mp range)]
  rcases h with ⟨undefined, rfl⟩ | ⟨defined, ⟨-, rfl⟩ | ⟨apart, h⟩⟩
  · rw [undefined]
  · exact absurd rfl refused
  obtain ⟨g, defined⟩ := Option.ne_none_iff_exists'.mp defined
  simp only [defined, if_neg apart]
  rcases h with ⟨out, rfl⟩ | ⟨able, ⟨full, rfl⟩ | ⟨-, noCheck⟩⟩
  · exact if_pos out
  · rw [not_or, Nat.not_lt] at full
    rw [if_neg able]
    exact if_pos full
  · exact noCheck.elim

theorem handleDrainGroup_member {p : Port} {n : Nat} {u : State} (range : n ≤ 255) (defined : (u.group n).isSome = true)
    (member : (u.service.batch.resultOf n).isSome = true) (d : Nat) :
    handleDrainGroup p n d u = drainReply n (outside 0 3600 d) (addContributor p u) := by
  have range : ¬Config.groups ≤ n := Nat.not_le.mpr (Nat.lt_succ_of_le range)
  obtain ⟨g, defined⟩ := Option.isSome_iff_exists.mp defined
  simp only [handleDrainGroup, if_neg range, defined, if_pos member]

theorem handleDrainGroup_joins {p : Port} {n : Nat} {u : State} {g : Group} (range : n ≤ 255)
    (defined : u.group n = some g) (apart : u.service.batch.resultOf n = none)
    (able : (u.svc n).service ≠ .outOfService)
    (room : u.service.batch.state = .none ∨ u.service.batch.members.length < 32) (d : Nat) :
    handleDrainGroup p n d u =
      drainReply n (outside 0 3600 d)
        (joinDraining n g (addMember n g (u.setBatch (u.service.batch.joinedBy p (min d 3600) u.now)))) := by
  have range : ¬Config.groups ≤ n := Nat.not_le.mpr (Nat.lt_succ_of_le range)
  have absent : ¬(u.service.batch.resultOf n).isSome = true := by rw [apart]; decide
  have fits : ¬(u.service.batch.state ≠ .none ∧ Config.batchMembers ≤ u.service.batch.members.length) := by
    show ¬(_ ∧ 32 ≤ _)
    rw [not_and_or, not_not, Nat.not_le]
    exact room
  simp only [handleDrainGroup, if_neg range, defined, if_neg absent, if_neg able, if_neg fits, joinBatch,
    addContributor_openBatch, clamp_zero]

/-- R34: the answer to DRAIN_GROUP, from the batch that the request leaves. -/
theorem drainReply_eq {v : State} {b : DrainBatch} {n : Nat} {x : Option MemberResult} (hb : v.service.batch = b)
    (hx : b.resultOf n = x) (d : Nat) :
    drainReply n (outside 0 3600 d) v =
      ⟨v, if 3600 < d then .adjusted else .ok, .drainJoined b.state x b.deadline⟩ := by
  rw [drainReply, hb, hx, okOr_outside_zero]

theorem SameElsewhere.of_calls {s t : State} (h : t = { s with calls := t.calls }) : SameElsewhere s t := by
  refine ⟨(PortsTold.of_ports (s := s) (t := t) (by rw [h])).1, ?_⟩
  rw [h]
  exact ⟨rfl, rfl, rfl, rfl, rfl, rfl, rfl, rfl⟩

/-- R35: the state in which an unprotected group that joins a DRAINING batch is tested. -/
def joinedUntested (n : Nat) (g : Group) (s : State) : State :=
  if (addMember n g s).service.batch.deadlinePassed then askRelease [n] (addMember n g s) else addMember n g s

theorem joinDraining_addMember {n : Nat} {g : Group} {s : State} (draining : s.service.batch.state = .draining)
    (h : g.drainProtected = false) :
    joinDraining n g (addMember n g s) = memberTest (joinedUntested n g s) n :=
  if_pos ⟨by rw [(addMember_pending h n s).1]; exact draining, h⟩

/-- R35: the group is the last member, PENDING, and its calls are asked for when the deadline has passed. -/
theorem joinedUntested_spec {g : Group} (h : g.drainProtected = false) (n : Nat) (s : State) :
    (joinedUntested n g s).service.batch = s.service.batch.adding n .pending ∧
      (joinedUntested n g s).svc n = { s.svc n with service := joinedService s.service.batch.state } ∧
      (∀ m, m ≠ n → (joinedUntested n g s).svc m = s.svc m) ∧ (joinedUntested n g s).plant = s.plant ∧
      SameElsewhere s (joinedUntested n g s) ∧
      (joinedUntested n g s).calls =
        if s.service.batch.deadlinePassed = true then
          { s.calls with releaseLists := s.calls.releaseLists ++ [[n]] }
        else s.calls := by
  obtain ⟨batch, here, others, served⟩ := addMember_pending h n s
  have passed : (addMember n g s).service.batch.deadlinePassed = s.service.batch.deadlinePassed := by rw [batch]; rfl
  unfold joinedUntested
  rw [passed]
  by_cases late : s.service.batch.deadlinePassed = true
  · rw [if_pos late, if_pos late]
    refine ⟨batch, here, others, served.plant, served.sameElsewhere.trans (SameElsewhere.of_calls rfl), ?_⟩
    rw [← served.calls]
    rfl
  · rw [if_neg late, if_neg late]
    exact ⟨batch, here, others, served.plant, served.sameElsewhere, served.calls⟩

/-- Settles O13. -/
theorem drainGroupJoins : Obligations.DrainGroupJoins := by
  rintro r n d s u c st old b rfl takes rfl rfl hb
  obtain rfl : b = u.service.batch.joinedBy r.port (min d 3600) u.now := hb
  have answer := fun {v st x} => answers_of (v := v) (st := st) (x := x) rfl (exec_drainGroup r n d s) takes
  refine ⟨fun x check refused => answer (handleDrainGroup_refuses check refused), fun x range defined member => ?_,
    fun g range defined apart fresh able room => ?_⟩
  · refine answer ?_
    rw [handleDrainGroup_member range defined (by rw [member]; rfl), drainReply_eq (v := addContributor r.port u) rfl member]
    rfl
  have handled := handleDrainGroup_joins (p := r.port) range defined apart able room d
  generalize u.service.batch.joinedBy r.port (min d 3600) u.now = b at fresh handled ⊢
  refine ⟨fun isProtected => ?_, fun unprotected notDraining => ?_, fun unprotected draining busy => ?_,
    fun unprotected draining idle => ?_⟩
  · rw [addMember_protected isProtected, joinDraining_of_not (by simp [isProtected])] at handled
    exact answer (handled.trans (drainReply_eq (b := b.adding n .isProtected) rfl (DrainBatch.resultOf_adding fresh _) d))
  · obtain ⟨batch, here, others, served⟩ := addMember_pending unprotected n (u.setBatch b)
    have fromU : Served u (addMember n g (u.setBatch b)) := (Served.setBatch u b).trans served
    rw [joinDraining_of_not (by rw [batch]; exact fun h => notDraining h.1)] at handled
    exact ⟨_, answer (handled.trans (drainReply_eq batch (DrainBatch.resultOf_adding fresh _) d)), batch, here, others,
      fromU.plant, fromU.sameElsewhere, fromU.calls⟩
  all_goals
    rw [joinDraining_addMember (s := u.setBatch b) draining unprotected] at handled
    obtain ⟨batch, here, others, plant, elsewhere, calls⟩ := joinedUntested_spec unprotected n (u.setBatch b)
    have elsewhere : SameElsewhere u (joinedUntested n g (u.setBatch b)) :=
      (Served.setBatch u b).sameElsewhere.trans elsewhere
    have sameBusy : (joinedUntested n g (u.setBatch b)).busyTotal n = u.busyTotal n :=
      State.busyTotal_congr (by simp only [State.group, plant, State.setBatch_plant])
  · rw [memberTest_of_not (fun drains => by rw [← sameBusy, drains.2.2] at busy; exact absurd busy (by decide))] at handled
    refine ⟨_, answer (handled.trans ?_), batch, ?_, others, plant, elsewhere, calls⟩
    · rw [drainReply_eq batch (DrainBatch.resultOf_adding fresh _) d, ← draining]
      rfl
    · rw [here, State.batch_setBatch, draining]
      rfl
  · have drains : Drains (joinedUntested n g (u.setBatch b)) n :=
      ⟨by rw [batch]; exact draining, by rw [batch]; exact DrainBatch.resultOf_adding fresh _, sameBusy.trans idle⟩
    obtain ⟨batchV, svcV⟩ := memberTest_drained drains
    have tested := memberTest_served (joinedUntested n g (u.setBatch b)) n
    rw [batch, State.batch_setBatch, DrainBatch.withResult_adding fresh,
      DrainBatch.settled_running (b := b.adding n .drained) (.inl draining)] at batchV
    refine ⟨_, answer (handled.trans (drainReply_eq rfl rfl d)), batchV.trans ?_, ?_, fun m other => ?_,
      tested.plant.trans plant, elsewhere.trans tested.sameElsewhere, tested.calls.trans calls⟩
    · have same : (b.adding n .drained).members.any (fun m => m.result == .pending) =
          b.members.any (fun m => m.result == .pending) := by
        simp [DrainBatch.adding]
      rw [same]
      rfl
    · rw [svcV, if_pos rfl, here]
      rfl
    · rw [svcV, if_neg other, others m other]
      rfl

end Sys2Proof.Machine
end

section
/-! Chapter 1: DEFINE_GROUP, SET_GROUP_PARAMS, DELETE_GROUP, the release of a leg and the expiry of a guard. -/

namespace Sys2Proof.Machine

/-! ## Ordered checks -/

/-- R187: a chain of conditions that says what a table of checks says answers the status of the table. -/
theorem firstOf_ite_eq {α : Type} {fails : Prop} {st x : Status} {rest : List (Prop × Status)} {c : Prop} [Decidable c]
    {answer : Status → α} {others : α} (h : FirstOf ((fails, st) :: rest) x) (same : c ↔ fails)
    (later : FirstOf rest x → others = answer x) : (if c then answer st else others) = answer x := by
  rcases h with ⟨failed, rfl⟩ | ⟨passed, h⟩
  · exact if_pos (same.mpr failed)
  · rw [if_neg (mt same.mp passed)]
    exact later h

/-! ## Ranges of circuits and the circuits of a group (R3, R5) -/

theorem rangeHas_iff (x : Range) (c : Nat) : rangeHas x c = true ↔ x.first ≤ c ∧ c < x.first + x.count := by
  simp [rangeHas]

theorem rangesMeet_iff {x y : Range} (hx : x.count ≠ 0) (hy : y.count ≠ 0) :
    rangesMeet x y = true ↔ ∃ c, rangeHas x c = true ∧ rangeHas y c = true := by
  simp only [rangesMeet, rangeHas_iff, Bool.and_eq_true, decide_eq_true_eq]
  constructor
  · exact fun h => ⟨max x.first y.first, by omega, by omega⟩
  · rintro ⟨c, hc⟩
    omega

theorem rangesApart_iff {rs : List Range} (h : ∀ x ∈ rs, x.count ≠ 0) :
    rangesApart rs = true ↔ rs.Pairwise (fun x y => ∀ c, ¬(rangeHas x c = true ∧ rangeHas y c = true)) := by
  induction rs with
  | nil => simp [rangesApart]
  | cons x rs ih =>
    obtain ⟨hx, hrs⟩ := List.forall_mem_cons.mp h
    rw [rangesApart, Bool.and_eq_true, ih hrs, List.pairwise_cons, List.all_eq_true]
    refine and_congr_left fun _ => forall₂_congr fun y hy => ?_
    rw [Bool.not_eq_true', ← Bool.not_eq_true, rangesMeet_iff hx (hrs y hy), not_exists]

theorem rangesWellFormed_iff (rs : List Range) :
    rangesWellFormed rs = true ↔
      1 ≤ rs.length ∧ rs.length ≤ 4 ∧ (∀ x ∈ rs, x.count ≠ 0) ∧
        rs.Pairwise (fun x y => ∀ c, ¬(rangeHas x c = true ∧ rangeHas y c = true)) := by
  simp only [rangesWellFormed, Bool.and_eq_true, decide_eq_true_eq, List.all_eq_true, and_assoc]
  exact and_congr_right fun _ => and_congr_right fun _ => and_congr_right rangesApart_iff

theorem rangesFit_iff (rs : List Range) : rangesFit rs = true ↔ ¬∃ x ∈ rs, 16384 < x.first + x.count := by
  simp only [rangesFit, List.all_eq_true, decide_eq_true_eq, not_exists, not_and, Nat.not_lt]
  exact Iff.rfl

theorem mem_groupCircuits {s : State} (canonical : s.plant.circuits.wf = true) {n : Nat} {x : Nat × Equipped} :
    x ∈ groupCircuits s n ↔ s.circuit x.1 = some x.2 ∧ x.2.group = n := by
  refine ⟨circuit_of_mem_groupCircuits canonical, fun ⟨here, mine⟩ => List.mem_filterMap.mpr ⟨(x.1, some x.2), ?_, ?_⟩⟩
  · exact (Table.mem_iff _ _ _ canonical).mpr ⟨here, Option.some_ne_none _⟩
  · exact if_pos mine

theorem Equipped.inUse_iff (e : Equipped) : e.inUse = true ↔ e.occupancy ≠ .idle := by
  unfold Equipped.inUse
  cases e.occupancy <;> simp

theorem groupInUse_iff {s : State} (canonical : s.plant.circuits.wf = true) (n : Nat) :
    groupInUse s n = true ↔ ∃ c e, s.circuit c = some e ∧ e.group = n ∧ e.occupancy ≠ .idle := by
  simp only [groupInUse, List.any_eq_true, mem_groupCircuits canonical, Equipped.inUse_iff, Prod.exists, and_assoc]

theorem assignedElsewhere_iff {s : State} (canonical : s.plant.circuits.wf = true) (n : Nat) (rs : List Range) :
    assignedElsewhere s n rs = true ↔ ∃ c e, inRanges rs c = true ∧ s.circuit c = some e ∧ e.group ≠ n := by
  constructor
  · intro h
    obtain ⟨⟨c, e⟩, listed, found⟩ := List.any_eq_true.mp h
    cases e with
    | none => cases found
    | some e =>
      obtain ⟨inside, other⟩ : inRanges rs c = true ∧ e.group ≠ n := by simpa using found
      exact ⟨c, e, inside, ((Table.mem_iff _ _ _ canonical).mp listed).1, other⟩
  · rintro ⟨c, e, inside, here, other⟩
    by_contra none
    exact other (not_assignedElsewhere (Bool.eq_false_iff.mpr none) here inside)

/-! ## DEFINE_GROUP: its checks (R5) -/

theorem Arg.value?_eq_some_iff {α : Type} (x : Arg α) (a : α) : x.value? = some a ↔ x = .given a := by
  cases x <;> simp [Arg.value?]

theorem definitionRefusal_of_firstOf {d : GroupDefinition} {u : State} (canonical : u.plant.circuits.wf = true)
    {st : Status}
    (h : FirstOf
      [(¬d.group ≤ 255, .outOfRange), (¬d.carrier ≤ 63, .outOfRange),
        (¬(1 ≤ d.ranges.length ∧ d.ranges.length ≤ 4 ∧ (∀ x ∈ d.ranges, x.count ≠ 0) ∧
            d.ranges.Pairwise (fun x y => ∀ c, ¬(rangeHas x c = true ∧ rangeHas y c = true))), .badRequest),
        (∃ x ∈ d.ranges, 16384 < x.first + x.count, .outOfRange), (u.plant.locked = true, .plantLocked),
        ((u.group d.group).isSome = true ∧ ∃ c e, u.circuit c = some e ∧ e.group = d.group ∧ e.occupancy ≠ .idle,
          .groupBusy),
        (∃ c e, inRanges d.ranges c = true ∧ u.circuit c = some e ∧ e.group ≠ d.group, .circuitAssigned)] st) :
    definitionRefusal d u = some st := by
  unfold definitionRefusal
  refine firstOf_ite_eq h (by rw [Config.groups_le_iff, Nat.not_le]) fun h => ?_
  refine firstOf_ite_eq h (by rw [Config.carriers_le_iff, Nat.not_le]) fun h => ?_
  refine firstOf_ite_eq h (by rw [← rangesWellFormed_iff, Bool.not_eq_true', Bool.not_eq_true]) fun h => ?_
  refine firstOf_ite_eq h (by rw [← not_iff_not, ← rangesFit_iff, Bool.not_eq_true', Bool.not_eq_false]) fun h => ?_
  refine firstOf_ite_eq h Iff.rfl fun h => ?_
  refine firstOf_ite_eq h (by rw [Bool.and_eq_true, groupInUse_iff canonical]) fun h => ?_
  exact firstOf_ite_eq h (assignedElsewhere_iff canonical _ _) False.elim

theorem handleDefineGroup_formless {d : GroupDefinition}
    (h : d.direction.value? = none ∨ d.glare.value? = none ∨ d.hunt.value? = none) (u : State) :
    handleDefineGroup d u = refuse .badRequest u := by
  unfold handleDefineGroup
  split
  · next dir gl hu eqDir eqGl eqHu => simp [eqDir, eqGl, eqHu] at h
  · rfl

theorem handleDefineGroup_refuses {d : GroupDefinition} {dir : Direction} {gl : GlareRule} {hu : HuntMode} {u : State}
    {st : Status} (hdir : d.direction = .given dir) (hgl : d.glare = .given gl) (hhu : d.hunt = .given hu)
    (h : definitionRefusal d u = some st) : handleDefineGroup d u = refuse st u := by
  simp only [handleDefineGroup, hdir, hgl, hhu, Arg.value?, h]

theorem exec_defineGroup (r : Sender) (d : GroupDefinition) (s : State) :
    exec (.defineGroup r d) s =
      request (.defineGroup r d) r RequestKind.defineGroup.code (handleDefineGroup d) s := rfl

theorem PlantSound.canonical {s : State} (h : PlantSound s) : s.plant.circuits.wf = true := h.1

/-- Settles O2. -/
theorem defineGroupChecks : Obligations.DefineGroupChecks := by
  intro r d s u sound takes
  have sound : PlantSound u := sound.of_plant (takes_plant takes)
  have answer := fun {v st x} => answers_of (v := v) (st := st) (x := x) rfl (exec_defineGroup r d s) takes
  exact ⟨fun formless => answer (handleDefineGroup_formless formless u), fun dir gl hu st hdir hgl hhu check =>
    answer (handleDefineGroup_refuses hdir hgl hhu (definitionRefusal_of_firstOf sound.canonical check))⟩

/-! ## SET_GROUP_PARAMS (R8) -/

theorem Arg.bad_iff {α : Type} (x : Arg α) : x.bad = true ↔ x = .undefined := by
  cases x <;> simp [Arg.bad]

theorem changesIdentity_iff (p : GroupChanges) (g : Group) :
    changesIdentity p g = true ↔
      p.carrier.getD g.carrier ≠ g.carrier ∨ p.direction.orElse g.direction ≠ g.direction ∨
        p.glare.orElse g.glare ≠ g.glare := by
  simp only [changesIdentity, Bool.or_eq_true, bne_iff_ne, or_assoc]

theorem changeGroup_eq (n : Nat) (p : GroupChanges) (g : Group) (s : State) :
    changeGroup n p g s =
      if p.threshold.isSome = true ∨ p.hysteresis.isSome = true then
        rederive n (s.setGroup n (some (changedRecord p g)))
      else s.setGroup n (some (changedRecord p g)) := by
  simp only [changeGroup, Bool.or_eq_true]

theorem handleSetGroupParams_refuses {n : Nat} {p : GroupChanges} {u : State} {st : Status}
    (h : FirstOf
      [(p.direction = .undefined ∨ p.glare = .undefined ∨ p.hunt = .undefined, .badRequest), (255 < n, .outOfRange),
        (63 < p.carrier.getD 0, .outOfRange), (u.group n = none, .wrongState),
        (u.plant.locked = true ∧ ∃ g, u.group n = some g ∧
          (p.carrier.getD g.carrier ≠ g.carrier ∨ p.direction.orElse g.direction ≠ g.direction ∨
            p.glare.orElse g.glare ≠ g.glare), .plantLocked)] st) :
    handleSetGroupParams n p u = refuse st u := by
  unfold handleSetGroupParams
  refine firstOf_ite_eq (answer := fun st => refuse st u) h
    (by simp only [Bool.or_eq_true, Arg.bad_iff, or_assoc]) fun h => ?_
  refine firstOf_ite_eq (answer := fun st => refuse st u) h (Config.groups_le_iff n) fun h => ?_
  refine firstOf_ite_eq (answer := fun st => refuse st u) h (Config.carriers_le_iff _) fun h => ?_
  rcases h with ⟨undefined, rfl⟩ | ⟨-, h⟩
  · rw [undefined]
  cases defined : u.group n with
  | none => simp [FirstOf, defined] at h
  | some g =>
    refine firstOf_ite_eq (answer := fun st => refuse st u) h ?_ False.elim
    simp [changesIdentity_iff, defined]

theorem handleSetGroupParams_stores {n : Nat} {p : GroupChanges} {u : State} {g : Group}
    (formed : p.direction ≠ .undefined ∧ p.glare ≠ .undefined ∧ p.hunt ≠ .undefined) (range : n ≤ 255)
    (carrier : p.carrier.getD 0 ≤ 63) (defined : u.group n = some g)
    (able : u.plant.locked = false ∨ changesIdentity p g = false) :
    handleSetGroupParams n p u = ⟨changeGroup n p g u, okOr (changesClamped p), .nothing⟩ := by
  have form : ¬(p.direction.bad || p.glare.bad || p.hunt.bad) = true := by
    simpa only [Bool.or_eq_true, Arg.bad_iff, not_or, and_assoc] using formed
  have allowed : ¬(u.plant.locked && changesIdentity p g) = true := by
    rcases able with able | able <;> simp [able]
  simp only [handleSetGroupParams, if_neg form, Config.groups_le_iff, if_neg (Nat.not_lt.mpr range),
    Config.carriers_le_iff, if_neg (Nat.not_lt.mpr carrier), defined, if_neg allowed]

theorem exec_setGroupParams (r : Sender) (n : Nat) (p : GroupChanges) (s : State) :
    exec (.setGroupParams r n p) s =
      request (.setGroupParams r n p) r RequestKind.setGroupParams.code (handleSetGroupParams n p) s := rfl

/-- Settles O5. -/
theorem setGroupParamsStores : Obligations.SetGroupParamsStores := by
  intro r n p s u takes
  have answer := fun {v st x} => answers_of (v := v) (st := st) (x := x) rfl (exec_setGroupParams r n p s) takes
  refine ⟨fun st check => answer (handleSetGroupParams_refuses check), ?_⟩
  rintro g hdir hgl hhu range carrier defined able w rfl
  have able : u.plant.locked = false ∨ changesIdentity p g = false := by
    refine able.imp_right fun same => Bool.eq_false_iff.mpr (mt (changesIdentity_iff p g).mp ?_)
    simpa only [not_or, not_not] using same
  refine answer ((handleSetGroupParams_stores ⟨hdir, hgl, hhu⟩ range carrier defined able).trans ?_)
  rw [changeGroup_eq]
  rfl

/-! ## DELETE_GROUP (R9) -/

theorem clearGroupLevel_told (b : State) (n : Nat) (s : State) : Told s (clearGroupLevel b n s) := by
  unfold clearGroupLevel
  split
  · exact Told.refl s
  · exact reportLevel_told _ _ s

/-- R9: the stores of a deleted group, before its level and its plans are looked at. -/
def groupRemoved (n : Nat) (s : State) : State := ((unequip n [] s).setGroup n none).setSvc n .initial

theorem deleteGroup_exhaustionOnly (n : Nat) (s : State) : ExhaustionOnly (groupRemoved n s) (deleteGroup n s) :=
  (clearGroupLevel_told s n (groupRemoved n s)).exhaustionOnly.trans (reevaluate_exhaustionOnly _ _ _)

theorem groupRemoved_circuit {s : State} (canonical : s.plant.circuits.wf = true) (n c : Nat) :
    (groupRemoved n s).circuit c = (s.circuit c).filter (fun e => decide (e.group ≠ n)) := by
  have h := unequip_circuit n [] s c canonical
  cases here : s.circuit c with
  | none => rw [here] at h; exact h
  | some e =>
    rw [here] at h
    by_cases mine : e.group = n
    · rw [Option.filter_some, if_neg (by simpa using mine)]
      exact h.trans (if_pos ⟨mine, rfl⟩)
    · rw [Option.filter_some, if_pos (by simpa using mine)]
      exact h.trans (if_neg fun both => mine both.1)

theorem groupRemoved_group (n : Nat) (s : State) (m : Nat) :
    (groupRemoved n s).group m = if m = n then none else s.group m := Table.get_set _ _ _ _

theorem groupRemoved_svc (n : Nat) (s : State) (m : Nat) :
    (groupRemoved n s).svc m = if m = n then .initial else s.svc m := Table.get_set _ _ _ _

/-- R9: what is removed with a group, and what stays. -/
theorem deleteGroup_spec {s : State} (canonical : s.plant.circuits.wf = true) (n : Nat) :
    (∀ m, (deleteGroup n s).group m = if m = n then none else s.group m) ∧
      (∀ m, (deleteGroup n s).svc m = if m = n then .initial else s.svc m) ∧
      (∀ c, (deleteGroup n s).circuit c = (s.circuit c).filter (fun e => decide (e.group ≠ n))) ∧
      (deleteGroup n s).plant.locked = s.plant.locked ∧ (deleteGroup n s).service.batch = s.service.batch := by
  have same := deleteGroup_exhaustionOnly n s
  exact ⟨fun m => (same.1.group m).trans (groupRemoved_group n s m), fun m => (same.svc m).trans (groupRemoved_svc n s m),
    fun c => (same.1.circuit c).trans (groupRemoved_circuit canonical n c), by rw [same.1.plant]; rfl, same.batch⟩

theorem exec_deleteGroup (r : Sender) (n : Nat) (s : State) :
    exec (.deleteGroup r n) s =
      request (.deleteGroup r n) r RequestKind.deleteGroup.code (handleDeleteGroup n) s := rfl

/-- Settles O6. -/
theorem deleteGroupRemoves : Obligations.DeleteGroupRemoves := by
  intro r n s u sound takes
  have canonical : u.plant.circuits.wf = true := (sound.of_plant (takes_plant takes)).canonical
  have answer := fun {v st x} => answers_of (v := v) (st := st) (x := x) rfl (exec_deleteGroup r n s) takes
  have handled : ∀ range : n ≤ 255, handleDeleteGroup n u =
      if u.plant.locked then refuse .plantLocked u
      else if (u.group n).isNone then ⟨u, .ok, .nothing⟩
      else if groupInUse u n || u.service.batch.resultOf n == some .pending then refuse .groupBusy u
      else ⟨deleteGroup n u, .ok, .nothing⟩ := fun range =>
    if_neg (mt (Config.groups_le_iff n).mp (Nat.not_lt.mpr range))
  refine ⟨fun range => answer (if_pos ((Config.groups_le_iff n).mpr range)), fun range locked => ?_,
    fun range unlocked undefined => ?_, fun range unlocked defined busy => ?_, fun range unlocked defined idle apart => ?_⟩
  · exact answer ((handled range).trans (if_pos locked))
  · exact answer ((handled range).trans (by rw [unlocked, undefined]; rfl))
  · have busy : (groupInUse u n || u.service.batch.resultOf n == some .pending) = true := by
      simpa only [Bool.or_eq_true, groupInUse_iff canonical, beq_iff_eq] using busy
    refine answer ((handled range).trans ?_)
    rw [unlocked, if_neg Bool.false_ne_true, if_neg (by simp [Option.isSome_iff_ne_none.mp defined]), if_pos busy]
    rfl
  · have free : ¬(groupInUse u n || u.service.batch.resultOf n == some .pending) = true := by
      simp only [Bool.or_eq_true, groupInUse_iff canonical, beq_iff_eq, not_or, apart, not_false_iff, and_true]
      rintro ⟨c, e, here, mine, used⟩
      exact used (idle c e here mine)
    obtain ⟨group, svc, circuit, locked, batch⟩ := deleteGroup_spec canonical n
    have planted := deleteGroup_planted n u
    refine ⟨deleteGroup n u, answer ((handled range).trans ?_), by rw [group, if_pos rfl], by rw [svc, if_pos rfl],
      fun m other => ⟨by rw [group, if_neg other], by rw [svc, if_neg other]⟩, ?_, fun c other => ?_,
      locked.trans unlocked, batch, planted.sameElsewhere, planted.calls⟩
    · rw [unlocked, if_neg Bool.false_ne_true, if_neg (by simp [Option.isSome_iff_ne_none.mp defined]), if_neg free]
    · rintro c ⟨e, here, mine⟩
      rw [circuit, here, Option.filter_some, if_neg (by simpa using mine)]
    · rw [circuit]
      cases here : u.circuit c with
      | none => rfl
      | some e => exact if_pos (by simpa using other e here)

/-! ## Rebuilding a group (R6, R7) -/

/-- R6, R7: a group's record with the idle set and the counts of some circuits. -/
def Group.counted (cs : List (Nat × Equipped)) (r : Group) : Group :=
  { r with
    idleSet := (inCondition .available cs).map Prod.fst
    available := (inCondition .available cs).length
    blockedIdle := (inCondition .blockedIdle cs).length
    busyIn := (inCondition .busyIn cs).length
    busyOut := (inCondition .busyOut cs).length
    inGuard := (inCondition .inGuard cs).length }

theorem rebuild_eq (s : State) (n : Nat) :
    rebuild s n = (s.group n).elim s (fun r => s.setGroup n (some (r.counted (groupCircuits s n)))) := by
  unfold rebuild
  cases s.group n <;> rfl

theorem setGroup_group (s : State) (n m : Nat) (g : Option Group) :
    (s.setGroup n g).group m = if m = n then g else s.group m := Table.get_set _ _ _ _

/-- The state before the rebuilding of a group that is defined: its circuits are those of the ranges, and its record is
stored. -/
def groupEquipped (d : GroupDefinition) (dir : Direction) (gl : GlareRule) (hu : HuntMode) (s : State) : State :=
  (equip d.group d.ranges (unequip d.group d.ranges
    (if (s.group d.group).isSome then s else s.setSvc d.group .initial))).setGroup d.group
      (some (definedRecord d dir gl hu ((s.group d.group).getD .defaults)))

theorem defineGroup_eq (d : GroupDefinition) (dir : Direction) (gl : GlareRule) (hu : HuntMode) (s : State) :
    defineGroup d dir gl hu s = report [d.group] s (rebuild (groupEquipped d dir gl hu s) d.group) := rfl

theorem equip_eq (n : Nat) (rs : List Range) (s : State) :
    equip n rs s = { s with plant := { s.plant with circuits := (equip n rs s).plant.circuits } } := by
  unfold equip
  generalize circuitsOfAll rs = cs
  induction cs with
  | nil => rfl
  | cons c cs ih =>
    simp only [List.foldr_cons]
    split
    · exact ih
    · rw [ih]
      rfl

theorem groupEquipped_group (d : GroupDefinition) (dir : Direction) (gl : GlareRule) (hu : HuntMode) (s : State)
    (m : Nat) :
    (groupEquipped d dir gl hu s).group m =
      if m = d.group then some (definedRecord d dir gl hu ((s.group d.group).getD .defaults)) else s.group m := by
  rw [groupEquipped, setGroup_group]
  refine if_congr Iff.rfl rfl ?_
  rw [equip_eq]
  split <;> rfl

theorem groupEquipped_rest (d : GroupDefinition) (dir : Direction) (gl : GlareRule) (hu : HuntMode) (s : State) :
    (groupEquipped d dir gl hu s).plant.locked = s.plant.locked ∧
      (groupEquipped d dir gl hu s).service =
        if (s.group d.group).isSome then s.service else (s.setSvc d.group .initial).service := by
  unfold groupEquipped
  rw [equip_eq]
  split <;> exact ⟨rfl, rfl⟩

theorem groupEquipped_circuit {s : State} (canonical : s.plant.circuits.wf = true) (d : GroupDefinition)
    (dir : Direction) (gl : GlareRule) (hu : HuntMode) (c : Nat) :
    (groupEquipped d dir gl hu s).circuit c =
      if inRanges d.ranges c = true then some ((s.circuit c).getD ⟨d.group, false, false, .idle⟩)
      else (s.circuit c).filter (fun e => decide (e.group ≠ d.group)) := by
  unfold groupEquipped
  generalize ht : (if (s.group d.group).isSome then s else s.setSvc d.group .initial) = t
  have plant : t.plant = s.plant := by rw [← ht]; split <;> rfl
  have same : t.circuit c = s.circuit c := by simp only [State.circuit, plant]
  have h := replaceRanges_circuit d.group d.ranges t c (by rw [plant]; exact canonical)
  rw [same] at h
  refine h.trans (if_congr Iff.rfl rfl ?_)
  cases s.circuit c with
  | none => rfl
  | some e => by_cases mine : e.group = d.group <;> simp [mine, Option.filter_some]

/-- The record of the group once it is rebuilt. -/
theorem defineGroup_group (d : GroupDefinition) (dir : Direction) (gl : GlareRule) (hu : HuntMode) (s : State) (m : Nat) :
    (rebuild (groupEquipped d dir gl hu s) d.group).group m =
      if m = d.group then
        some ((definedRecord d dir gl hu ((s.group d.group).getD .defaults)).counted
          (groupCircuits (groupEquipped d dir gl hu s) d.group))
      else s.group m := by
  rw [rebuild_eq, groupEquipped_group, if_pos rfl]
  show ((groupEquipped d dir gl hu s).setGroup d.group _).group m = _
  rw [setGroup_group, groupEquipped_group]
  split <;> rfl

/-- What the rebuilding leaves of the state before it. -/
theorem defineGroup_rebuilt (d : GroupDefinition) (dir : Direction) (gl : GlareRule) (hu : HuntMode) (s : State) :
    (rebuild (groupEquipped d dir gl hu s) d.group).service = (groupEquipped d dir gl hu s).service ∧
      (rebuild (groupEquipped d dir gl hu s) d.group).plant.locked = s.plant.locked ∧
      ∀ c, (rebuild (groupEquipped d dir gl hu s) d.group).circuit c = (groupEquipped d dir gl hu s).circuit c := by
  rw [rebuild_eq, groupEquipped_group, if_pos rfl]
  exact ⟨rfl, (groupEquipped_rest d dir gl hu s).1, fun _ => rfl⟩

/-! ## A group whose circuits are all IDLE -/

theorem inCondition_eq_nil {s : State} (canonical : s.plant.circuits.wf = true) {n : Nat} {k : Condition}
    (none : ∀ c e, s.circuit c = some e → e.group = n → e.condition ≠ k) : inCondition k (groupCircuits s n) = [] := by
  refine List.eq_nil_iff_forall_not_mem.mpr fun x hx => ?_
  obtain ⟨listed, cond⟩ := mem_inCondition.mp hx
  obtain ⟨here, mine⟩ := (mem_groupCircuits canonical).mp listed
  exact none _ _ here mine cond

theorem Equipped.condition_idle {e : Equipped} (h : e.occupancy = .idle) :
    e.condition = if e.blocked then .blockedIdle else .available := by
  simp only [Equipped.condition, h]

theorem GroupSound.idle {s : State} {n : Nat} {g : Group} (h : GroupSound s n g) (canonical : s.plant.circuits.wf = true)
    (idle : ∀ c e, s.circuit c = some e → e.group = n → e.occupancy = .idle) :
    g.busyIn = 0 ∧ g.busyOut = 0 ∧ g.inGuard = 0 := by
  obtain ⟨-, -, -, busyIn, busyOut, inGuard, -⟩ := h
  have none : ∀ k : Condition, k ≠ .blockedIdle → k ≠ .available →
      (inCondition k (groupCircuits s n)).length = 0 := by
    intro k notBlocked notAvailable
    rw [inCondition_eq_nil canonical fun c e here mine => ?_]
    · rfl
    · rw [Equipped.condition_idle (idle c e here mine)]
      split
      · exact notBlocked.symm
      · exact notAvailable.symm
  exact ⟨busyIn.trans (none _ (by decide) (by decide)), busyOut.trans (none _ (by decide) (by decide)),
    inGuard.trans (none _ (by decide) (by decide))⟩

theorem length_circuitsOfAll (rs : List Range) : (circuitsOfAll rs).length = (rs.map (·.count)).sum := by
  simp [circuitsOfAll, circuitsOf, List.length_flatMap]

theorem circuitsOfAll_nodup {rs : List Range} (h : rangesWellFormed rs = true) : (circuitsOfAll rs).Nodup := by
  obtain ⟨-, -, -, apart⟩ := (rangesWellFormed_iff rs).mp h
  refine List.nodup_flatMap.mpr ⟨fun x _ => List.nodup_range', apart.imp fun {x y} never => ?_⟩
  refine List.disjoint_left.mpr fun c hx hy => never c ⟨?_, ?_⟩
  · exact (rangeHas_iff x c).mpr (List.mem_range'_1.mp hx)
  · exact (rangeHas_iff y c).mpr (List.mem_range'_1.mp hy)

/-- The circuits of a sound group are available, all of them, when all are IDLE without a flag. -/
theorem GroupSound.allAvailable {s : State} {n : Nat} {g : Group} (h : GroupSound s n g)
    (canonical : s.plant.circuits.wf = true) (formed : rangesWellFormed g.ranges = true)
    (free : ∀ c e, s.circuit c = some e → e.group = n → e = ⟨n, false, false, .idle⟩) :
    (∀ c, c ∈ g.idleSet ↔ inRanges g.ranges c = true) ∧ g.available = (g.ranges.map (·.count)).sum ∧
      g.blockedIdle = 0 := by
  have rises := (rising_iff _).mp (h.idleSet_rising canonical)
  obtain ⟨idleSet, available, blocked, -, -, -, mine⟩ := h
  have member : ∀ c, c ∈ g.idleSet ↔ inRanges g.ranges c = true := by
    intro c
    rw [mine, idleSet, List.mem_map]
    constructor
    · rintro ⟨x, hx, rfl⟩
      exact ⟨x.2, (mem_groupCircuits canonical).mp (mem_inCondition.mp hx).1⟩
    · rintro ⟨e, here, ofGroup⟩
      refine ⟨(c, e), mem_inCondition.mpr ⟨(mem_groupCircuits canonical).mpr ⟨here, ofGroup⟩, ?_⟩, rfl⟩
      rw [free c e here ofGroup]
      rfl
  refine ⟨member, ?_, blocked.trans ?_⟩
  · have perm : g.idleSet.Perm (circuitsOfAll g.ranges) := by
      refine (List.perm_ext_iff_of_nodup (rises.imp fun h => Nat.ne_of_lt h) (circuitsOfAll_nodup formed)).mpr fun c => ?_
      rw [member, mem_circuitsOfAll]
    rw [available, ← length_circuitsOfAll, ← perm.length_eq, idleSet, List.length_map]
  · rw [inCondition_eq_nil canonical fun c e here ofGroup => by
      rw [free c e here ofGroup]
      simp [Equipped.condition, Equipped.blocked]]
    rfl

/-! ## DEFINE_GROUP carried out (R6, R7) -/

theorem handleDefineGroup_defines {d : GroupDefinition} {dir : Direction} {gl : GlareRule} {hu : HuntMode} {u : State}
    (canonical : u.plant.circuits.wf = true) (hdir : d.direction = .given dir) (hgl : d.glare = .given gl)
    (hhu : d.hunt = .given hu) (range : d.group ≤ 255) (carrier : d.carrier ≤ 63)
    (formed : rangesWellFormed d.ranges = true) (fit : rangesFit d.ranges = true) (unlocked : u.plant.locked = false)
    (idle : (u.group d.group).isSome = true →
      ∀ c e, u.circuit c = some e → e.group = d.group → e.occupancy = .idle)
    (mine : ∀ c e, inRanges d.ranges c = true → u.circuit c = some e → e.group = d.group) :
    handleDefineGroup d u =
      ⟨defineGroup d dir gl hu u,
        okOr (outsideOpt 0 10000 d.guardTime || outsideOpt 0 255 d.threshold || outsideOpt 1 64 d.hysteresis ||
          outsideOpt 1 60 d.decay),
        .groupCircuits ((d.ranges.map (·.count)).sum)⟩ := by
  have free : ¬((u.group d.group).isSome && groupInUse u d.group) = true := by
    rw [Bool.and_eq_true, groupInUse_iff canonical]
    rintro ⟨defined, c, e, here, ofGroup, used⟩
    exact used (idle defined c e here ofGroup)
  have apart : ¬assignedElsewhere u d.group d.ranges = true := by
    rw [assignedElsewhere_iff canonical]
    rintro ⟨c, e, inside, here, other⟩
    exact other (mine c e inside here)
  have passes : definitionRefusal d u = none := by
    simp only [definitionRefusal, Config.groups_le_iff, if_neg (Nat.not_lt.mpr range), Config.carriers_le_iff,
      if_neg (Nat.not_lt.mpr carrier), formed, fit, unlocked, if_neg free, if_neg apart, Bool.not_true,
      Bool.false_eq_true, if_false]
  simp only [handleDefineGroup, hdir, hgl, hhu, Arg.value?, passes]
  rfl

/-- R6, R7: what a definition leaves, when no draining member is tested by its report. -/
theorem defineGroup_spec {u : State} {d : GroupDefinition} {dir : Direction} {gl : GlareRule} {hu : HuntMode}
    (settled : ¬Drains (rebuild (groupEquipped d dir gl hu u) d.group) d.group) :
    (∀ c, (defineGroup d dir gl hu u).circuit c = (groupEquipped d dir gl hu u).circuit c) ∧
      (∀ m, m ≠ d.group → (defineGroup d dir gl hu u).group m = u.group m) ∧
      (defineGroup d dir gl hu u).group d.group =
        some ((definedRecord d dir gl hu ((u.group d.group).getD .defaults)).counted
          (groupCircuits (groupEquipped d dir gl hu u) d.group)) ∧
      (defineGroup d dir gl hu u).plant.locked = u.plant.locked ∧
      defineGroup d dir gl hu u =
        derivedReport ([d.group].filter (countsMoved u (rebuild (groupEquipped d dir gl hu u) d.group))) u
          (rebuild (groupEquipped d dir gl hu u) d.group) := by
  obtain ⟨-, locked, circuit⟩ := defineGroup_rebuilt d dir gl hu u
  have group := defineGroup_group d dir gl hu u
  rw [defineGroup_eq]
  refine ⟨fun c => (report_circuit _ _ _ _).trans (circuit c), fun m other => ?_, ?_, ?_, ?_⟩
  · rw [report_group, group, if_neg other]
  · rw [report_group, group, if_pos rfl]
  · rw [(report_served _ _ _).plant, locked]
  · refine takeReports_of_not_drains fun n hn => ?_
    obtain rfl := List.mem_singleton.mp (List.mem_of_mem_filter hn)
    exact settled

/-- R4, R28: the controller's record of each group after the report of one group. -/
theorem derivedReport_one_svc (n : Nat) (b s : State) (m : Nat) :
    (derivedReport ([n].filter (countsMoved b s)) b s).svc m =
      if m = n ∧ countsMoved b s n = true then derivedSvc s n else s.svc m := by
  rw [derivedReport_svc ((List.nodup_singleton n).filter _)]
  by_cases here : m = n
  · subst here
    simp
  · simp [here]

/-- Settles O3: a group that was not defined is no pending member, so its report derives its congestion state alone. -/
theorem defineGroupNew : Obligations.DefineGroupNew := by
  intro r d dir gl hu s u sound batch takes hdir hgl hhu range carrier formed fit unlocked undefined unequipped
  have sound : PlantSound u := sound.of_plant (takes_plant takes)
  have batch : BatchSound u := by rw [takes_blocks takes]; exact batch
  obtain ⟨-, once, -, -, -, -, -, -, -, -, pends⟩ := batch
  have canonical := sound.canonical
  have notMine : ∀ c e, u.circuit c = some e → e.group ≠ d.group := by
    obtain ⟨-, belongs, -⟩ := sound
    intro c e here eq
    have defined := (belongs c e here).2
    rw [eq, undefined] at defined
    exact Bool.false_ne_true defined
  have inside : ∀ c e, inRanges d.ranges c = true → u.circuit c = some e → e.group = d.group := by
    intro c e inside here
    rw [unequipped c inside] at here
    cases here
  have apart : assignedElsewhere u d.group d.ranges = false :=
    Bool.eq_false_iff.mpr fun h => by
      obtain ⟨c, e, within, here, other⟩ := (assignedElsewhere_iff canonical _ _).mp h
      exact other (inside c e within here)
  have after := defineGroup_sound d dir gl hu fit apart sound
  have planted := defineGroup_planted d dir gl hu u
  have handled := handleDefineGroup_defines canonical hdir hgl hhu range carrier formed fit unlocked
    (fun defined => absurd defined (by rw [undefined]; exact Bool.false_ne_true)) inside
  obtain ⟨-, service⟩ := groupEquipped_rest d dir gl hu u
  rw [undefined] at service
  obtain ⟨sameService, -, -⟩ := defineGroup_rebuilt d dir gl hu u
  have settled : ¬Drains (rebuild (groupEquipped d dir gl hu u) d.group) d.group := by
    rintro ⟨-, pending, -⟩
    rw [sameService, service] at pending
    have defined := ((pends d.group).1 (DrainBatch.mem_of_resultOf pending)).1
    rw [undefined] at defined
    exact Bool.false_ne_true defined
  obtain ⟨circuit, group, record, locked, derived⟩ := defineGroup_spec settled
  have equipped : ∀ c, (defineGroup d dir gl hu u).circuit c =
      if inRanges d.ranges c = true then some ⟨d.group, false, false, .idle⟩ else u.circuit c := by
    intro c
    rw [circuit, groupEquipped_circuit canonical]
    refine if_ctx_congr Iff.rfl (fun within => ?_) fun _ => ?_
    · rw [unequipped c within]
      rfl
    · cases here : u.circuit c with
      | none => rfl
      | some e => exact if_pos (by simpa using notMine c e here)
  have all : ∀ c e, (defineGroup d dir gl hu u).circuit c = some e → e.group = d.group →
      e = ⟨d.group, false, false, .idle⟩ := by
    intro c e here mine
    rw [equipped] at here
    split at here
    · exact (Option.some.inj here).symm
    · exact absurd mine (notMine c e here)
  generalize hg : (definedRecord d dir gl hu ((u.group d.group).getD .defaults)).counted
    (groupCircuits (groupEquipped d dir gl hu u) d.group) = g at record
  have whole : g = { definedRecord d dir gl hu .defaults with
      idleSet := g.idleSet, available := g.available, blockedIdle := g.blockedIdle, busyIn := g.busyIn,
      busyOut := g.busyOut, inGuard := g.inGuard } := by
    rw [← hg, undefined]
    rfl
  have ranges : g.ranges = d.ranges := by rw [whole]; rfl
  have groupSound := after.2.2 _ _ record
  obtain ⟨idleSet, available, blocked⟩ := groupSound.allAvailable after.canonical (by rw [ranges]; exact formed) all
  obtain ⟨busyIn, busyOut, inGuard⟩ := groupSound.idle after.canonical fun c e here mine => by rw [all c e here mine]
  rw [ranges] at idleSet available
  have rebuilt : (rebuild (groupEquipped d dir gl hu u) d.group).group d.group = some g :=
    (report_group [d.group] u _ d.group).symm.trans record
  have some_idle : 0 < g.available := by
    obtain ⟨long, -, nonzero, -⟩ := (rangesWellFormed_iff _).mp formed
    obtain ⟨x, rs, eq⟩ := List.exists_cons_of_length_pos long
    rw [available, eq, List.map_cons, List.sum_cons]
    exact Nat.add_pos_left (Nat.pos_of_ne_zero (nonzero x (by rw [eq]; exact List.mem_cons_self))) _
  generalize rebuild (groupEquipped d dir gl hu u) d.group = w at derived sameService rebuilt
  have service : w.service = (u.setSvc d.group .initial).service := sameService.trans service
  have moved : countsMoved u w d.group = true := by
    refine (countsMoved_iff _ _ _).mpr fun same => some_idle.ne' ?_
    have none_idle := same.1
    simp only [State.idleCount, rebuilt, undefined] at none_idle
    exact none_idle
  have svcW : ∀ m, w.svc m = if m = d.group then .initial else u.svc m := by
    intro m
    rw [State.svc, service]
    exact Table.get_set _ _ _ _
  have svc := derivedReport_one_svc d.group u w
  rw [← derived] at svc
  have rest := derivedReport_service ([d.group].filter (countsMoved u w)) u w
  rw [← derived, service] at rest
  refine ⟨_, g, answers_of rfl (exec_defineGroup r d s) takes handled, record, ?_,
    groupSound.idleSet_rising after.canonical, idleSet, equipped, fun n other => ⟨group n other, ?_⟩,
    locked.trans unlocked, ?_, ?_, ?_, ?_, planted.sameElsewhere, planted.calls⟩
  · rw [available, blocked, busyIn, busyOut, inGuard] at whole
    exact whole
  · rw [svc, if_neg fun both => other both.1, svcW, if_neg other]
  · rw [svc, if_pos ⟨rfl, moved⟩, derivedSvc_of_some rebuilt, svcW, if_pos rfl]
    rfl
  all_goals rw [rest]; rfl

/-- Settles O4: a pending member of a DRAINING batch has a busy circuit, so a group whose circuits are IDLE is none, and its
report derives its congestion state alone. -/
theorem defineGroupAgain : Obligations.DefineGroupAgain := by
  intro r d dir gl hu s u g0 sound batch busy takes hdir hgl hhu range carrier formed fit unlocked defined idle inside
  have sound : PlantSound u := sound.of_plant (takes_plant takes)
  have batch : BatchSound u := by rw [takes_blocks takes]; exact batch
  have busy : PendingBusy u := by rw [takes_blocks takes]; exact busy
  have canonical := sound.canonical
  have standing := sound.2.2 _ _ defined
  have apart : assignedElsewhere u d.group d.ranges = false :=
    Bool.eq_false_iff.mpr fun h => by
      obtain ⟨c, e, within, here, other⟩ := (assignedElsewhere_iff canonical _ _).mp h
      exact other (inside c e within here)
  have after := defineGroup_sound d dir gl hu fit apart sound
  have planted := defineGroup_planted d dir gl hu u
  have handled := handleDefineGroup_defines canonical hdir hgl hhu range carrier formed fit unlocked (fun _ => idle) inside
  obtain ⟨sameService, -, -⟩ := defineGroup_rebuilt d dir gl hu u
  obtain ⟨-, service⟩ := groupEquipped_rest d dir gl hu u
  rw [defined, if_pos (by rfl)] at service
  have settled : ¬Drains (rebuild (groupEquipped d dir gl hu u) d.group) d.group := by
    rintro ⟨draining, pending, -⟩
    rw [sameService, service] at draining pending
    obtain ⟨busyIn, busyOut, -⟩ := standing.idle canonical idle
    have held := busy draining d.group (DrainBatch.mem_of_resultOf pending)
    simp [State.busyTotal, defined, Group.busyTotal, busyIn, busyOut] at held
  obtain ⟨circuit, group, record, locked, derived⟩ := defineGroup_spec settled
  have equipped : ∀ c, (defineGroup d dir gl hu u).circuit c =
      if inRanges d.ranges c = true then some ((u.circuit c).getD ⟨d.group, false, false, .idle⟩)
      else if inRanges g0.ranges c = true then none
      else u.circuit c := by
    obtain ⟨-, -, -, -, -, -, mine⟩ := standing
    intro c
    rw [circuit, groupEquipped_circuit canonical]
    refine if_congr Iff.rfl rfl ?_
    by_cases old : inRanges g0.ranges c = true
    · obtain ⟨e, here, ofGroup⟩ := (mine c).mp old
      rw [if_pos old, here]
      exact if_neg (by simpa using ofGroup)
    · rw [if_neg old]
      cases here : u.circuit c with
      | none => rfl
      | some e => exact if_pos (by simpa using fun ofGroup => old ((mine c).mpr ⟨e, here, ofGroup⟩))
  have all : ∀ c e, (defineGroup d dir gl hu u).circuit c = some e → e.group = d.group → e.occupancy = .idle := by
    intro c e here mine
    rw [equipped] at here
    split at here
    · cases before : u.circuit c with
      | none =>
        rw [before] at here
        obtain rfl := Option.some.inj here
        rfl
      | some x =>
        rw [before] at here
        obtain rfl := Option.some.inj here
        exact idle c x before mine
    · split at here
      · cases here
      · exact idle c e here mine
  generalize hg : (definedRecord d dir gl hu ((u.group d.group).getD .defaults)).counted
    (groupCircuits (groupEquipped d dir gl hu u) d.group) = g at record
  have groupSound := after.2.2 _ _ record
  obtain ⟨busyIn, busyOut, inGuard⟩ := groupSound.idle after.canonical all
  have groupsW := defineGroup_group d dir gl hu u
  generalize rebuild (groupEquipped d dir gl hu u) d.group = w at derived sameService groupsW
  have service : w.service = u.service := sameService.trans service
  have others : ∀ n, n ∉ [d.group] → w.group n = u.group n := fun n other => by
    rw [groupsW, if_neg (by simpa using other)]
  have svcs := derivedReport_derived (List.nodup_singleton d.group) others (fun n => State.svc_congr (by rw [service]) n)
  have svc := derivedReport_one_svc d.group u w
  rw [← derived] at svcs svc
  have rest := derivedReport_service ([d.group].filter (countsMoved u w)) u w
  rw [← derived, service] at rest
  obtain ⟨far, decay, state⟩ := derivedSvc_rest w d.group
  have kept : ((defineGroup d dir gl hu u).svc d.group).farLevel = (u.svc d.group).farLevel ∧
      ((defineGroup d dir gl hu u).svc d.group).decayExpiry = (u.svc d.group).decayExpiry ∧
      ((defineGroup d dir gl hu u).svc d.group).service = (u.svc d.group).service := by
    rw [svc, ← State.svc_congr (s := u) (t := w) (by rw [service]) d.group]
    split
    · exact ⟨far, decay, state⟩
    · exact ⟨rfl, rfl, rfl⟩
  refine ⟨_, g, answers_of rfl (exec_defineGroup r d s) takes handled, record, groupSound, busyIn, busyOut, inGuard, ?_,
    equipped, fun n other => ⟨group n other, ?_⟩, locked.trans unlocked, kept.1, kept.2.1, kept.2.2, svcs d.group, rest,
    planted.sameElsewhere, planted.calls⟩
  · rw [← hg, defined]
    rfl
  · rw [svc, if_neg fun both => other both.1]
    exact State.svc_congr (by rw [service]) n

end Sys2Proof.Machine
end

section
/-! Chapter 2: what a report leaves in step (R28, R45, R46). -/

namespace Sys2Proof.Machine

/-- The stored exhaustion of every plan is that of its groups. -/
def ExhaustionSound (s : State) : Prop := ∀ p, s.service.exhausted.get p = planExhausted s p

/-- LevelsSound but for the exhaustion of plans, and for some groups whose congestion state is still to be derived. -/
def LevelsBut (gs : List Nat) (s : State) : Prop :=
  s.plant.groups.wf = true ∧
    (∀ n g, s.group n = some g →
      n < Config.groups ∧ (n ∉ gs → ((s.svc n).congestion = .full ↔ g.available = 0))) ∧
    (∀ n, s.group n = none → s.svc n = .initial) ∧ (∀ p, Config.plans ≤ p → s.plan p = []) ∧
    (∀ c, Config.carriers ≤ c → (s.carrier c).limit = 0 ∧ (s.carrier c).hold = false) ∧
    (∀ n, n < Config.groups → s.level ⟨.groupCongestion, n⟩ = (s.svc n).congestion.level) ∧
    (∀ p, p < Config.plans → s.level ⟨.planExhausted, p⟩ = levelOf (s.service.exhausted.get p)) ∧
    (∀ c, c < Config.carriers → s.level ⟨.carrierHold, c⟩ = levelOf (s.carrier c).hold) ∧
    s.level ⟨.settlementBacklog, 0⟩ = levelOf s.settlement.backlog

theorem levelsSound_iff (s : State) : LevelsSound s ↔ LevelsBut [] s ∧ ExhaustionSound s := by
  constructor
  · rintro ⟨h1, h2, h3, h4, h5, h6, h7, h8, h9, h10⟩
    exact ⟨⟨h1, fun n g hg => ⟨(h2 n g hg).1, fun _ => (h2 n g hg).2⟩, h3, h4, h6, h7, h8, h9, h10⟩, h5⟩
  · rintro ⟨⟨h1, h2, h3, h4, h6, h7, h8, h9, h10⟩, h5⟩
    exact ⟨h1, fun n g hg => ⟨(h2 n g hg).1, (h2 n g hg).2 (List.not_mem_nil)⟩, h3, h4, h5, h6, h7, h8, h9, h10⟩

/-! ## Derivations (R28) -/

theorem nextCongestion_full_iff (before : Congestion) (idle r h : Nat) :
    nextCongestion before idle r h = .full ↔ idle = 0 := by
  unfold nextCongestion
  by_cases none : idle = 0
  · simp [none]
  · cases before <;> simp only [if_neg none] <;> split <;> simp [none]

theorem AlarmSource.index_ne_of_group {n : Nat} (h : n < Config.groups) {a : AlarmSource}
    (other : a ≠ ⟨.groupCongestion, n⟩) : a.index ≠ AlarmSource.index ⟨.groupCongestion, n⟩ := by
  have h : n < 256 := h
  obtain ⟨cls, k⟩ := a
  cases cls with
  | groupCongestion =>
    rintro rfl
    exact other rfl
  | _ =>
    simp only [AlarmSource.index]
    omega

theorem AlarmSource.index_ne_of_plan {p : Nat} (h : p < Config.plans) {a : AlarmSource}
    (other : a ≠ ⟨.planExhausted, p⟩) (group : a.cls = .groupCongestion → a.number < Config.groups) :
    a.index ≠ AlarmSource.index ⟨.planExhausted, p⟩ := by
  have h : p < 1024 := h
  obtain ⟨cls, k⟩ := a
  cases cls with
  | groupCongestion =>
    have range : k < 256 := group rfl
    simp only [AlarmSource.index]
    omega
  | planExhausted =>
    intro same
    obtain rfl : k = p := Nat.add_left_cancel same
    exact other rfl
  | _ =>
    simp only [AlarmSource.index]
    omega

theorem Served.plan {s t : State} (h : Served s t) (p : Nat) : t.plan p = s.plan p := by rw [h.1]; rfl

theorem Served.settlement {s t : State} (h : Served s t) : t.settlement = s.settlement := by rw [h.1]

theorem Served.carrier {s t : State} (h : Served s t) (c : Nat) : t.carrier c = s.carrier c := by rw [h.1]; rfl

theorem deriveCongestion_level_other {s : State} {n : Nat} {a : AlarmSource}
    (h : a.index ≠ AlarmSource.index ⟨.groupCongestion, n⟩) : (deriveCongestion s n).level a = s.level a := by
  rcases deriveCongestion_cases s n with ⟨same, -⟩ | ⟨level, change⟩
  · rw [same]
  · rw [change, level_reportLevel_other h]
    rfl

theorem deriveCongestion_level_same {s : State} {n : Nat}
    (h : s.level ⟨.groupCongestion, n⟩ = (s.svc n).congestion.level) :
    (deriveCongestion s n).level ⟨.groupCongestion, n⟩ = ((deriveCongestion s n).svc n).congestion.level := by
  rw [deriveCongestion_svc, if_pos rfl]
  cases defined : s.group n with
  | none =>
    have same : deriveCongestion s n = s := by simp only [deriveCongestion, defined]
    rw [same, derivedSvc_of_none defined, h]
  | some g =>
    rw [derivedSvc_of_some defined]
    by_cases same : nextCongestion (s.svc n).congestion g.available g.threshold g.hysteresis = (s.svc n).congestion
    · rw [deriveCongestion_of_same defined same, h, same]
    · rw [deriveCongestion_of_change defined rfl same, level_reportLevel_same]

/-- R28: the derivation of a group settles it. -/
theorem LevelsBut.deriveCongestion {n : Nat} {gs : List Nat} {s : State} (h : LevelsBut (n :: gs) s) :
    LevelsBut gs (deriveCongestion s n) := by
  obtain ⟨canonical, groups, undefined, plans, carriers, groupLevels, planLevels, holdLevels, backlog⟩ := h
  have served := deriveCongestion_served s n
  have service := deriveCongestion_service s n
  have group := served.group
  have svc := deriveCongestion_svc s n
  cases defined : s.group n with
  | none =>
    have same : Machine.deriveCongestion s n = s := by simp only [Machine.deriveCongestion, defined]
    rw [same]
    refine ⟨canonical, fun m g hm => ⟨(groups m g hm).1, fun apart => (groups m g hm).2 ?_⟩, undefined, plans, carriers,
      groupLevels, planLevels, holdLevels, backlog⟩
    rintro (_ | ⟨_, listed⟩)
    · rw [defined] at hm; cases hm
    · exact apart listed
  | some r =>
    have range := (groups n r defined).1
    have others : ∀ a : AlarmSource, a ≠ ⟨.groupCongestion, n⟩ → (Machine.deriveCongestion s n).level a = s.level a :=
      fun a other => deriveCongestion_level_other (AlarmSource.index_ne_of_group range other)
    refine ⟨by rw [served.plant]; exact canonical, fun m g hm => ?_, fun m hm => ?_,
      fun p hp => (served.plan p).trans (plans p hp), fun c hc => by rw [served.carrier]; exact carriers c hc,
      fun m hm => ?_, fun p hp => ?_, fun c hc => ?_, ?_⟩
    · rw [group] at hm
      refine ⟨(groups m g hm).1, fun apart => ?_⟩
      rw [svc]
      by_cases here : m = n
      · subst here
        rw [if_pos rfl, derivedSvc_of_some hm]
        exact nextCongestion_full_iff _ _ _ _
      · rw [if_neg here]
        exact (groups m g hm).2 (by simpa [here] using apart)
    · rw [group] at hm
      rw [svc, if_neg (by rintro rfl; rw [defined] at hm; cases hm)]
      exact undefined m hm
    · by_cases here : m = n
      · subst here
        exact deriveCongestion_level_same (groupLevels m hm)
      · rw [others _ (by simp [here]), svc, if_neg here]
        exact groupLevels m hm
    · rw [others _ (by simp), service]
      exact planLevels p hp
    · rw [others _ (by simp), served.carrier]
      exact holdLevels c hc
    · rw [others _ (by simp), served.settlement]
      exact backlog

theorem LevelsBut.foldl_deriveCongestion {gs : List Nat} {s : State} (h : LevelsBut gs s) :
    LevelsBut [] (gs.foldl Machine.deriveCongestion s) := by
  induction gs generalizing s with
  | nil => exact h
  | cons n gs ih => exact ih h.deriveCongestion

/-! ## Re-evaluations (R45, R46) -/

theorem evaluatePlan_level_other {s : State} {p : Nat} {a : AlarmSource}
    (h : a.index ≠ AlarmSource.index ⟨.planExhausted, p⟩) : (evaluatePlan s p).level a = s.level a := by
  by_cases same : planExhausted s p = s.service.exhausted.get p
  · rw [evaluatePlan_of_same same]
  · rw [evaluatePlan_of_change same, level_reportLevel_other h]
    rfl

theorem evaluatePlan_level_same {s : State} {p : Nat}
    (h : s.level ⟨.planExhausted, p⟩ = levelOf (s.service.exhausted.get p)) :
    (evaluatePlan s p).level ⟨.planExhausted, p⟩ = levelOf (planExhausted s p) := by
  by_cases same : planExhausted s p = s.service.exhausted.get p
  · rw [evaluatePlan_of_same same, h, same]
  · rw [evaluatePlan_of_change same, level_reportLevel_same]

theorem LevelsBut.evaluatePlan {gs : List Nat} {s : State} (h : LevelsBut gs s) {p : Nat} (hp : p < Config.plans) :
    LevelsBut gs (evaluatePlan s p) := by
  obtain ⟨canonical, groups, undefined, plans, carriers, groupLevels, planLevels, holdLevels, backlog⟩ := h
  have same := evaluatePlan_exhaustionOnly s p
  have others : ∀ a : AlarmSource, a ≠ ⟨.planExhausted, p⟩ → (a.cls = .groupCongestion → a.number < Config.groups) →
      (Machine.evaluatePlan s p).level a = s.level a :=
    fun a other group => evaluatePlan_level_other (AlarmSource.index_ne_of_plan hp other group)
  refine ⟨by rw [same.1.plant]; exact canonical, fun m g hm => ?_, fun m hm => ?_,
    fun q hq => (same.1.plan q).trans (plans q hq), fun c hc => by rw [same.1.carrier]; exact carriers c hc,
    fun m hm => ?_, fun q hq => ?_, fun c hc => ?_, ?_⟩
  · rw [same.svc]
    exact groups m g ((same.1.group m).symm.trans hm)
  · rw [same.svc]
    exact undefined m ((same.1.group m).symm.trans hm)
  · rw [others _ (by simp) fun _ => hm, same.svc]
    exact groupLevels m hm
  · rw [evaluatePlan_exhausted]
    by_cases here : q = p
    · subst here
      rw [if_pos rfl]
      exact evaluatePlan_level_same (planLevels q hq)
    · rw [if_neg here, others _ (by simp [here]) (by simp)]
      exact planLevels q hq
  · rw [others _ (by simp) (by simp), same.1.carrier]
    exact holdLevels c hc
  · rw [others _ (by simp) (by simp), same.1.settlement]
    exact backlog

theorem mem_plansOf {s : State} {gs : List Nat} {p : Nat} :
    p ∈ plansOf s gs ↔ ∃ g ∈ gs, p ∈ s.service.planSets.get g := by
  have inner : ∀ (ps acc : List Nat), p ∈ ps.foldl (fun acc q => insertNumber q acc) acc ↔ p ∈ ps ∨ p ∈ acc := by
    intro ps
    induction ps with
    | nil => simp
    | cons q ps ih => intro acc; rw [List.foldl_cons, ih, mem_insertNumber, List.mem_cons]; tauto
  have outer : ∀ (gs acc : List Nat),
      p ∈ gs.foldl (fun acc g => (s.service.planSets.get g).foldl (fun acc p => insertNumber p acc) acc) acc ↔
        (∃ g ∈ gs, p ∈ s.service.planSets.get g) ∨ p ∈ acc := by
    intro gs
    induction gs with
    | nil => simp
    | cons g gs ih => intro acc; rw [List.foldl_cons, ih, inner, List.exists_mem_cons_iff, ← or_assoc, or_comm (b := p ∈ s.service.planSets.get g)]
  exact (outer gs []).trans (or_iff_left List.not_mem_nil)

theorem LevelsBut.foldl_evaluatePlan {gs ps : List Nat} {s : State} (h : LevelsBut gs s)
    (range : ∀ p ∈ ps, p < Config.plans) : LevelsBut gs (ps.foldl Machine.evaluatePlan s) := by
  induction ps generalizing s with
  | nil => exact h
  | cons p ps ih =>
    obtain ⟨first, range⟩ := List.forall_mem_cons.mp range
    exact ih (h.evaluatePlan first) range

theorem planExhausted_of_exhaustionOnly {s t : State} (h : ExhaustionOnly s t) (p : Nat) :
    planExhausted t p = planExhausted s p := planExhausted_congr (h.1.plan p) h.1.plant h.svc

theorem foldl_evaluatePlan_exhausted (ps : List Nat) (s : State) (p : Nat) :
    (ps.foldl Machine.evaluatePlan s).service.exhausted.get p =
      if p ∈ ps then planExhausted s p else s.service.exhausted.get p := by
  induction ps generalizing s with
  | nil => rfl
  | cons q ps ih =>
    rw [List.foldl_cons, ih, planExhausted_of_exhaustionOnly (evaluatePlan_exhaustionOnly s q), evaluatePlan_exhausted]
    by_cases here : p = q
    · subst here
      simp
    · simp [here]

/-- R45: a group has room by the facts that make its plans be looked at. -/
theorem hasRoom_iff_roomFacts (s : State) (n : Nat) : hasRoom s n = true ↔ roomFacts s n = some (false, none) := by
  unfold hasRoom roomFacts
  by_cases defined : (s.group n).isSome = true
  · cases (s.svc n).service.takesTraffic <;> simp [defined, bne]
  · simp [defined]

theorem hasRoom_of_roomFacts {s t : State} {n : Nat} (h : roomFacts s n = roomFacts t n) : hasRoom t n = hasRoom s n :=
  Bool.eq_iff_iff.mpr (by rw [hasRoom_iff_roomFacts, hasRoom_iff_roomFacts, h])

theorem RoutesSound.plan_lt {s : State} (h : RoutesSound s) (plans : ∀ p, Config.plans ≤ p → s.plan p = []) {p n : Nat}
    (member : p ∈ s.service.planSets.get n) : p < Config.plans := by
  obtain ⟨-, sets, -⟩ := h
  by_contra beyond
  obtain ⟨st, listed, -⟩ := (sets p n).mp member
  rw [plans p (Nat.le_of_not_lt beyond)] at listed
  exact List.not_mem_nil listed

/-- R45, R46: after an event on some groups the re-evaluation makes every stored exhaustion that of its plan. -/
theorem reevaluate_sound {gs ns : List Nat} {b s : State} (routes : RoutesSound s) (before : ExhaustionSound b)
    (plan : ∀ p, s.plan p = b.plan p) (stored : s.service.exhausted = b.service.exhausted)
    (others : ∀ n, n ∉ gs → roomFacts s n = roomFacts b n) (h : LevelsBut ns s) :
    LevelsBut ns (reevaluate gs b s) ∧ ExhaustionSound (reevaluate gs b s) := by
  unfold reevaluate
  generalize hps : plansOf s (gs.filter fun g => decide (roomFacts b g ≠ roomFacts s g)) = ps
  have listed : ∀ p, p ∈ ps ↔ ∃ n, roomFacts b n ≠ roomFacts s n ∧ p ∈ s.service.planSets.get n := by
    intro p
    rw [← hps, mem_plansOf]
    constructor
    · rintro ⟨n, hn, member⟩
      exact ⟨n, by simpa using (List.mem_filter.mp hn).2, member⟩
    · rintro ⟨n, moved, member⟩
      have inside : n ∈ gs := by_contra fun out => moved (others n out).symm
      exact ⟨n, List.mem_filter.mpr ⟨inside, by simpa using moved⟩, member⟩
  have range : ∀ p ∈ ps, p < Config.plans := by
    intro p hp
    obtain ⟨n, -, member⟩ := (listed p).mp hp
    obtain ⟨-, -, -, plans, -⟩ := h
    exact routes.plan_lt plans member
  refine ⟨h.foldl_evaluatePlan range, fun p => ?_⟩
  have same := ExhaustionOnly.foldl evaluatePlan evaluatePlan_exhaustionOnly ps s
  rw [foldl_evaluatePlan_exhausted, planExhausted_of_exhaustionOnly same]
  split
  · rfl
  · next out =>
    rw [stored, before p]
    have rooms : ∀ st ∈ s.plan p, hasRoom s st.group = hasRoom b st.group := by
      intro st hst
      refine hasRoom_of_roomFacts (by_contra fun moved => out ((listed p).mpr ⟨st.group, moved, ?_⟩))
      exact (routes.2.1 p st.group).mpr ⟨st, hst, rfl⟩
    simp only [planExhausted, ← plan p]
    congr 1
    exact Bool.eq_iff_iff.mpr (by
      simp only [List.all_eq_true]
      exact forall₂_congr fun st hst => by rw [rooms st hst])

/-! ## Member tests (R37) -/

theorem completeIfDone_levels (s : State) : (completeIfDone s).levels = s.levels := by
  unfold completeIfDone
  split
  · exact notifyUp_levels _ _ s
  · rfl

theorem LevelsBut.of_same {gs : List Nat} {s t : State} (h : LevelsBut gs s) (plant : t.plant = s.plant)
    (service : t.service.exhausted = s.service.exhausted) (svc : ∀ n, t.svc n = s.svc n) (plan : ∀ p, t.plan p = s.plan p)
    (settlement : t.settlement = s.settlement) (levels : t.levels = s.levels) : LevelsBut gs t := by
  unfold LevelsBut at h ⊢
  simp only [State.group, State.carrier, State.level, plant, service, svc, plan, settlement, levels] at h ⊢
  exact h

theorem ExhaustionSound.of_same {s t : State} (h : ExhaustionSound s) (plant : t.plant = s.plant)
    (service : t.service.exhausted = s.service.exhausted) (svc : ∀ n, t.svc n = s.svc n)
    (plan : ∀ p, t.plan p = s.plan p) : ExhaustionSound t := by
  intro p
  rw [service, planExhausted_congr (plan p) plant svc]
  exact h p

theorem RoutesSound.of_same {s t : State} (h : RoutesSound s) (routes : t.routes = s.routes)
    (sets : t.service.planSets = s.service.planSets) : RoutesSound t := by
  unfold RoutesSound State.plan at h ⊢
  rw [routes, sets]
  exact h

theorem Served.routes {s t : State} (h : Served s t) : t.routes = s.routes := by rw [h.1]

/-- R37: a member test keeps the levels and the exhaustion in step. -/
theorem memberTest_levels {s : State} {n : Nat} (defined : (s.group n).isSome = true) (routes : RoutesSound s)
    (h : LevelsBut [] s) (exhaustion : ExhaustionSound s) :
    LevelsBut [] (memberTest s n) ∧ ExhaustionSound (memberTest s n) := by
  by_cases drains : Drains s n
  · rw [memberTest_of_drains drains]
    generalize ht : setService n .outOfService (setResult n .drained s) = t
    have svc : ∀ m, t.svc m = if m = n then { s.svc n with service := .outOfService } else s.svc m := by
      intro m
      rw [← ht]
      exact Table.get_set _ _ _ _
    have plant : t.plant = s.plant := by rw [← ht]; rfl
    have group : ∀ m, t.group m = s.group m := fun m => by simp only [State.group, plant]
    have congestion : ∀ m, (t.svc m).congestion = (s.svc m).congestion := by
      intro m
      rw [svc]
      split
      · next here => rw [here]
      · rfl
    have levels : LevelsBut [] t := by
      obtain ⟨canonical, groups, undefined, plans, carriers, groupLevels, planLevels, holdLevels, backlog⟩ := h
      refine ⟨by rw [plant]; exact canonical, fun m g hm => ?_, fun m hm => ?_, ?_, ?_, fun m hm => ?_, ?_, ?_, ?_⟩
      · rw [congestion]
        exact groups m g ((group m).symm.trans hm)
      · rw [group] at hm
        rw [svc, if_neg (by rintro rfl; rw [hm] at defined; cases defined)]
        exact undefined m hm
      · rw [← ht]; exact plans
      · rw [← ht]; exact carriers
      · rw [congestion, ← groupLevels m hm, ← ht]
        rfl
      · rw [← ht]; exact planLevels
      · rw [← ht]; exact holdLevels
      · rw [← ht]; exact backlog
    have facts : ∀ m, m ∉ [n] → roomFacts t m = roomFacts s m := by
      intro m apart
      simp only [roomFacts, group, svc, if_neg (show m ≠ n by simpa using apart)]
    obtain ⟨levels, sound⟩ := reevaluate_sound (gs := [n]) (b := s) (routes.of_same (by rw [← ht]; rfl) (by rw [← ht]; rfl))
      exhaustion (fun p => by rw [← ht]; rfl) (by rw [← ht]; rfl) facts levels
    generalize reevaluate [n] s t = w at levels sound
    have served := completeIfDone_served w
    exact ⟨levels.of_same served.plant (by rw [completeIfDone_service]) (completeIfDone_svc w) served.plan
      served.settlement (completeIfDone_levels w), sound.of_same served.plant (by rw [completeIfDone_service])
      (completeIfDone_svc w) served.plan⟩
  · rw [memberTest_of_not drains]
    exact ⟨h, exhaustion⟩

theorem foldl_memberTest_levels {gs : List Nat} {s : State} (defined : ∀ n ∈ gs, (s.group n).isSome = true)
    (routes : RoutesSound s) (h : LevelsBut [] s) (exhaustion : ExhaustionSound s) :
    LevelsBut [] (gs.foldl memberTest s) ∧ ExhaustionSound (gs.foldl memberTest s) := by
  induction gs generalizing s with
  | nil => exact ⟨h, exhaustion⟩
  | cons n gs ih =>
    obtain ⟨first, defined⟩ := List.forall_mem_cons.mp defined
    obtain ⟨h, exhaustion⟩ := memberTest_levels first routes h exhaustion
    have served := memberTest_served s n
    exact ih (fun m hm => by rw [served.group]; exact defined m hm)
      (routes.of_same served.routes (memberTest_rest s n).1) h exhaustion

/-! ## A report as a whole (R4) -/

/-- R4, R28, R37, R45: the reports of some groups settle them, when nothing but these groups has moved. -/
theorem takeReports_levels {gs : List Nat} (once : gs.Nodup) {b s : State} (routes : RoutesSound b) (before : ExhaustionSound b)
    (same : s.routes = b.routes) (service : s.service = b.service)
    (isSome : ∀ n, (s.group n).isSome = (b.group n).isSome) (defined : ∀ n ∈ gs, (s.group n).isSome = true)
    (h : LevelsBut gs s) : LevelsSound (takeReports gs b s) := by
  have served := foldl_deriveCongestion_served gs s
  have kept := foldl_deriveCongestion_service gs s
  have routesT : RoutesSound (gs.foldl deriveCongestion s) :=
    routes.of_same (served.routes.trans same) (by rw [kept, service])
  have svcs : ∀ n, n ∉ gs → (gs.foldl deriveCongestion s).svc n = b.svc n := by
    intro n apart
    rw [← State.svc_congr (s := b) (t := s) (by rw [service])]
    rw [foldl_deriveCongestion_svc once, if_neg apart]
  have facts : ∀ n, n ∉ gs → roomFacts (gs.foldl deriveCongestion s) n = roomFacts b n := by
    intro n apart
    simp only [roomFacts, served.group, isSome, svcs n apart]
  obtain ⟨levels, exhaustion⟩ := reevaluate_sound routesT before
    (fun p => (served.plan p).trans (by simp only [State.plan, same])) (by rw [kept, service]) facts
    h.foldl_deriveCongestion
  have after := reevaluate_exhaustionOnly gs b (gs.foldl deriveCongestion s)
  refine (levelsSound_iff _).mpr (foldl_memberTest_levels (fun n hn => ?_) ?_ levels exhaustion)
  · rw [after.1.group, served.group]
    exact defined n hn
  · exact routesT.of_same after.1.routes (by rw [after.2])

/-! ## The release of a leg (R20) -/

theorem changeAndReport_eq {s : State} {c : Nat} {e : Equipped} (here : s.circuit c = some e) (f : Equipped → Equipped) :
    changeAndReport c f s = report [e.group] s (changeCircuit c f s) := by
  simp only [changeAndReport, here]

theorem heldBy_iff (e : Equipped) (call : CallRef) :
    heldBy e call = true ↔ e.occupancy = .busyIn call ∨ e.occupancy = .busyOut call := by
  simp [heldBy]

theorem releaseLeg_of_held {s : State} {c : Nat} {call : CallRef} {e : Equipped} (here : s.circuit c = some e)
    (held : heldBy e call = true) (fault : Bool) :
    releaseLeg c call fault s = report [e.group] s (changeCircuit c (releasedRecord s fault) s) := by
  rw [← changeAndReport_eq here]
  simp only [releaseLeg, here, if_pos held]

theorem releaseLeg_of_not_held {s : State} {c : Nat} {call : CallRef} {e : Equipped} (here : s.circuit c = some e)
    (free : heldBy e call = false) (fault : Bool) : releaseLeg c call fault s = s := by
  simp [releaseLeg, here, free]

theorem releasedRecord_eq {s : State} {e : Equipped} {g : Group} (defined : s.group e.group = some g) (fault : Bool) :
    releasedRecord s fault e =
      { e with
        localFlag := e.localFlag || fault
        occupancy :=
          if (e.localFlag || fault || e.remoteFlag) = true ∨ g.guardTime = 0 then .idle
          else .guard (s.now + g.guardTime) } := by
  have time : guardTimeOf s e = g.guardTime := by simp only [guardTimeOf, defined]
  unfold releasedRecord guardOrIdle Equipped.blocked
  rw [time]
  cases flagged : (e.localFlag || fault || e.remoteFlag) <;> simp [-Bool.or_eq_true, -Bool.or_eq_false_iff, flagged]

/-! ## The expiry of a guard (R21) -/

theorem expireGuard_of_none {s : State} {c : Nat}
    (none : ∀ e y, s.circuit c = some e → e.occupancy = .guard y → s.now < y) : expireGuard c s = s := by
  unfold expireGuard
  cases here : s.circuit c with
  | none => rfl
  | some e =>
    cases used : e.occupancy with
    | guard y => simp only [used, if_neg (Nat.not_le.mpr (none e y here used))]
    | _ => simp only [used]

theorem expireGuard_reached {s : State} {c : Nat} {e : Equipped} {x : Nat} (here : s.circuit c = some e)
    (used : e.occupancy = .guard x) (reached : x ≤ s.now) :
    expireGuard c s = report [e.group] s (changeCircuit c (fun e => { e with occupancy := .idle }) s) := by
  rw [← changeAndReport_eq here]
  simp only [expireGuard, here, used, if_pos reached]

theorem takeReports_nil (b s : State) : takeReports [] b s = s := rfl

/-- R4: but for the group that reports, no service record changes. -/
theorem takeReports_svc_other {gs : List Nat} (once : gs.Nodup) (b s : State) {m : Nat} (apart : m ∉ gs) :
    (takeReports gs b s).svc m = s.svc m := by
  have tests : ∀ (ns : List Nat) (t : State), m ∉ ns → (ns.foldl memberTest t).svc m = t.svc m := by
    intro ns
    induction ns with
    | nil => exact fun _ _ => rfl
    | cons n ns ih =>
      intro t out
      obtain ⟨ne, out⟩ := not_or.mp (mt List.mem_cons.mpr out)
      rw [List.foldl_cons, ih _ out]
      by_cases drains : Drains t n
      · rw [(memberTest_drained drains).2, if_neg ne]
      · rw [memberTest_of_not drains]
  rw [takeReports_eq, tests gs _ apart, derivedReport_svc once, if_neg apart]

theorem changeCircuit_plantOnly (c : Nat) (f : Equipped → Equipped) (s : State) :
    changeCircuit c f s = { s with plant := (changeCircuit c f s).plant } := by
  unfold changeCircuit
  cases s.circuit c with
  | none => rfl
  | some e =>
    simp only
    cases s.group e.group <;> rfl

theorem changeCircuit_locked (c : Nat) (f : Equipped → Equipped) (s : State) :
    (changeCircuit c f s).plant.locked = s.plant.locked := by
  unfold changeCircuit
  cases s.circuit c with
  | none => rfl
  | some e =>
    simp only
    cases s.group e.group <;> rfl

theorem changeCircuit_groups_wf (c : Nat) (f : Equipped → Equipped) {s : State} (h : s.plant.groups.wf = true) :
    (changeCircuit c f s).plant.groups.wf = true := by
  unfold changeCircuit
  cases s.circuit c with
  | none => exact h
  | some e =>
    simp only
    cases s.group e.group with
    | none => exact h
    | some g => exact Table.set_wf _ _ _ h

/-- R4, R28, R45: the change of a circuit, with the report of its group, keeps what the blocks derive from one another. -/
theorem changeAndReport_levels {s : State} {c : Nat} {e : Equipped} {f : Equipped → Equipped}
    (here : s.circuit c = some e) (defined : (s.group e.group).isSome = true) (routes : RoutesSound s)
    (levels : LevelsSound s) : LevelsSound (report [e.group] s (changeCircuit c f s)) := by
  obtain ⟨levels, exhaustion⟩ := (levelsSound_iff s).mp levels
  have group := changeCircuit_group f here
  have isSome : ∀ n, ((changeCircuit c f s).group n).isSome = (s.group n).isSome := by
    intro n
    rw [group]
    split
    · exact Option.isSome_map
    · rfl
  have canonical := changeCircuit_groups_wf c f levels.1
  have frame := changeCircuit_plantOnly c f s
  generalize changeCircuit c f s = t at group isSome canonical frame
  have svc : ∀ n, t.svc n = s.svc n := fun n => State.svc_congr (by rw [frame]) n
  refine takeReports_levels ((List.nodup_singleton _).filter _) routes exhaustion (by rw [frame]) (by rw [frame]) isSome
    (fun n hn => ?_) ?_
  · obtain rfl := List.mem_singleton.mp (List.mem_of_mem_filter hn)
    rw [isSome]
    exact defined
  · obtain ⟨-, groups, undefined, plans, carriers, groupLevels, planLevels, holdLevels, backlog⟩ := levels
    refine ⟨canonical, fun n g hg => ?_, fun n hn => ?_, ?_, ?_, fun n hn => ?_, ?_, ?_, ?_⟩
    · obtain ⟨g0, hg0⟩ := Option.isSome_iff_exists.mp ((isSome n).symm.trans (by rw [hg]; rfl))
      refine ⟨(groups n g0 hg0).1, fun apart => ?_⟩
      have same : g.available = g0.available := by
        by_cases mine : n = e.group
        · subst mine
          have still : ¬countsMoved s t e.group = true := fun moved =>
            apart (List.mem_filter.mpr ⟨List.mem_singleton_self _, moved⟩)
          rw [countsMoved_iff, not_not] at still
          have idle := still.1
          simp only [State.idleCount, hg, hg0] at idle
          exact idle
        · rw [group, if_neg mine, hg0] at hg
          rw [Option.some.inj hg]
      rw [svc, same]
      exact (groups n g0 hg0).2 List.not_mem_nil
    · rw [svc]
      exact undefined n (Option.isNone_iff_eq_none.mp (by
        rw [← Option.not_isSome, ← isSome, hn]
        rfl))
    · rw [frame]; exact plans
    · rw [frame]; exact carriers
    · rw [svc, ← groupLevels n hn, frame]
      rfl
    · rw [frame]; exact planLevels
    · rw [frame]; exact holdLevels
    · rw [frame]; exact backlog

/-- Settles O10: both events change one circuit and make its group's report; a pending member of a DRAINING batch with no busy
circuit would have been drained before, so the report after a guard derives and re-evaluates alone. -/
theorem legReleaseAndGuardExpiry : Obligations.LegReleaseAndGuardExpiry := by
  refine ⟨fun s c call fault e g sound here defined => ⟨fun notIn notOut => ?_, fun held => ?_⟩,
    fun s c sound => ⟨fun none => ?_, fun e g x here defined used reached => ?_⟩⟩
  case refine_3 =>
    show execGuardExpiry c s = _
    rw [execGuardExpiry, expireGuard_of_none none]
  · refine releaseLeg_of_not_held here (Bool.eq_false_iff.mpr fun held => ?_) fault
    exact ((heldBy_iff e call).mp held).elim notIn notOut
  · have kept := releaseLeg_plantKept c call fault s sound
    rw [releaseLeg_of_held here ((heldBy_iff e call).mpr held)] at kept ⊢
    refine ⟨?_, fun i other => ?_, fun m other => ?_, kept⟩
    · rw [report_circuit, changeCircuit_circuit, if_pos rfl, here, Option.map_some, releasedRecord_eq defined]
    · rw [report_circuit, changeCircuit_circuit, if_neg other]
    · rw [report_group, changeCircuit_group _ here, if_neg other]
  have planted := expireGuard_planted c s
  have circuit := changeCircuit_circuit c (fun e : Equipped => { e with occupancy := .idle }) s
  have group := changeCircuit_group (fun e : Equipped => { e with occupancy := .idle }) here
  have frame := changeCircuit_plantOnly c (fun e : Equipped => { e with occupancy := .idle }) s
  have locked := changeCircuit_locked c (fun e : Equipped => { e with occupancy := .idle }) s
  have levels := fun routes => changeAndReport_levels (f := fun e => { e with occupancy := .idle }) here
    (by rw [defined]; rfl) routes
  have condition : e.condition = .inGuard := by simp only [Equipped.condition, used]
  refine ⟨expireGuard c s, rfl, ?_⟩
  rw [expireGuard_reached here used reached] at planted ⊢
  generalize changeCircuit c (fun e => { e with occupancy := .idle }) s = t at planted circuit group frame locked levels ⊢
  have svcT : ∀ n, t.svc n = s.svc n := fun n => State.svc_congr (by rw [frame]) n
  have mine : t.group e.group =
      some
        (if (e.localFlag || e.remoteFlag) = true then
          { g with inGuard := g.inGuard - 1, blockedIdle := g.blockedIdle + 1 }
        else
          { g with
            inGuard := g.inGuard - 1
            available := g.available + 1
            idleSet := insertNumber c g.idleSet }) := by
    rw [group, if_pos rfl, defined, condition, Option.map_some]
    cases flagged : (e.localFlag || e.remoteFlag) <;> simp [Equipped.condition, Equipped.blocked, flagged] <;> rfl
  have after : ∀ routes : RoutesSound s, ∀ sound : LevelsSound s, LevelsSound (report [e.group] s t) := levels
  refine ⟨?_, by rw [report_group, mine], fun i other => by rw [report_circuit, circuit, if_neg other],
    fun m other => ⟨by rw [report_group, group, if_neg other], ?_⟩, by rw [(report_served _ _ _).plant, locked],
    planted.sameElsewhere, planted.calls, fun flagged => ?_, fun batch busy => ?_, fun routes sound => ?_⟩
  · rw [report_circuit, circuit, if_pos rfl, here]
    rfl
  · rw [report, takeReports_svc_other ((List.nodup_singleton _).filter _) s t fun listed =>
      other (List.mem_singleton.mp (List.mem_of_mem_filter listed)), svcT]
  · rw [if_pos flagged] at mine
    have still : [e.group].filter (countsMoved s t) = [] := by
      refine List.filter_eq_nil_iff.mpr fun n hn moved => (countsMoved_iff _ _ _).mp moved ?_
      obtain rfl := List.mem_singleton.mp hn
      simp only [State.idleCount, State.busyTotal, mine, defined]
      exact ⟨rfl, rfl⟩
    rw [report, still, takeReports_nil, frame]
    exact ⟨rfl, rfl, rfl⟩
  · have still : ¬Drains t e.group := by
      rintro ⟨draining, pending, idle⟩
      rw [frame] at draining pending
      have held := busy draining _ (DrainBatch.mem_of_resultOf pending)
      have total : t.busyTotal e.group = s.busyTotal e.group := by
        simp only [State.busyTotal, mine, defined]
        split <;> rfl
      rw [← total, idle] at held
      exact absurd held (Nat.lt_irrefl 0)
    have derived : report [e.group] s t = derivedReport ([e.group].filter (countsMoved s t)) s t :=
      takeReports_of_not_drains fun n hn => by
        obtain rfl := List.mem_singleton.mp (List.mem_of_mem_filter hn)
        exact still
    rw [derived, derivedReport_one_svc]
    have rest := derivedReport_service ([e.group].filter (countsMoved s t)) s t
    rw [show t.service = s.service by rw [frame]] at rest
    refine ⟨fun clear => ?_, rest⟩
    rw [if_neg (by simp [clear])] at mine
    have moved : countsMoved s t e.group = true := by
      refine (countsMoved_iff _ _ _).mpr fun same => ?_
      have idle := same.1
      simp only [State.idleCount, mine, defined, Group.idleCount] at idle
      exact Nat.succ_ne_self _ idle
    rw [if_pos ⟨rfl, moved⟩, derivedSvc_of_some mine, svcT]
  · have sound := levels routes sound
    have ⟨_, _, _, _, exhaustion, _, groupLevels, _⟩ := sound
    exact ⟨sound, exhaustion, fun range => groupLevels _ range⟩

end Sys2Proof.Machine
end

section
/-! The drain batch through every command (R32 to R43): what BatchSound and PendingBusy ask, taken apart, and what the tests of
members keep of it. -/

namespace Sys2Proof.Machine

/-! ## The invariant, taken apart -/

/-- R33: the fields of the batch record but for the results of its members. -/
structure DrainBatch.Formed (b : DrainBatch) : Prop where
  few : b.members.length ≤ Config.batchMembers
  once : (b.members.map (·.group)).Nodup
  limit : b.deadline ≤ 3600
  none : b.state = .none → b = .empty
  window : b.windowExpiry.isSome = true ↔ b.state = .forming
  expiry : b.deadlineExpiry.isSome = true ↔ b.state = .draining ∧ b.deadline ≠ 0 ∧ b.deadlinePassed = false
  left : b.remaining.isSome = true ↔ b.state = .suspended ∧ b.deadline ≠ 0
  passed : b.deadlinePassed = true → b.state = .draining

/-- R36: no member of a forming batch has been drained or returned. -/
def DrainBatch.Opening (b : DrainBatch) : Prop :=
  b.state = .forming → ∀ m ∈ b.members, m.result = .pending ∨ m.result = .isProtected

/-- R32: the groups that drain are the pending members, and each drains as its batch does. -/
def ServiceFits (s : State) : Prop :=
  ∀ n,
    (⟨n, .pending⟩ ∈ s.service.batch.members →
      (s.group n).isSome = true ∧
        (s.svc n).service = if s.service.batch.state = .suspended then .drainSuspended else .draining) ∧
    ((s.svc n).service = .draining ∨ (s.svc n).service = .drainSuspended → ⟨n, .pending⟩ ∈ s.service.batch.members)

theorem DrainBatch.not_complete_iff (b : DrainBatch) :
    b.complete = false ↔ (b.state = .draining ∨ b.state = .suspended → ∃ m ∈ b.members, m.result = .pending) := by
  rw [← Bool.not_eq_true, complete_iff]
  push Not
  exact Iff.rfl

theorem batchSound_iff (s : State) :
    BatchSound s ↔
      s.service.batch.Formed ∧ s.service.batch.Opening ∧ s.service.batch.complete = false ∧ ServiceFits s := by
  rw [DrainBatch.not_complete_iff]
  constructor
  · rintro ⟨h1, h2, h3, h4, h5, h6, h7, h8, h9, h10, h11⟩
    exact ⟨⟨h1, h2, h3, h4, h5, h6, h7, h8⟩, h9, h10, h11⟩
  · rintro ⟨⟨h1, h2, h3, h4, h5, h6, h7, h8⟩, h9, h10, h11⟩
    exact ⟨h1, h2, h3, h4, h5, h6, h7, h8, h9, h10, h11⟩

theorem DrainBatch.empty_formed : DrainBatch.empty.Formed where
  few := Nat.zero_le _
  once := List.nodup_nil
  limit := Nat.zero_le _
  none _ := rfl
  window := by decide
  expiry := by decide
  left := by decide
  passed := by decide

theorem DrainBatch.Formed.settled {b : DrainBatch} (h : b.Formed) : b.settled.Formed := by
  cases done : b.complete
  · rw [DrainBatch.settled_of_not_complete done]
    exact h
  · rw [DrainBatch.settled_of_complete done]
    exact DrainBatch.empty_formed

/-- The results of members say nothing of the other fields. -/
theorem DrainBatch.Formed.withMembers {b : DrainBatch} (h : b.Formed) {ms : List Member}
    (groups : ms.map (·.group) = b.members.map (·.group)) : DrainBatch.Formed { b with members := ms } where
  few := by
    have same := congrArg List.length groups
    rw [List.length_map, List.length_map] at same
    rw [same]
    exact h.few
  once := by rw [groups]; exact h.once
  limit := h.limit
  none idle := by
    have empty := h.none idle
    rw [show b.members = [] by rw [empty]; rfl, List.map_nil, List.map_eq_nil_iff] at groups
    rw [groups, empty]
    rfl
  window := h.window
  expiry := h.expiry
  left := h.left
  passed := h.passed

theorem DrainBatch.Formed.withResult {b : DrainBatch} (h : b.Formed) (n : Nat) (v : MemberResult) :
    (b.withResult n v).Formed := h.withMembers (b.groups_withResult n v)

theorem groups_testedMembers (s : State) (gs : List Nat) (ms : List Member) :
    (testedMembers s gs ms).map (·.group) = ms.map (·.group) := by
  simp only [testedMembers, List.map_map]
  refine List.map_congr_left fun m _ => ?_
  simp only [Function.comp]
  split <;> rfl

theorem pending_mem_testedMembers (s : State) (gs : List Nat) (ms : List Member) (n : Nat) :
    ⟨n, .pending⟩ ∈ testedMembers s gs ms ↔ ⟨n, .pending⟩ ∈ ms ∧ ¬(n ∈ gs ∧ s.busyTotal n = 0) := by
  simp only [testedMembers, List.mem_map]
  constructor
  · rintro ⟨m, hm, eq⟩
    split at eq
    · cases eq
    · next still =>
      subst eq
      exact ⟨hm, fun both => still ⟨rfl, both⟩⟩
  · rintro ⟨hm, still⟩
    exact ⟨_, hm, if_neg fun both => still both.2⟩

/-! ## The tests of members -/

/-- R32, R37, R38: tests of members in a DRAINING batch, and the completion that follows, leave a sound batch. -/
theorem testsThenDone_sound {s : State} (formed : s.service.batch.Formed) (fits : ServiceFits s)
    (draining : s.service.batch.state = .draining) (gs : List Nat) :
    BatchSound (completeIfDone (gs.foldl memberTest s)) ∧
      ((∀ n, ⟨n, .pending⟩ ∈ s.service.batch.members → n ∉ gs → 0 < s.busyTotal n) →
        PendingBusy (completeIfDone (gs.foldl memberTest s))) := by
  obtain ⟨batch, svc⟩ := completeIfDone_memberTests gs formed.once draining
  have served := (foldl_memberTest_served gs s).trans (completeIfDone_served (gs.foldl memberTest s))
  generalize completeIfDone (gs.foldl memberTest s) = t at batch svc served
  have tested := formed.withMembers (groups_testedMembers s gs s.service.batch.members)
  have pending : ∀ n, ⟨n, .pending⟩ ∈ t.service.batch.members ↔
      ⟨n, .pending⟩ ∈ s.service.batch.members ∧ ¬(n ∈ gs ∧ s.busyTotal n = 0) := by
    intro n
    rw [← pending_mem_testedMembers, batch]
    cases done : DrainBatch.complete { s.service.batch with members := testedMembers s gs s.service.batch.members }
    · rw [DrainBatch.settled_of_not_complete done]
    · rw [DrainBatch.settled_of_complete done]
      exact iff_of_false List.not_mem_nil fun hm => ((DrainBatch.complete_iff _).mp done).2 _ hm rfl
  have state : t.service.batch.members ≠ [] → t.service.batch.state = .draining := by
    rw [batch]
    cases done : DrainBatch.complete { s.service.batch with members := testedMembers s gs s.service.batch.members }
    · rw [DrainBatch.settled_of_not_complete done]
      exact fun _ => draining
    · rw [DrainBatch.settled_of_complete done]
      exact fun some => absurd rfl some
  refine ⟨(batchSound_iff t).mpr ⟨?formed, ?opening, ?running, fun n => ⟨fun hm => ?pends, fun drains => ?drains⟩⟩,
    fun others _ n hm => ?busy⟩
  case formed =>
    rw [batch]
    exact tested.settled
  case opening =>
    intro forming
    rw [batch] at forming ⊢
    revert forming
    cases done : DrainBatch.complete { s.service.batch with members := testedMembers s gs s.service.batch.members }
    · rw [DrainBatch.settled_of_not_complete done]
      intro forming
      rw [show s.service.batch.state = .forming from forming] at draining
      cases draining
    · rw [DrainBatch.settled_of_complete done]
      exact fun forming => by cases forming
  case running =>
    rw [batch]
    exact DrainBatch.settled_complete _
  case pends =>
    rw [state (List.ne_nil_of_mem hm)]
    obtain ⟨member, still⟩ := (pending n).mp hm
    rw [served.group, svc, if_neg fun ⟨listed, _, idle⟩ => still ⟨listed, idle⟩]
    have := (fits n).1 member
    rw [draining] at this
    exact this
  case drains =>
    rw [svc] at drains
    split at drains
    · rcases drains with h | h <;> cases h
    · next still =>
      have member := (fits n).2 drains
      exact (pending n).mpr ⟨member, fun ⟨listed, idle⟩ => still ⟨listed, member, idle⟩⟩
  case busy =>
    obtain ⟨member, still⟩ := (pending n).mp hm
    rw [served.busyTotal]
    by_cases listed : n ∈ gs
    · exact Nat.pos_of_ne_zero fun idle => still ⟨listed, idle⟩
    · exact others n member listed

theorem completeBatch_sound {s : State} (fits : ServiceFits s)
    (none_pending : ∀ m ∈ s.service.batch.members, m.result ≠ .pending) :
    BatchSound (completeBatch s) ∧ PendingBusy (completeBatch s) := by
  have service := completeBatch_service s
  have batch : (completeBatch s).service.batch = .empty := by rw [service]
  have svc : ∀ n, (completeBatch s).svc n = s.svc n := fun n => State.svc_congr (by rw [service]) n
  refine ⟨(batchSound_iff _).mpr ⟨by rw [batch]; exact DrainBatch.empty_formed, ?_, by rw [batch]; rfl, fun n => ⟨?_, ?_⟩⟩, ?_⟩
  · rw [batch]
    exact fun forming => by cases forming
  · rw [batch]
    exact fun hm => absurd hm List.not_mem_nil
  · rw [svc]
    exact fun drains => absurd rfl (none_pending _ ((fits n).2 drains))
  · rw [PendingBusy, batch]
    exact fun draining => by cases draining

/-! ## What keeps the batch -/

/-- R32, R37: from one state to another the batch stays sound, and its pending members busy. -/
def BatchKept (s t : State) : Prop := BatchSound s → BatchSound t ∧ (PendingBusy s → PendingBusy t)

theorem BatchKept.refl (s : State) : BatchKept s s := fun h => ⟨h, id⟩

theorem BatchKept.trans {s t u : State} (h : BatchKept s t) (g : BatchKept t u) : BatchKept s u := fun sound =>
  have ⟨first, busy⟩ := h sound
  have ⟨second, busier⟩ := g first
  ⟨second, busier ∘ busy⟩

theorem BatchKept.foldl {α : Type} (f : State → α → State) (hf : ∀ s x, BatchKept s (f s x)) (l : List α) (s : State) :
    BatchKept s (l.foldl f s) := by
  induction l generalizing s with
  | nil => exact BatchKept.refl s
  | cons x l ih => exact (hf s x).trans (ih (f s x))

/-- R32: the service state of a group is as it was, or the group is no pending member and does not drain. -/
def ServiceAllowed (s t : State) (n : Nat) : Prop :=
  (t.svc n).service = (s.svc n).service ∨
    (⟨n, .pending⟩ ∉ s.service.batch.members ∧ (t.svc n).service ≠ .draining ∧ (t.svc n).service ≠ .drainSuspended)

theorem ServiceFits.of_same {s t : State} (h : ServiceFits s) (batch : t.service.batch = s.service.batch)
    (svc : ∀ n, ServiceAllowed s t n)
    (defined : ∀ n, ⟨n, .pending⟩ ∈ s.service.batch.members → (s.group n).isSome = true → (t.group n).isSome = true) :
    ServiceFits t := by
  intro n
  rw [batch]
  refine ⟨fun hm => ⟨defined n hm ((h n).1 hm).1, ?_⟩, fun drains => ?_⟩
  · rcases svc n with same | ⟨apart, -⟩
    · exact same.trans ((h n).1 hm).2
    · exact absurd hm apart
  · rcases svc n with same | ⟨-, notDraining, notSuspended⟩
    · rw [same] at drains
      exact (h n).2 drains
    · exact absurd drains (not_or.mpr ⟨notDraining, notSuspended⟩)

/-- With the batch and the service states as they were the batch stays sound. -/
theorem BatchSound.of_same {s t : State} (h : BatchSound s) (batch : t.service.batch = s.service.batch)
    (svc : ∀ n, ServiceAllowed s t n)
    (defined : ∀ n, ⟨n, .pending⟩ ∈ s.service.batch.members → (s.group n).isSome = true → (t.group n).isSome = true) :
    BatchSound t := by
  obtain ⟨formed, opening, running, fits⟩ := (batchSound_iff s).mp h
  exact (batchSound_iff t).mpr ⟨by rw [batch]; exact formed, by rw [batch]; exact opening, by rw [batch]; exact running,
    fits.of_same batch svc defined⟩

theorem BatchKept.of_same {s t : State} (batch : t.service.batch = s.service.batch) (svc : ∀ n, ServiceAllowed s t n)
    (defined : ∀ n, ⟨n, .pending⟩ ∈ s.service.batch.members → (s.group n).isSome = true → (t.group n).isSome = true)
    (busy : ∀ n, ⟨n, .pending⟩ ∈ s.service.batch.members → 0 < s.busyTotal n → 0 < t.busyTotal n) : BatchKept s t := by
  refine fun h => ⟨h.of_same batch svc defined, fun pends draining n hm => ?_⟩
  rw [batch] at draining hm
  exact busy n hm (pends draining n hm)

theorem ServiceAllowed.of_groups {s t : State} (groups : t.service.groups = s.service.groups) (n : Nat) :
    ServiceAllowed s t n := .inl (by rw [State.svc_congr groups])

/-- The plant's groups, the service records and the batch are as they were. -/
theorem BatchKept.of_blocks {s t : State} (plant : t.plant = s.plant) (groups : t.service.groups = s.service.groups)
    (batch : t.service.batch = s.service.batch) : BatchKept s t := by
  have group : ∀ n, t.group n = s.group n := fun n => by simp only [State.group, plant]
  refine BatchKept.of_same batch (ServiceAllowed.of_groups groups) (fun n _ h => by rw [group]; exact h)
    fun n _ h => by rw [State.busyTotal_congr (group n)]; exact h

theorem ExhaustionOnly.batchKept {s t : State} (h : ExhaustionOnly s t) : BatchKept s t :=
  BatchKept.of_blocks h.1.plant (by rw [h.2]) h.batch

theorem Told.batchKept {s t : State} (h : Told s t) : BatchKept s t := h.exhaustionOnly.batchKept

theorem BatchKept.deriveCongestion (s : State) (n : Nat) : BatchKept s (deriveCongestion s n) := by
  have served := deriveCongestion_served s n
  refine BatchKept.of_same (by rw [deriveCongestion_service]) (fun m => .inl ?_) (fun m _ h => by rw [served.group]; exact h)
    fun m _ h => by rw [served.busyTotal]; exact h
  rw [deriveCongestion_svc]
  split
  · next here => rw [here]; exact (derivedSvc_rest s n).2.2
  · rfl

/-- R4, R37: an event of the plant store with its reports keeps the batch: a pending member is tested when its busy total has
changed. -/
theorem BatchKept.takeReports {gs : List Nat} {s t : State} (batch : t.service.batch = s.service.batch)
    (svc : ∀ n, ServiceAllowed s t n)
    (defined : ∀ n, ⟨n, .pending⟩ ∈ s.service.batch.members → (s.group n).isSome = true → (t.group n).isSome = true)
    (busy : ∀ n, ⟨n, .pending⟩ ∈ s.service.batch.members → n ∉ gs → 0 < s.busyTotal n → 0 < t.busyTotal n) (b : State) :
    BatchKept s (takeReports gs b t) := by
  intro sound
  have served := derivedReport_served gs b t
  have derived : BatchSound (derivedReport gs b t) :=
    (sound.of_same batch svc defined).of_same (derivedReport_batch gs b t) (fun n => .inl (derivedReport_state gs b t n))
      fun n _ h => by rw [served.group]; exact h
  have sameBatch : (derivedReport gs b t).service.batch = s.service.batch := (derivedReport_batch gs b t).trans batch
  rw [takeReports_eq]
  obtain ⟨formed, -, running, fits⟩ := (batchSound_iff _).mp derived
  by_cases draining : (derivedReport gs b t).service.batch.state = .draining
  · have tests := testsThenDone_sound formed fits draining gs
    rw [completeIfDone_of_not_complete (foldl_memberTest_not_complete running gs)] at tests
    refine ⟨tests.1, fun pends => tests.2 fun n hm apart => ?_⟩
    rw [served.busyTotal]
    rw [sameBatch] at hm draining
    exact busy n hm apart (pends draining n hm)
  · rw [foldl_memberTest_of_not_draining draining]
    exact ⟨derived, fun _ h => absurd h draining⟩

theorem BatchKept.report {gs : List Nat} {s t : State} (service : t.service = s.service)
    (defined : ∀ n, (s.group n).isSome = true → (t.group n).isSome = true)
    (busy : ∀ n, n ∉ gs → 0 < s.busyTotal n → 0 < t.busyTotal n) : BatchKept s (report gs s t) := by
  refine BatchKept.takeReports (by rw [service]) (ServiceAllowed.of_groups (by rw [service])) (fun n _ => defined n)
    (fun n _ apart held => ?_) s
  by_cases listed : n ∈ gs
  · have same : t.busyTotal n = s.busyTotal n := by
      have still : ¬countsMoved s t n = true := fun moved => apart (List.mem_filter.mpr ⟨listed, moved⟩)
      rw [countsMoved_iff, not_not] at still
      exact still.2
    rw [same]
    exact held
  · exact busy n listed held

end Sys2Proof.Machine
end

section
/-! The drain batch through the events of the plant store (chapter 1). -/

namespace Sys2Proof.Machine

/-! ## One circuit changes -/

theorem changeCircuit_isSome (c : Nat) (f : Equipped → Equipped) (s : State) (n : Nat) :
    ((changeCircuit c f s).group n).isSome = (s.group n).isSome := by
  cases here : s.circuit c with
  | none => simp only [changeCircuit, here]
  | some e =>
    rw [changeCircuit_group f here]
    split
    · exact Option.isSome_map
    · rfl

theorem changeCircuit_service (c : Nat) (f : Equipped → Equipped) (s : State) :
    (changeCircuit c f s).service = s.service := by
  rw [changeCircuit_plantOnly]

theorem BatchKept.changeAndReport (c : Nat) (f : Equipped → Equipped) (s : State) :
    BatchKept s (changeAndReport c f s) := by
  cases here : s.circuit c with
  | none =>
    have same : Machine.changeAndReport c f s = s := by simp only [Machine.changeAndReport, here]
    rw [same]
    exact BatchKept.refl s
  | some e =>
    rw [changeAndReport_eq here]
    refine BatchKept.report (changeCircuit_service c f s) (fun n h => by rw [changeCircuit_isSome]; exact h)
      fun n apart held => ?_
    rw [State.busyTotal_congr (s := s)]
    · exact held
    · rw [changeCircuit_group f here, if_neg (by simpa using apart)]

theorem BatchKept.occupyIn (c : Nat) (call : CallRef) (s : State) : BatchKept s (occupyIn c call s) :=
  BatchKept.changeAndReport _ _ _

theorem BatchKept.undoInbound (c : Nat) (f : Former) (s : State) : BatchKept s (undoInbound c f s) :=
  BatchKept.changeAndReport _ _ _

theorem BatchKept.releaseLeg (c : Nat) (call : CallRef) (fault : Bool) (s : State) :
    BatchKept s (releaseLeg c call fault s) := by
  cases here : s.circuit c with
  | none =>
    have same : Machine.releaseLeg c call fault s = s := by simp only [Machine.releaseLeg, here]
    rw [same]
    exact BatchKept.refl s
  | some e =>
    cases held : heldBy e call
    · rw [releaseLeg_of_not_held here held]
      exact BatchKept.refl s
    · rw [releaseLeg_of_held here held, ← changeAndReport_eq here]
      exact BatchKept.changeAndReport _ _ _

theorem BatchKept.expireGuard (c : Nat) (s : State) : BatchKept s (expireGuard c s) := by
  by_cases reached : ∃ e x, s.circuit c = some e ∧ e.occupancy = .guard x ∧ x ≤ s.now
  · obtain ⟨e, x, here, used, reached⟩ := reached
    rw [expireGuard_reached here used reached, ← changeAndReport_eq here]
    exact BatchKept.changeAndReport _ _ _
  · rw [expireGuard_of_none fun e x here used => Nat.lt_of_not_le fun h => reached ⟨e, x, here, used, h⟩]
    exact BatchKept.refl s

/-- A circuit that moves to busy-out leaves its group with a busy circuit, whatever the counts were. -/
theorem Group.busyTotal_move_busyOut {g : Group} (c : Nat) (old : Condition) (held : 0 < g.busyTotal) :
    0 < (g.move c old .busyOut).busyTotal := by
  unfold Group.move
  split
  · exact held
  · simp only [Group.join, Group.busyTotal]
    omega

theorem BatchKept.occupyOut (n c : Nat) (call : CallRef) (s : State) : BatchKept s (occupyOut n c call s) := by
  have service : (markSeized n c (changeCircuit c (fun e => { e with occupancy := .busyOut call }) s)).service =
      s.service := by
    unfold markSeized
    split <;> exact changeCircuit_service _ _ _
  refine BatchKept.report service (fun m h => ?_) fun m apart held => ?_
  · rw [markSeized_group]
    rw [← changeCircuit_isSome c (fun e => { e with occupancy := .busyOut call })] at h
    split
    · rw [Option.isSome_map]; exact h
    · exact h
  · rw [State.busyTotal_congr (s := changeCircuit c (fun e => { e with occupancy := .busyOut call }) s)
      (by rw [markSeized_group, if_neg (by simpa using apart)])]
    cases here : s.circuit c with
    | none =>
      simp only [changeCircuit, here]
      exact held
    | some e =>
      have group := changeCircuit_group (fun e : Equipped => { e with occupancy := .busyOut call }) here m
      by_cases mine : m = e.group
      · rw [if_pos mine] at group
        cases defined : s.group m with
        | none => simp [State.busyTotal, defined] at held
        | some g =>
          rw [defined, Option.map_some] at group
          simp only [State.busyTotal, defined, group] at held ⊢
          exact Group.busyTotal_move_busyOut c _ held
      · rw [if_neg mine] at group
        rw [State.busyTotal_congr group]
        exact held

/-! ## Flags (R22, R23) -/

@[simp] theorem withFlag_occupancy (k : FlagKind) (v : Bool) (e : Equipped) :
    (withFlag k v e).occupancy = e.occupancy := by
  cases k <;> rfl

@[simp] theorem withFlag_group (k : FlagKind) (v : Bool) (e : Equipped) : (withFlag k v e).group = e.group := by
  cases k <;> rfl

/-- A change of flags moves a circuit between the two counts of IDLE circuits alone. -/
theorem Group.busyTotal_move_flags {e f : Equipped} (same : f.occupancy = e.occupancy) (c : Nat) (g : Group) :
    (g.move c e.condition f.condition).busyTotal = g.busyTotal := by
  unfold Group.move
  split
  · rfl
  · next moved =>
    cases used : e.occupancy with
    | idle =>
      rw [Equipped.condition_idle used, Equipped.condition_idle (same.trans used)]
      cases e.blocked <;> cases f.blocked <;> rfl
    | _ =>
      refine absurd ?_ moved
      simp only [Equipped.condition, used, same.trans used]

theorem changeCircuit_flag_busyTotal (c : Nat) (k : FlagKind) (v : Bool) (s : State) (n : Nat) :
    (changeCircuit c (withFlag k v) s).busyTotal n = s.busyTotal n := by
  cases here : s.circuit c with
  | none => simp only [changeCircuit, here]
  | some e =>
    have group := changeCircuit_group (withFlag k v) here n
    by_cases mine : n = e.group
    · rw [if_pos mine] at group
      cases defined : s.group n with
      | none =>
        rw [defined, Option.map_none] at group
        simp only [State.busyTotal, defined, group]
      | some g =>
        rw [defined, Option.map_some] at group
        simp only [State.busyTotal, defined, group]
        exact Group.busyTotal_move_flags (withFlag_occupancy k v e) c g
    · rw [if_neg mine] at group
      exact State.busyTotal_congr group

/-- R22, R23: the circuits of a request with one flag set or cleared. -/
def flagAll (cs : List (Nat × Equipped)) (k : FlagKind) (v : Bool) (s : State) : State :=
  cs.foldl (fun s e => changeCircuit e.1 (withFlag k v) s) s

theorem flagRange_eq (r : Range) (k : FlagKind) (v : Bool) (s : State) :
    flagRange r k v s = report (groupsOf (equippedIn s r)) s (flagAll (equippedIn s r) k v s) := rfl

theorem flagAll_spec (cs : List (Nat × Equipped)) (k : FlagKind) (v : Bool) (s : State) :
    (flagAll cs k v s).service = s.service ∧ (∀ n, ((flagAll cs k v s).group n).isSome = (s.group n).isSome) ∧
      (∀ n, (flagAll cs k v s).busyTotal n = s.busyTotal n) ∧
      (flagAll cs k v s).plant.locked = s.plant.locked := by
  induction cs generalizing s with
  | nil => exact ⟨rfl, fun _ => rfl, fun _ => rfl, rfl⟩
  | cons e cs ih =>
    obtain ⟨service, isSome, busy, locked⟩ := ih (changeCircuit e.1 (withFlag k v) s)
    exact ⟨service.trans (changeCircuit_service _ _ _), fun n => (isSome n).trans (changeCircuit_isSome _ _ _ n),
      fun n => (busy n).trans (changeCircuit_flag_busyTotal _ _ _ _ n), locked.trans (changeCircuit_locked _ _ _)⟩

theorem BatchKept.flagRange (r : Range) (k : FlagKind) (v : Bool) (s : State) : BatchKept s (flagRange r k v s) := by
  obtain ⟨service, isSome, busy, -⟩ := flagAll_spec (equippedIn s r) k v s
  rw [flagRange_eq]
  exact BatchKept.report service (fun n h => by rw [isSome]; exact h) fun n _ h => by rw [busy]; exact h

/-! ## Groups (R5 to R9, R26) -/

theorem BatchKept.defineGroup (d : GroupDefinition) (dir : Direction) (gl : GlareRule) (hu : HuntMode) (s : State) :
    BatchKept s (defineGroup d dir gl hu s) := by
  intro sound
  obtain ⟨-, -, -, fits⟩ := (batchSound_iff s).mp sound
  obtain ⟨service, -, -⟩ := defineGroup_rebuilt d dir gl hu s
  obtain ⟨-, first⟩ := groupEquipped_rest d dir gl hu s
  have group := defineGroup_group d dir gl hu s
  rw [defineGroup_eq]
  have kept : BatchKept s (Machine.report [d.group] s (rebuild (groupEquipped d dir gl hu s) d.group)) := by
    refine BatchKept.takeReports ?_ (fun n => ?_) (fun n _ h => ?_) (fun n _ apart held => ?_) s
    · rw [service, first]
      split <;> rfl
    · cases defined : s.group d.group with
      | none =>
        rw [defined] at first
        have svc : (rebuild (groupEquipped d dir gl hu s) d.group).svc n =
            if n = d.group then .initial else s.svc n := by
          rw [State.svc, service, first]
          exact Table.get_set _ _ _ _
        by_cases here : n = d.group
        · refine .inr ⟨fun pending => ?_, ?_⟩
          · have some := ((fits n).1 pending).1
            rw [here, defined] at some
            cases some
          · rw [svc, if_pos here]
            decide
        · exact .inl (by rw [svc, if_neg here])
      | some g =>
        rw [defined, if_pos (by rfl)] at first
        exact ServiceAllowed.of_groups (by rw [service, first]) n
    · rw [group]
      split
      · rfl
      · exact h
    · by_cases here : n = d.group
      · have still : ¬countsMoved s (rebuild (groupEquipped d dir gl hu s) d.group) n = true := fun moved =>
          apart (List.mem_filter.mpr ⟨by simp [here], moved⟩)
        rw [countsMoved_iff, not_not] at still
        rw [still.2]
        exact held
      · rw [State.busyTotal_congr (s := s) (by rw [group, if_neg here])]
        exact held
  exact kept sound

theorem BatchKept.rederive (n : Nat) (s : State) : BatchKept s (rederive n s) :=
  (BatchKept.deriveCongestion s n).trans (reevaluate_exhaustionOnly _ _ _).batchKept

theorem BatchKept.changeGroup {n : Nat} {g : Group} {s : State} (defined : s.group n = some g) (p : GroupChanges) :
    BatchKept s (changeGroup n p g s) := by
  have stored : BatchKept s (s.setGroup n (some (changedRecord p g))) := by
    refine BatchKept.of_same rfl (ServiceAllowed.of_groups rfl) (fun m _ h => ?_) (fun m _ h => ?_)
    · rw [setGroup_group]
      split
      · rfl
      · exact h
    · by_cases here : m = n
      · subst here
        simp only [State.busyTotal, setGroup_group, defined, if_true] at h ⊢
        exact h
      · rw [State.busyTotal_congr (s := s) (by rw [setGroup_group, if_neg here])]
        exact h
  rw [changeGroup_eq]
  split
  · exact stored.trans (BatchKept.rederive _ _)
  · exact stored

theorem BatchKept.deleteGroup {n : Nat} {s : State} (apart : s.service.batch.resultOf n ≠ some .pending) :
    BatchKept s (deleteGroup n s) := by
  refine BatchKept.trans (fun sound => ?_) (deleteGroup_exhaustionOnly n s).batchKept
  obtain ⟨formed, -, -, -⟩ := (batchSound_iff s).mp sound
  have apart : ⟨n, .pending⟩ ∉ s.service.batch.members := fun member =>
    apart ((DrainBatch.resultOf_eq_some_iff formed.once n .pending).mpr member)
  have other : ∀ m, ⟨m, .pending⟩ ∈ s.service.batch.members → (groupRemoved n s).group m = s.group m := by
    intro m member
    rw [groupRemoved_group, if_neg (by rintro rfl; exact apart member)]
  have kept : BatchKept s (groupRemoved n s) := by
    refine BatchKept.of_same rfl (fun m => ?_) (fun m member h => by rw [other m member]; exact h)
      fun m member h => by rw [State.busyTotal_congr (other m member)]; exact h
    by_cases here : m = n
    · refine .inr ⟨by rw [here]; exact apart, ?_⟩
      rw [groupRemoved_svc, if_pos here]
      decide
    · exact .inl (by rw [groupRemoved_svc, if_neg here])
  exact kept sound

theorem rebuild_service (s : State) (n : Nat) : (rebuild s n).service = s.service := by
  rw [rebuild_eq]
  cases s.group n <;> rfl

theorem foldl_rebuild_spec (gs : List Nat) (s : State) :
    (gs.foldl rebuild s).service = s.service ∧ ∀ n, ((gs.foldl rebuild s).group n).isSome = (s.group n).isSome := by
  induction gs generalizing s with
  | nil => exact ⟨rfl, fun _ => rfl⟩
  | cons g gs ih =>
    obtain ⟨service, isSome⟩ := ih (rebuild s g)
    exact ⟨service.trans (rebuild_service s g), fun n => (isSome n).trans (rebuild_isSome s g n)⟩

theorem BatchKept.clearPlant (s : State) : BatchKept s (clearPlant s) := by
  obtain ⟨service, isSome⟩ := foldl_rebuild_spec (definedGroups s) (idleAll s)
  refine BatchKept.takeReports (by rw [service]; rfl) (ServiceAllowed.of_groups (by rw [service]; rfl))
    (fun n _ h => by rw [isSome]; exact h) (fun n _ apart held => ?_) s
  have undefined : s.group n = none := by
    cases defined : s.group n with
    | none => rfl
    | some g => exact absurd (mem_definedGroups (by rw [defined]; rfl)) apart
  simp [State.busyTotal, undefined] at held

end Sys2Proof.Machine
end

section
/-! The drain batch through the requests and events of chapter 2. -/

namespace Sys2Proof.Machine

/-! ## The join window (R36) -/

theorem State.batch_group (s : State) (b : DrainBatch) (n : Nat) : (s.setBatch b).group n = s.group n := rfl

theorem DrainBatch.Formed.started {b : DrainBatch} (h : b.Formed) (forming : b.state = .forming) (now : Nat) :
    (b.started now).Formed where
  few := h.few
  once := h.once
  limit := h.limit
  none idle := by cases idle
  window := by simp [DrainBatch.started]
  expiry := by
    have running : b.deadlinePassed = false := Bool.eq_false_iff.mpr fun passed => by
      have := h.passed passed
      rw [forming] at this
      cases this
    by_cases limit : b.deadline = 0 <;> simp [DrainBatch.started, limit, running]
  left := by
    have none : ¬b.remaining.isSome = true := fun some => by
      have := (h.left.mp some).1
      rw [forming] at this
      cases this
    simp [DrainBatch.started] at none ⊢
    exact none
  passed _ := rfl

/-- R36, R37: the close of the window leaves a sound batch whose pending members are busy, whatever the results of the members
were. -/
theorem closeWindow_sound {s : State} (formed : s.service.batch.Formed) (fits : ServiceFits s)
    (forming : s.service.batch.state = .forming) : BatchSound (closeWindow s) ∧ PendingBusy (closeWindow s) := by
  by_cases all : ∀ m ∈ s.service.batch.members, m.result = .isProtected
  · rw [closeWindow_allProtected forming all]
    exact completeBatch_sound fits fun m hm pending => by
      have isProtected := all m hm
      rw [pending] at isProtected
      cases isProtected
  · push Not at all
    rw [closeWindow_starts forming all]
    have draining : (s.setBatch (s.service.batch.started s.now)).service.batch.state = .draining := rfl
    have startedFits : ServiceFits (s.setBatch (s.service.batch.started s.now)) := by
      intro n
      refine ⟨fun member => ?_, (fits n).2⟩
      have := (fits n).1 member
      rw [forming] at this
      exact this
    obtain ⟨sound, busy⟩ := testsThenDone_sound (s := s.setBatch (s.service.batch.started s.now))
      (formed.started forming s.now) startedFits draining s.service.batch.pendingGroups
    exact ⟨sound, busy fun n member apart => absurd ((DrainBatch.mem_pendingGroups _ n).mpr member) apart⟩

/-- R37: the close of a window tests every pending member. -/
theorem closeWindow_pendingBusy {s : State} (sound : BatchSound s) (busy : s.service.batch.state ≠ .forming → PendingBusy s) :
    BatchSound (closeWindow s) ∧ PendingBusy (closeWindow s) := by
  by_cases forming : s.service.batch.state = .forming
  · obtain ⟨formed, -, -, fits⟩ := (batchSound_iff s).mp sound
    exact closeWindow_sound formed fits forming
  · rw [closeWindow_of_not_forming forming]
    exact ⟨sound, busy forming⟩

theorem BatchKept.closeWindow (s : State) : BatchKept s (closeWindow s) := by
  intro sound
  by_cases forming : s.service.batch.state = .forming
  · have after := closeWindow_pendingBusy sound fun h => absurd forming h
    exact ⟨after.1, fun _ => after.2⟩
  · rw [closeWindow_of_not_forming forming]
    exact ⟨sound, id⟩

/-! ## RETURN_GROUP (R41) -/

theorem BatchKept.toService {n : Nat} {s : State} (out : (s.svc n).service = .outOfService) :
    BatchKept s (toService n s) := by
  have served : Served s (Machine.toService n s) := (Served.setSvc s n _).trans (reevaluate_served _ _ _)
  refine fun sound => (BatchKept.of_same (toService_batch n s) (fun m => ?_) (fun m _ h => ?_) fun m _ h => ?_) sound
  · obtain ⟨-, -, -, fits⟩ := (batchSound_iff s).mp sound
    by_cases here : m = n
    · refine .inr ⟨fun member => ?_, ?_⟩
      · have drains := ((fits m).1 member).2
        rw [here, out] at drains
        split at drains <;> cases drains
      · rw [toService_svc, if_pos here]
        exact ⟨ServiceState.noConfusion, ServiceState.noConfusion⟩
    · exact .inl (by rw [toService_svc, if_neg here])
  · rw [served.group]
    exact h
  · rw [served.busyTotal]
    exact h

/-- R41: a pending member that returns leaves the batch formed and its members fitting their groups. -/
theorem returnGroup_pending_fits {n : Nat} {s : State} (formed : s.service.batch.Formed) (fits : ServiceFits s)
    (pending : s.service.batch.resultOf n = some .pending) :
    (returnGroup n s).service.batch.Formed ∧ ServiceFits (returnGroup n s) ∧
      (PendingBusy s → PendingBusy (returnGroup n s)) := by
  have batch := returnGroup_pending_batch pending
  have svc := returnGroup_pending_svc pending
  have served := returnGroup_served n s
  have member : ∀ m, ⟨m, .pending⟩ ∈ (returnGroup n s).service.batch.members ↔
      m ≠ n ∧ ⟨m, .pending⟩ ∈ s.service.batch.members := by
    intro m
    have still : ⟨m, .pending⟩ ∈ (s.service.batch.withResult n .returned).members ↔
        m ≠ n ∧ ⟨m, .pending⟩ ∈ s.service.batch.members := by
      rw [DrainBatch.mem_withResult_iff]
      simp
    rw [batch, ← still]
    cases done : (s.service.batch.withResult n .returned).complete
    · rw [DrainBatch.settled_of_not_complete done]
    · rw [DrainBatch.settled_of_complete done]
      exact iff_of_false List.not_mem_nil fun hm => ((DrainBatch.complete_iff _).mp done).2 _ hm rfl
  have state : (returnGroup n s).service.batch.members ≠ [] →
      (returnGroup n s).service.batch.state = s.service.batch.state := by
    rw [batch]
    cases done : (s.service.batch.withResult n .returned).complete
    · rw [DrainBatch.settled_of_not_complete done]
      exact fun _ => rfl
    · rw [DrainBatch.settled_of_complete done]
      exact fun some => absurd rfl some
  refine ⟨by rw [batch]; exact (formed.withResult n .returned).settled, fun m => ⟨fun hm => ?_, fun drains => ?_⟩,
    fun busy draining m hm => ?_⟩
  · obtain ⟨other, before⟩ := (member m).mp hm
    rw [served.group, svc, if_neg other, state (List.ne_nil_of_mem hm)]
    exact (fits m).1 before
  · rw [svc] at drains
    split at drains
    · rcases drains with h | h <;> cases h
    · next other => exact (member m).mpr ⟨other, (fits m).2 drains⟩
  · rw [served.busyTotal]
    rw [state (List.ne_nil_of_mem hm)] at draining
    exact busy draining m ((member m).mp hm).2

/-- R36, R41: RETURN_GROUP acts and then closes the window; a RETURNED member does not stand in a forming batch between
requests. -/
theorem BatchKept.returnGroup_closeWindow (n : Nat) (s : State) : BatchKept s (Machine.closeWindow (returnGroup n s)) := by
  intro sound
  by_cases pending : s.service.batch.resultOf n = some .pending
  · obtain ⟨formed, -, -, fits⟩ := (batchSound_iff s).mp sound
    obtain ⟨formed, fits, busy⟩ := returnGroup_pending_fits formed fits pending
    by_cases forming : (returnGroup n s).service.batch.state = .forming
    · have after := closeWindow_sound formed fits forming
      exact ⟨after.1, fun _ => after.2⟩
    · rw [closeWindow_of_not_forming forming]
      refine ⟨(batchSound_iff _).mpr ⟨formed, fun h => absurd h forming, ?_, fits⟩, busy⟩
      rw [returnGroup_pending_batch pending]
      exact DrainBatch.settled_complete _
  · refine BatchKept.trans ?_ (BatchKept.closeWindow _) sound
    by_cases out : (s.svc n).service = .outOfService
    · rw [returnGroup_outOfService pending out]
      exact BatchKept.toService out
    · rw [returnGroup_stays pending out]
      exact BatchKept.refl s

/-! ## DRAIN_SUSPEND and DRAIN_RESUME (R39, R40) -/

theorem BatchKept.suspendBatch {s : State} (left : Option Nat)
    (some_pending : ∃ m ∈ s.service.batch.members, m.result = .pending)
    (rest : left.isSome = true ↔ s.service.batch.deadline ≠ 0) (early : s.service.batch.deadlinePassed = false) :
    BatchKept s (suspendBatch left s) := by
  intro sound
  obtain ⟨formed, -, -, fits⟩ := (batchSound_iff s).mp sound
  have batch := suspendBatch_batch left s
  have svc := suspendBatch_svc left s
  have served := suspendBatch_served left s
  refine ⟨(batchSound_iff _).mpr ⟨?_, ?_, ?_, fun n => ?_⟩, ?_⟩
  · rw [batch]
    exact {
      few := formed.few
      once := formed.once
      limit := formed.limit
      none := fun h => by cases h
      window := by simp [DrainBatch.paused]
      expiry := by simp [DrainBatch.paused]
      left := by simpa [DrainBatch.paused] using rest
      passed := fun passed => by
        rw [show s.service.batch.deadlinePassed = true from passed] at early
        cases early }
  · rw [batch]
    exact fun h => by cases h
  · rw [batch, DrainBatch.not_complete_iff]
    exact fun _ => some_pending
  · rw [batch, served.group, svc]
    refine ⟨fun member => ⟨((fits n).1 member).1, ?_⟩, fun drains => ?_⟩
    · rw [if_pos ((DrainBatch.mem_pendingGroups s.service.batch n).mpr member)]
      rfl
    · split at drains
      · next listed => exact (DrainBatch.mem_pendingGroups _ n).mp listed
      · exact (fits n).2 drains
  · intro _ draining
    rw [batch] at draining
    cases draining

theorem DrainBatch.Formed.resumed {b : DrainBatch} (h : b.Formed) (suspended : b.state = .suspended) (now : Nat) :
    (b.resumed now).Formed where
  few := h.few
  once := h.once
  limit := h.limit
  none idle := by cases idle
  window := by
    have none : ¬b.windowExpiry.isSome = true := fun some => by
      have := h.window.mp some
      rw [suspended] at this
      cases this
    simp [DrainBatch.resumed] at none ⊢
    exact none
  expiry := by
    have running : b.deadlinePassed = false := Bool.eq_false_iff.mpr fun passed => by
      have := h.passed passed
      rw [suspended] at this
      cases this
    have left := h.left
    simp [suspended] at left
    simp [DrainBatch.resumed, running, left]
  left := by simp [DrainBatch.resumed]
  passed _ := rfl

theorem BatchKept.resumeBatch {s : State} (suspended : s.service.batch.state = .suspended) :
    BatchKept s (resumeBatch s) := by
  intro sound
  obtain ⟨formed, -, -, fits⟩ := (batchSound_iff s).mp sound
  rw [resumeBatch_eq]
  have batch := movePending_batch s.service.batch.pendingGroups .draining s (s.setBatch (s.service.batch.resumed s.now))
  have svc := movePending_svc s.service.batch.pendingGroups .draining s (s.setBatch (s.service.batch.resumed s.now))
  have served := movePending_served s.service.batch.pendingGroups .draining s (s.setBatch (s.service.batch.resumed s.now))
  generalize movePending s.service.batch.pendingGroups .draining s (s.setBatch (s.service.batch.resumed s.now)) = t
    at batch svc served
  have resumed : t.service.batch = s.service.batch.resumed s.now := batch
  have tFits : ServiceFits t := by
    intro n
    rw [resumed, served.group, svc]
    refine ⟨fun member => ⟨((fits n).1 member).1, ?_⟩, fun drains => ?_⟩
    · rw [if_pos ((DrainBatch.mem_pendingGroups s.service.batch n).mpr member)]
      rfl
    · split at drains
      · next listed => exact (DrainBatch.mem_pendingGroups _ n).mp listed
      · exact (fits n).2 drains
  obtain ⟨sound, busy⟩ := testsThenDone_sound (by rw [resumed]; exact formed.resumed suspended s.now) tFits
    (by rw [resumed]; rfl) s.service.batch.pendingGroups
  refine ⟨sound, fun _ => busy fun n member apart => absurd ((DrainBatch.mem_pendingGroups _ n).mpr ?_) apart⟩
  rw [resumed] at member
  exact member

/-! ## The requests of chapter 2 -/

theorem BatchKept.handleDrainSuspend (s : State) : BatchKept s (handleDrainSuspend s).state := by
  intro sound
  obtain ⟨formed, opening, running, fits⟩ := (batchSound_iff s).mp sound
  cases state : s.service.batch.state with
  | none =>
    rw [handleDrainSuspend_refuses (.inl state)]
    exact ⟨sound, id⟩
  | suspended =>
    rw [handleDrainSuspend_refuses (.inr (.inl state))]
    exact ⟨sound, id⟩
  | forming =>
    by_cases all : ∀ m ∈ s.service.batch.members, m.result = .isProtected
    · rw [handleDrainSuspend_completes state all]
      have after := completeBatch_sound fits fun m hm pending => by
        have isProtected := all m hm
        rw [pending] at isProtected
        cases isProtected
      exact ⟨after.1, fun _ => after.2⟩
    · push Not at all
      rw [handleDrainSuspend_suspends (.inl ⟨state, all, rfl⟩)]
      refine BatchKept.suspendBatch _ ?_ ?_ ?_ sound
      · obtain ⟨m, hm, open_⟩ := all
        exact ⟨m, hm, (opening state m hm).resolve_right open_⟩
      · by_cases limit : s.service.batch.deadline = 0 <;> simp [limit]
      · exact Bool.eq_false_iff.mpr fun passed => by
          have := formed.passed passed
          rw [state] at this
          cases this
  | draining =>
    cases passed : s.service.batch.deadlinePassed
    · rw [handleDrainSuspend_suspends (.inr ⟨state, passed, rfl⟩)]
      refine BatchKept.suspendBatch _
        ((DrainBatch.not_complete_iff _).mp running (.inl state)) ?_ passed sound
      rw [Option.isSome_map, formed.expiry]
      simp [state, passed]
    · rw [handleDrainSuspend_refuses (.inr (.inr ⟨state, passed⟩))]
      exact ⟨sound, id⟩

theorem BatchKept.handleDrainResume (s : State) : BatchKept s (handleDrainResume s).state := by
  unfold Machine.handleDrainResume
  split
  · next suspended => exact BatchKept.resumeBatch suspended
  · exact BatchKept.refl s

theorem BatchKept.handleReturnGroup (n : Nat) (s : State) : BatchKept s (handleReturnGroup n s).state := by
  unfold Machine.handleReturnGroup
  split
  · exact BatchKept.closeWindow s
  split
  · exact BatchKept.closeWindow s
  · exact BatchKept.returnGroup_closeWindow n s

theorem BatchKept.setSvc_far {s : State} {n : Nat} {v : GroupService} (same : v.service = (s.svc n).service) :
    BatchKept s (s.setSvc n v) := by
  refine BatchKept.of_same rfl (fun m => .inl ?_) (fun _ _ h => h) fun _ _ h => h
  by_cases here : m = n
  · rw [here, State.svc_setSvc_same, same]
  · rw [State.svc_setSvc_other _ _ _ _ here]

theorem BatchKept.farReport (n level : Nat) (s : State) : BatchKept s (farReport n level s) := by
  unfold Machine.farReport
  cases s.group n with
  | none => exact BatchKept.refl s
  | some g => exact BatchKept.setSvc_far rfl

theorem BatchKept.handleFarReport (n level : Nat) (s : State) : BatchKept s (handleFarReport n level s).state := by
  unfold Machine.handleFarReport
  split
  · exact BatchKept.refl s
  split
  · exact BatchKept.refl s
  · exact BatchKept.farReport _ _ s

theorem BatchKept.expireDecay (n : Nat) (s : State) : BatchKept s (expireDecay n s) := by
  unfold Machine.expireDecay
  split
  · split
    · exact BatchKept.setSvc_far rfl
    · exact BatchKept.refl s
  · exact BatchKept.refl s

/-! ## DRAIN_GROUP (R34, R35) -/

theorem DrainBatch.Formed.contributors {b : DrainBatch} (h : b.Formed) {v : PerPort Bool}
    (idle : b.state = .none → v = PerPort.all false) : DrainBatch.Formed { b with contributors := v } where
  few := h.few
  once := h.once
  limit := h.limit
  none state := by
    have same := h.none state
    show ({ b with contributors := v } : DrainBatch) = _
    rw [idle state, same]
    rfl
  window := h.window
  expiry := h.expiry
  left := h.left
  passed := h.passed

/-- The contributors are no part of what the batch owes its groups. -/
theorem BatchKept.setContributors {s : State} {v : PerPort Bool}
    (idle : s.service.batch.Formed → s.service.batch.state = .none → v = PerPort.all false) :
    BatchKept s (s.setBatch { s.service.batch with contributors := v }) := by
  intro sound
  obtain ⟨formed, opening, running, fits⟩ := (batchSound_iff s).mp sound
  exact ⟨(batchSound_iff _).mpr ⟨formed.contributors (idle formed), opening, running, fits⟩, id⟩

theorem DrainBatch.Formed.joinedBy {b : DrainBatch} (h : b.Formed) (p : Port) {deadline : Nat} (range : deadline ≤ 3600)
    (now : Nat) : (b.joinedBy p deadline now).Formed := by
  unfold DrainBatch.joinedBy
  by_cases state : b.state = .none
  · simp only [if_pos state]
    exact {
      few := Nat.zero_le _
      once := List.nodup_nil
      limit := range
      none := fun h => by cases h
      window := by simp
      expiry := by simp [DrainBatch.empty]
      left := by simp [DrainBatch.empty]
      passed := fun h => by cases h }
  · simp only [if_neg state]
    exact h.contributors fun none => absurd none state

theorem DrainBatch.joinedBy_running {b : DrainBatch} (h : b.state ≠ .none) (p : Port) (deadline now : Nat) :
    (b.joinedBy p deadline now).state = b.state ∧ (b.joinedBy p deadline now).members = b.members := by
  simp only [DrainBatch.joinedBy, if_neg h, and_self]

theorem DrainBatch.joinedBy_opens {b : DrainBatch} (h : b.state = .none) (p : Port) (deadline now : Nat) :
    (b.joinedBy p deadline now).state = .forming ∧ (b.joinedBy p deadline now).members = [] := by
  simp only [DrainBatch.joinedBy, if_pos h]
  exact ⟨trivial, rfl⟩

theorem DrainBatch.Formed.adding {b : DrainBatch} (h : b.Formed) (state : b.state ≠ .none) {n : Nat}
    (fresh : b.resultOf n = Option.none) (room : b.members.length < 32) (v : MemberResult) : (b.adding n v).Formed where
  few := by
    show (b.members ++ [(⟨n, v⟩ : Member)]).length ≤ 32
    rw [List.length_append]
    exact room
  once := by
    have apart := (DrainBatch.resultOf_eq_none_iff b n).mp fresh
    show ((b.members ++ [(⟨n, v⟩ : Member)]).map (·.group)).Nodup
    rw [List.map_append, List.nodup_append]
    refine ⟨h.once, List.nodup_singleton _, ?_⟩
    rintro x hx y hy rfl
    obtain ⟨m, hm, rfl⟩ := List.mem_map.mp hx
    exact apart m hm (by simpa using hy)
  limit := h.limit
  none idle := absurd idle state
  window := h.window
  expiry := h.expiry
  left := h.left
  passed := h.passed

theorem DrainBatch.mem_adding (b : DrainBatch) (n : Nat) (v : MemberResult) (m : Member) :
    m ∈ (b.adding n v).members ↔ m ∈ b.members ∨ m = ⟨n, v⟩ := by
  simp [DrainBatch.adding]

/-- R34, R35: the batch after a join, with the entry of the joining group to come. -/
theorem BatchKept.setJoined {s : State} (p : Port) {deadline : Nat} (range : deadline ≤ 3600) :
    BatchKept s (s.setBatch (s.service.batch.joinedBy p deadline s.now)) := by
  intro sound
  obtain ⟨formed, opening, running, fits⟩ := (batchSound_iff s).mp sound
  by_cases state : s.service.batch.state = .none
  · obtain ⟨opens, members⟩ := DrainBatch.joinedBy_opens state p deadline s.now
    have before : s.service.batch.members = [] := by rw [formed.none state]; rfl
    refine ⟨(batchSound_iff _).mpr ⟨formed.joinedBy p range s.now, fun _ m hm => ?_, ?_, fun n => ⟨fun hm => ?_, fun h => ?_⟩⟩,
      fun _ draining => ?_⟩
    · rw [State.batch_setBatch, members] at hm
      exact absurd hm List.not_mem_nil
    · rw [State.batch_setBatch, DrainBatch.not_complete_iff, opens]
      rintro (h | h) <;> cases h
    · rw [State.batch_setBatch, members] at hm
      exact absurd hm List.not_mem_nil
    · have := (fits n).2 h
      rw [before] at this
      exact absurd this List.not_mem_nil
    · rw [State.batch_setBatch, opens] at draining
      cases draining
  · obtain ⟨same, members⟩ := DrainBatch.joinedBy_running state p deadline s.now
    refine ⟨(batchSound_iff _).mpr ⟨formed.joinedBy p range s.now, fun h => ?_, ?_, fun n => ?_⟩, fun busy draining => ?_⟩
    · rw [State.batch_setBatch, members]
      rw [State.batch_setBatch, same] at h
      exact opening h
    · rw [DrainBatch.not_complete_iff] at running ⊢
      rw [State.batch_setBatch, same, members]
      exact running
    · rw [State.batch_setBatch, same, members]
      exact fits n
    · rw [State.batch_setBatch, same] at draining
      rw [State.batch_setBatch, members]
      exact busy draining

/-- R35: a group that is no member, and is in service, joins a batch that is open; with its test when it drains at once. -/
theorem BatchKept.joinDraining {s : State} {n : Nat} {g : Group} (defined : s.group n = some g)
    (state : s.service.batch.state ≠ .none) (fresh : s.service.batch.resultOf n = none)
    (room : s.service.batch.members.length < 32) : BatchKept s (joinDraining n g (addMember n g s)) := by
  intro sound
  obtain ⟨formed, opening, running, fits⟩ := (batchSound_iff s).mp sound
  have absent := (DrainBatch.resultOf_eq_none_iff _ n).mp fresh
  cases unprotected : g.drainProtected with
  | true =>
    rw [addMember_protected unprotected, joinDraining_of_not (by simp [unprotected])]
    have pending : ∀ m, ⟨m, .pending⟩ ∈ (s.service.batch.adding n .isProtected).members ↔
        ⟨m, .pending⟩ ∈ s.service.batch.members := fun m => by simp [DrainBatch.mem_adding]
    refine ⟨(batchSound_iff _).mpr ⟨formed.adding state fresh room _, fun forming m hm => ?_, ?_, fun m => ?_⟩,
      fun busy draining m hm => busy draining m ((pending m).mp hm)⟩
    · rcases (DrainBatch.mem_adding _ _ _ _).mp hm with hm | rfl
      · exact opening forming m hm
      · exact .inr rfl
    · rw [DrainBatch.not_complete_iff] at running ⊢
      intro runs
      obtain ⟨m, hm, p⟩ := running runs
      exact ⟨m, (DrainBatch.mem_adding _ _ _ _).mpr (.inl hm), p⟩
    · rw [State.batch_setBatch, pending]
      exact fits m
  | false =>
    have joined : ∀ t : State, t.service.batch = s.service.batch.adding n .pending →
        t.svc n = { s.svc n with service := joinedService s.service.batch.state } →
        (∀ m, m ≠ n → t.svc m = s.svc m) → t.plant = s.plant → BatchSound t := by
      intro t batch here others plant
      have group : ∀ m, t.group m = s.group m := fun m => by simp only [State.group, plant]
      refine (batchSound_iff t).mpr ⟨by rw [batch]; exact formed.adding state fresh room _, ?_, ?_, fun m => ?_⟩
      · rw [batch]
        intro forming m hm
        rcases (DrainBatch.mem_adding _ _ _ _).mp hm with hm | rfl
        · exact opening forming m hm
        · exact .inl rfl
      · rw [batch, DrainBatch.not_complete_iff]
        exact fun _ => ⟨⟨n, .pending⟩, (DrainBatch.mem_adding _ _ _ _).mpr (.inr rfl), rfl⟩
      · rw [batch, DrainBatch.mem_adding, group]
        by_cases mine : m = n
        · subst mine
          rw [here]
          exact ⟨fun _ => ⟨by rw [defined]; rfl, rfl⟩, fun _ => .inr rfl⟩
        · rw [others m mine]
          refine ⟨fun hm => (fits m).1 (hm.resolve_right (by simp [mine])), fun h => .inl ((fits m).2 h)⟩
    by_cases draining : s.service.batch.state = .draining
    · rw [joinDraining_addMember draining unprotected]
      obtain ⟨batch, here, others, plant, -, -⟩ := joinedUntested_spec unprotected n s
      have group : ∀ m, (joinedUntested n g s).group m = s.group m := fun m => by simp only [State.group, plant]
      have sound := joined _ batch here others plant
      obtain ⟨formed, -, running, fits⟩ := (batchSound_iff _).mp sound
      have tests := testsThenDone_sound formed fits (by rw [batch]; exact draining) [n]
      rw [completeIfDone_of_not_complete (foldl_memberTest_not_complete running [n])] at tests
      refine ⟨tests.1, fun busy => tests.2 fun m hm apart => ?_⟩
      rw [State.busyTotal_congr (group m)]
      rw [batch] at hm
      exact busy draining m (((DrainBatch.mem_adding _ _ _ _).mp hm).resolve_right (by simpa using apart))
    · obtain ⟨batch, here, others, served⟩ := addMember_pending unprotected n s
      have notDraining : ¬(addMember n g s).service.batch.state = .draining := by rw [batch]; exact draining
      rw [joinDraining_of_not fun h => notDraining h.1]
      exact ⟨joined _ batch here others served.plant, fun _ h => absurd h notDraining⟩

theorem BatchKept.handleDrainGroup (p : Port) (n d : Nat) (s : State) : BatchKept s (handleDrainGroup p n d s).state := by
  intro sound
  obtain ⟨formed, -, -, -⟩ := (batchSound_iff s).mp sound
  by_cases range : n ≤ 255
  · cases defined : s.group n with
    | none =>
      rw [handleDrainGroup_refuses (.inr ⟨Nat.not_lt.mpr range, .inl ⟨defined, rfl⟩⟩) (by decide)]
      exact ⟨sound, id⟩
    | some g =>
      cases member : s.service.batch.resultOf n with
      | some x =>
        rw [handleDrainGroup_member range (by rw [defined]; rfl) (by rw [member]; rfl)]
        refine BatchKept.setContributors (s := s) (fun formed state => ?_) sound
        rw [formed.none state] at member
        cases member
      | none =>
        have fresh : ¬(s.service.batch.resultOf n).isSome = true := by rw [member]; decide
        have known : ¬s.group n = none := by rw [defined]; exact Option.some_ne_none g
        by_cases out : (s.svc n).service = .outOfService
        · rw [handleDrainGroup_refuses
            (.inr ⟨Nat.not_lt.mpr range, .inr ⟨known, .inr ⟨fresh, .inl ⟨out, rfl⟩⟩⟩⟩) (by decide)]
          exact ⟨sound, id⟩
        · by_cases room : s.service.batch.state = .none ∨ s.service.batch.members.length < 32
          · rw [handleDrainGroup_joins range defined member out room]
            refine (BatchKept.setJoined p (Nat.min_le_right d 3600)).trans
              (BatchKept.joinDraining (s := s.setBatch _) defined ?_ ?_ ?_) sound
            all_goals rw [State.batch_setBatch]
            all_goals by_cases state : s.service.batch.state = .none
            · rw [(DrainBatch.joinedBy_opens state _ _ _).1]
              decide
            · rw [(DrainBatch.joinedBy_running state _ _ _).1]
              exact state
            · rw [DrainBatch.resultOf, (DrainBatch.joinedBy_opens state _ _ _).2]
              rfl
            · rw [DrainBatch.resultOf, (DrainBatch.joinedBy_running state _ _ _).2]
              exact member
            · rw [(DrainBatch.joinedBy_opens state _ _ _).2]
              decide
            · rw [(DrainBatch.joinedBy_running state _ _ _).2]
              exact room.resolve_left state
          · rw [handleDrainGroup_refuses
              (.inr ⟨Nat.not_lt.mpr range, .inr ⟨known, .inr ⟨fresh, .inr ⟨out, .inl ⟨room, rfl⟩⟩⟩⟩⟩) (by decide)]
            exact ⟨sound, id⟩
  · rw [handleDrainGroup_refuses (.inl ⟨Nat.lt_of_not_le range, rfl⟩) (by decide)]
    exact ⟨sound, id⟩

/-! ## Timers and losses (R42, R43) -/

theorem BatchKept.passDeadline {s : State} (draining : s.service.batch.state = .draining) :
    BatchKept s (passDeadline s) := by
  intro sound
  obtain ⟨formed, -, running, fits⟩ := (batchSound_iff s).mp sound
  refine ⟨(batchSound_iff _).mpr ⟨?_, fun h => ?_, running, fits⟩, id⟩
  · exact {
      few := formed.few
      once := formed.once
      limit := formed.limit
      none := fun h => by
        rw [show s.service.batch.state = .none from h] at draining
        cases draining
      window := formed.window
      expiry := by simp [Machine.passDeadline, askRelease]
      left := formed.left
      passed := fun _ => draining }
  · rw [show s.service.batch.state = .forming from h] at draining
    cases draining

theorem BatchKept.dropContributor (p : Port) (s : State) : BatchKept s (dropContributor p s) := by
  refine BatchKept.trans (t := s.setBatch
    { s.service.batch with contributors := s.service.batch.contributors.set p false })
    (BatchKept.setContributors fun formed state => ?_) (BatchKept.of_blocks rfl rfl rfl)
  rw [formed.none state]
  cases p <;> rfl

end Sys2Proof.Machine
end

section
/-! What the tariff store, the pricing engine and the settlement unit leave alone (chapters 7 to 9): every block but their own
and the route memory, which an activation empties. -/

namespace Sys2Proof.Machine

/-! ## The route memory's invariant, set by set (R88, R89) -/

/-- R88, R89: what is asked of a valid entry of a set: its plan is that of its destination, and its member a POOL step. -/
def EntryFits (s : State) (k : Nat) (e : MemoryEntry) : Prop :=
  e.confidence ≤ 4 ∧ k < Config.memorySets ∧ (s.dest (e.tag * Config.memorySets + k)).plan = e.plan ∧
    ∃ st, (s.plan e.plan)[e.member]? = some st ∧ st.kind = .pool

/-- R88, R89: what is asked of a set. -/
structure SetSound (s : State) (k : Nat) (m : MemorySet) : Prop where
  four : m.ways.length = 4
  pointer : m.pointer < 4
  entries : ∀ (i : Nat) (e : MemoryEntry), m.ways[i]? = some (some e) → EntryFits s k e
  once : ∀ (i j : Nat) (e f : MemoryEntry), m.ways[i]? = some (some e) → m.ways[j]? = some (some f) → e.tag = f.tag → i = j

theorem memorySound_iff (s : State) :
    MemorySound s ↔ s.memory.sets.wf = true ∧ ∀ k, SetSound s k (s.memorySet k) := by
  refine and_congr_right fun _ => forall_congr' fun k => ?_
  constructor
  · rintro ⟨four, pointer, entries, once⟩
    exact ⟨four, pointer, fun i e here => entries e (List.mem_of_getElem? here), once⟩
  · rintro ⟨four, pointer, entries, once⟩
    exact ⟨four, pointer, fun e he => have ⟨i, here⟩ := List.mem_iff_getElem?.mp he; entries i e here, once⟩

/-- R99: a set keeps what is asked of it when entries are dropped and each that stays fits. -/
theorem SetSound.dropEntries {s t : State} {k : Nat} {m : MemorySet} (h : SetSound s k m) (gone : MemoryEntry → Bool)
    (stays : ∀ e, gone e = false → EntryFits s k e → EntryFits t k e) : SetSound t k (dropEntries gone m) where
  four := by
    rw [Machine.dropEntries, List.length_map]
    exact h.four
  pointer := h.pointer
  entries i e here := by
    obtain ⟨before, stay⟩ := (dropEntries_way_iff gone m i e).mp here
    exact stays e stay (h.entries i e before)
  once i j e f hi hj := h.once i j e f ((dropEntries_way_iff gone m i e).mp hi).1 ((dropEntries_way_iff gone m j f).mp hj).1

theorem EntryFits.of_same {s t : State} {k : Nat} {e : MemoryEntry} (h : EntryFits s k e)
    (dest : t.analyser.destinations = s.analyser.destinations) (plans : t.routes.plans = s.routes.plans) :
    EntryFits t k e := by
  unfold EntryFits State.dest State.plan at h ⊢
  rw [dest, plans]
  exact h

/-- The route memory is read with the plans of the destinations and the steps of the plans alone. -/
theorem MemorySound.of_same {s t : State} (h : MemorySound s) (memory : t.memory = s.memory)
    (dest : t.analyser.destinations = s.analyser.destinations) (plans : t.routes.plans = s.routes.plans) :
    MemorySound t := by
  unfold MemorySound State.memorySet State.dest State.plan at h ⊢
  rw [memory, dest, plans]
  exact h

theorem MemorySound.invalidate {s : State} (h : MemorySound s) (gone : MemoryEntry → Bool) :
    MemorySound (invalidate gone s) := by
  obtain ⟨canonical, sets⟩ := (memorySound_iff s).mp h
  refine (memorySound_iff _).mpr ⟨Table.mapValues_wf _ _ canonical, fun k => ?_⟩
  rw [memorySet_invalidate canonical]
  exact (sets k).dropEntries gone fun e _ fits => fits.of_same rfl rfl

/-! ## What billing leaves -/

/-- The tariff store, the settlement unit and the notices may have changed, and the route memory stays sound; every other
block is as it was. -/
def Billed (s t : State) : Prop :=
  t =
      { s with
        tariff := t.tariff, memory := t.memory, settlement := t.settlement, ports := t.ports, levels := t.levels
        freeDrawn := t.freeDrawn } ∧
    (MemorySound s → MemorySound t)

theorem Billed.plant {s t : State} (h : Billed s t) : t.plant = s.plant := by rw [h.1]
theorem Billed.service {s t : State} (h : Billed s t) : t.service = s.service := by rw [h.1]
theorem Billed.analyser {s t : State} (h : Billed s t) : t.analyser = s.analyser := by rw [h.1]
theorem Billed.routes {s t : State} (h : Billed s t) : t.routes = s.routes := by rw [h.1]
theorem Billed.calls {s t : State} (h : Billed s t) : t.calls = s.calls := by rw [h.1]

theorem Billed.of_memory {s t : State}
    (h : t =
      { s with
        tariff := t.tariff, settlement := t.settlement, ports := t.ports, levels := t.levels
        freeDrawn := t.freeDrawn }) : Billed s t := by
  have memory : t.memory = s.memory := by rw [h]
  refine ⟨?_, fun sound => sound.of_same memory (by rw [h]) (by rw [h])⟩
  rw [memory]
  exact h

theorem Billed.refl (s : State) : Billed s s := Billed.of_memory rfl

theorem Billed.trans {s t u : State} (h : Billed s t) (g : Billed t u) : Billed s u := by
  refine ⟨?_, g.2 ∘ h.2⟩
  have second := g.1
  rw [h.1] at second
  exact second

theorem Billed.foldl {α : Type} {f : State → α → State} (hf : ∀ s x, Billed s (f s x)) (l : List α) (s : State) :
    Billed s (l.foldl f s) := by
  induction l generalizing s with
  | nil => exact Billed.refl s
  | cons x l ih => exact (hf s x).trans (ih (f s x))

theorem Billed.tariff (s : State) (x : TariffStore) : Billed s { s with tariff := x } := Billed.of_memory rfl

theorem Billed.settlement (s : State) (x : Settlement) : Billed s { s with settlement := x } := Billed.of_memory rfl

theorem Billed.of_ports (s : State) (x : PerPort PortRecord) : Billed s { s with ports := x } := Billed.of_memory rfl

theorem Told.billed {s t : State} (h : Told s t) : Billed s t := by
  refine Billed.of_memory ?_
  have frame := h.1
  rw [show t.tariff = s.tariff by rw [frame], show t.settlement = s.settlement by rw [frame],
    show t.freeDrawn = s.freeDrawn by rw [frame]]
  exact frame

theorem SettlementOnly.billed {s t : State} (h : SettlementOnly s t) : Billed s t := by
  refine Billed.of_memory ?_
  have frame := h.1
  rw [show t.tariff = s.tariff by rw [frame], show t.freeDrawn = s.freeDrawn by rw [frame]]
  exact frame

theorem PortsOnly.billed {s t : State} (h : PortsOnly s t) : Billed s t := by
  have frame : t = { s with ports := t.ports } := h
  rw [frame]
  exact Billed.of_ports s _

/-! ## The tariff store (chapter 7) -/

theorem activate_billed (held : Bool) (s : State) : Billed s (activate held s) := by
  unfold activate
  split
  · exact Billed.refl s
  · refine (Billed.tariff s _).trans (Billed.trans ⟨rfl, fun h => h.invalidate _⟩ (notifyAllUp_told _ _).billed)

theorem hold_billed (s : State) : Billed s (hold s) := by
  unfold hold
  split
  · exact (Billed.tariff s _).trans (notify_told _ _ _).billed
  · exact Billed.tariff s _

theorem takeDue_billed (s : State) : Billed s (takeDue s) := by
  unfold takeDue
  split
  · exact activate_billed _ s
  · exact hold_billed s

theorem lower_billed (n : Nat) (s : State) : Billed s (lower n s) := by
  unfold lower
  split
  · exact Billed.tariff s _
  split
  · exact Billed.refl s
  split
  · split
    · exact (Billed.tariff s _).trans (activate_billed _ _)
    · exact Billed.tariff s _
  · exact Billed.refl s

theorem setWeekClock_billed (w : Nat) (s : State) : Billed s (setWeekClock w s) := by
  have clock : ∀ t, Billed t (withWeekTime w t) := fun t => Billed.tariff t _
  unfold setWeekClock
  simp only
  split
  · split
    · exact (takeDue_billed s).trans (clock _)
    split
    · exact (clock s).trans (takeDue_billed _)
    · exact (clock s).trans (Billed.tariff _ _)
  · exact clock s

theorem changeStaged_billed (f : Tariffs → Tariffs) (s : State) : Billed s (changeStaged f s) := Billed.tariff s _

theorem startActivation_billed (t : ActivationTarget) (s : State) : Billed s (startActivation t s) := by
  unfold startActivation
  split
  · split
    · exact takeDue_billed s
    · exact Billed.tariff s _
  · exact takeDue_billed s

/-! ## Pricing and settlement (chapters 8 and 9) -/

theorem priceRelease_billed (r : PricedRelease) (s : State) : Billed s (priceRelease r s) := by
  unfold priceRelease
  split
  · exact Billed.refl s
  split
  · exact Billed.refl s
  · exact Billed.settlement s _

theorem priceAndLower_billed (r : CallRef) (c : Call) (cause : Cause) (time : Nat) (forced : Bool) (s : State) :
    Billed s (priceAndLower r c cause time forced s) := by
  unfold priceAndLower
  split
  · exact (priceRelease_billed _ s).trans (lower_billed _ _)
  · exact Billed.refl s

theorem itemize_billed (r : PricedResult) (s : State) : Billed s (itemize r s) := by
  unfold itemize
  split
  · exact (Billed.settlement s _).trans (judgeBacklog_settlementOnly _).billed
  · exact Billed.settlement s _

theorem accumulate_billed (r : PricedResult) (s : State) : Billed s (accumulate r s) :=
  ((Billed.settlement s _).trans (Billed.settlement _ _)).trans
    ((itemize_billed r _).trans (evaluateHold_settlementOnly _ _).billed)

/-! ## The requests of chapters 7, 9 and 10 -/

/-- A handler that leaves the state leaves every block. -/
theorem Billed.of_eq {s t : State} (h : t = s) : Billed s t := h ▸ Billed.refl s

theorem handleSetClock_billed (d m : Option Nat) (s : State) : Billed s (handleSetClock d m s).state := by
  unfold handleSetClock
  split
  · split
    · exact Billed.refl s
    · exact setWeekClock_billed _ s
  · exact Billed.refl s

theorem handleStageOpen_billed (p : Port) (s : State) : Billed s (handleStageOpen p s).state := by
  unfold handleStageOpen
  split
  · exact Billed.tariff s _
  · exact Billed.refl s

theorem handleWriteTariff_billed (p : Port) (c k : Nat) (f : TariffFields) (s : State) :
    Billed s (handleWriteTariff p c k f s).state := by
  unfold handleWriteTariff
  split
  · exact Billed.refl s
  split
  · exact Billed.refl s
  split
  · exact Billed.refl s
  · simp only
    exact changeStaged_billed _ s

theorem handleWriteMargin_billed (p : Port) (c : Nat) (m : Option Nat) (s : State) :
    Billed s (handleWriteMargin p c m s).state := by
  unfold handleWriteMargin
  split
  · exact Billed.refl s
  split
  · exact Billed.refl s
  split
  · exact Billed.refl s
  · simp only
    exact changeStaged_billed _ s

theorem handleWriteSchedule_billed (p : Port) (d : Arg DayType) (i : Nat) (bs : List (Arg Band)) (s : State) :
    Billed s (handleWriteSchedule p d i bs s).state := by
  unfold handleWriteSchedule
  split
  · split
    · exact Billed.refl s
    split
    · exact Billed.refl s
    split
    · exact Billed.refl s
    · simp only
      exact changeStaged_billed _ s
  · exact Billed.refl s

theorem handleWriteWeek_billed (p : Port) (ds : List (Nat × Arg DayType)) (s : State) :
    Billed s (handleWriteWeek p ds s).state := by
  unfold handleWriteWeek
  split
  · exact Billed.refl s
  split
  · exact Billed.refl s
  split
  · exact Billed.refl s
  split
  · exact Billed.refl s
  · simp only
    exact changeStaged_billed _ s

theorem handleStageActivate_billed (p : Port) (t : Option ActivationTarget) (s : State) :
    Billed s (handleStageActivate p t s).state := by
  unfold handleStageActivate
  split
  · exact Billed.refl s
  split
  · exact Billed.refl s
  · exact startActivation_billed _ s

theorem handleStageAbort_billed (p : Port) (s : State) : Billed s (handleStageAbort p s).state := by
  unfold handleStageAbort
  simp only
  split
  · exact Billed.refl s
  split
  · exact Billed.refl s
  · exact Billed.tariff s _

theorem handleFetchBlock_billed (p : Port) (code : Option Nat) (s : State) : Billed s (handleFetchBlock p code s).state := by
  unfold handleFetchBlock
  split
  · exact Billed.refl s
  · exact Billed.of_ports s _

theorem handleFetch_billed (p : Port) (s : State) : Billed s (handleFetch p s).state := by
  unfold handleFetch
  split
  · exact Billed.refl s
  · simp only
    split
    · exact Billed.refl s
    · exact (removeRecords_settlementOnly _ s).billed

theorem handleExposureLimit_billed (c : Nat) (l : Option Nat) (s : State) : Billed s (handleExposureLimit c l s).state := by
  unfold handleExposureLimit
  split
  · exact Billed.refl s
  split
  · exact Billed.refl s
  · exact (Billed.settlement s _).trans (evaluateHold_settlementOnly _ _).billed

theorem closePeriod_billed (s : State) : Billed s (closePeriod s) := by
  rw [closePeriod_eq]
  exact (totalsClosed_settlementOnly s).billed.trans (notifyAllUp_told _ _).billed

theorem handleClosePeriod_billed (s : State) : Billed s (handleClosePeriod s).state := by
  unfold handleClosePeriod
  split
  · exact Billed.refl s
  · simp only
    exact closePeriod_billed s

theorem handleReadClosed_state (i : Arg ClosedItem) (s : State) : (handleReadClosed i s).state = s := by
  unfold handleReadClosed readPairs readCarriers
  repeat' split
  all_goals rfl

theorem handleReleaseClosed_billed (n : Option Nat) (s : State) : Billed s (handleReleaseClosed n s).state := by
  unfold handleReleaseClosed
  split
  · exact Billed.refl s
  split
  · exact Billed.refl s
  split
  · exact Billed.settlement s _
  · exact Billed.refl s

theorem handleQueryPair_state (i o : Nat) (s : State) : (handleQueryPair i o s).state = s := by
  unfold handleQueryPair
  split <;> rfl

theorem handleSubscribe_ports (p : Port) (c : Arg AlarmClass) (on : Option Bool) (s : State) :
    PortsOnly s (handleSubscribe p c on s).state := by
  unfold handleSubscribe
  split
  · exact setMask_ports p _ _ s
  · exact PortsOnly.refl s

theorem Billed.of_clocks (s : State) (x : TariffStore) (v : PerPort PortRecord) (n : Nat) :
    Billed s { s with tariff := x, ports := v, freeDrawn := n } := by
  refine Billed.of_memory ?_
  rfl

/-! ## The commands that bill -/

/-- The command acts on the plant store, the controller, the analyser, the route selector, the route memory's entries or the
call table; every other one bills, tells a port or answers. -/
def actsOnBlocks : Instr → Bool
  | .defineGroup _ _ | .setGroupParams _ _ _ | .deleteGroup _ _ | .blockCircuits _ _ _ _ | .unblockCircuits _ _ _ _
  | .lockPlant _ | .unlockPlant _ | .reportFarCongestion _ _ _ | .drainGroup _ _ _ | .drainSuspend _ | .drainResume _
  | .returnGroup _ _ | .addPrefix _ _ _ | .removePrefix _ _ | .writeDest _ _ _ _ _ | .setGap _ _ _ _ | .clearGap _ _
  | .writePlan _ _ _ | .setReattemptLimit _ _ | .offer _ _ _ _ | .accepted _ _ | .answer _ _ | .reattempt _ _ _ _
  | .release _ _ _ | .adopt _ _ | .clearTraffic _ | .setOrphanLimit _ _ | .linkLoss _ | .detachComplete _
  | .callTablePortLoss _ | .drainContributorLoss _ | .guardExpiry _ | .decayExpiry _ | .windowExpiry | .deadlineExpiry
  | .drainReleaseList | .gapLifeExpiry _ | .orphanExpiry | .glareReselection _ | .resetN | .powerOn => true
  | _ => false

theorem request_billed {f : State → Reply} (hf : ∀ u, Billed u (f u).state) {c : Instr} {r : Sender} {code : Nat}
    {s t : State} (h : request c r code f s = .next t) : Billed s t :=
  request_keeps (Billed s) (fun _ v kept => kept.trans (Billed.of_ports _ v)) (fun u kept => kept.trans (hf u)) h
    (Billed.refl s)

theorem arrive_billed (p : Port) (q : Request) (s : State) : Billed s (arrive p q s) := by
  rw [arrive_blocks]
  exact Billed.of_ports s _

theorem taken_billed {c : Instr} {r : Sender} {code : Nat} {s u : State} (h : taken c r code s = some u) : Billed s u := by
  rw [(taken_blocks h).1]
  exact Billed.of_ports s _

theorem exec_billed {c : Instr} {s t : State} (quiet : actsOnBlocks c = false) (h : exec c s = .next t) : Billed s t := by
  have same : ∀ {f : State → Reply}, (∀ u, (f u).state = u) → ∀ u, Billed u (f u).state := fun hf u => Billed.of_eq (hf u)
  have next : ∀ {u}, Billed s u → Host.Outcome.next u = (.next t : Answer) → Billed s t := fun kept eq =>
    Host.Outcome.next.inj eq ▸ kept
  cases c
  case queryGroup r n => exact request_billed (same (handleQueryGroup_state n)) h
  case queryCircuit r c => exact request_billed (same (handleQueryCircuit_state c)) h
  case queryDrain r => exact request_billed (same fun _ => rfl) h
  case queryGap r q => exact request_billed (same (handleQueryGap_state q)) h
  case queryPlan r p => exact request_billed (same (handleQueryPlan_state p)) h
  case flushRouteMemory r => exact request_billed (fun u => ⟨rfl, fun m => m.invalidate _⟩) h
  case queryRouteMemory r d k => exact request_billed (same (handleQueryMemory_state d k)) h
  case queryCall r c => exact request_billed (same (handleQueryCall_state c)) h
  case setClock r d m => exact request_billed (handleSetClock_billed d m) h
  case stageOpen r => exact request_billed (handleStageOpen_billed r.port) h
  case stageWriteTariff r c k f => exact request_billed (handleWriteTariff_billed r.port c k f) h
  case stageWriteMargin r c m => exact request_billed (handleWriteMargin_billed r.port c m) h
  case stageWriteSchedule r d i bs => exact request_billed (handleWriteSchedule_billed r.port d i bs) h
  case stageWriteWeek r ds => exact request_billed (handleWriteWeek_billed r.port ds) h
  case stageActivate r x => exact request_billed (handleStageActivate_billed r.port x) h
  case stageAbort r => exact request_billed (handleStageAbort_billed r.port) h
  case queryTariff r b i => exact request_billed (same (handleQueryTariff_state b i)) h
  case setFetchBlock r c => exact request_billed (handleFetchBlock_billed r.port c) h
  case fetchRecords r => exact request_billed (handleFetch_billed r.port) h
  case setExposureLimit r c l => exact request_billed (handleExposureLimit_billed c l) h
  case closePeriod r => exact request_billed handleClosePeriod_billed h
  case readClosed r i => exact request_billed (same (handleReadClosed_state i)) h
  case releaseClosed r n => exact request_billed (handleReleaseClosed_billed n) h
  case queryPair r i o => exact request_billed (same (handleQueryPair_state i o)) h
  case attach r q => exact request_billed (fun u => (handleAttach_ports r.port q u).billed) h
  case detach r =>
    refine next ?_ h
    split
    · next u taken => exact (taken_billed taken).trans (startDetach_ports r u).billed
    · exact arrive_billed _ _ s
  case subscribe r c b => exact request_billed (fun u => (handleSubscribe_ports r.port c b u).billed) h
  case ackAlarm r c n => exact request_billed (fun u => (handleAckAlarm_told r.port c n u).billed) h
  case sync r =>
    refine next ?_ h
    split
    · next u taken => exact (taken_billed taken).trans (holdSync_ports r u).billed
    · exact arrive_billed _ _ s
  case identify r => exact request_billed (same fun _ => rfl) h
  case unknownRequest r code => exact request_billed (same fun _ => rfl) h
  case frameReceived p bytes =>
    refine next ?_ h
    split
    · exact Billed.refl s
    · exact (takeFrame_ports p _ s).billed
  case tariffHolderLoss p =>
    refine next ?_ h
    split
    · exact Billed.tariff s _
    · exact Billed.refl s
  case noticeSent p =>
    refine next ?_ h
    split
    · exact (noticeLeft_ports p s).billed
    · exact Billed.refl s
  case tick => exact next (Billed.of_clocks s _ _ _) h
  case activationDue =>
    refine next ?_ h
    split
    · exact takeDue_billed s
    · exact Billed.refl s
  case accumulation =>
    refine next ?_ h
    split
    · exact Billed.refl s
    · exact (Billed.settlement s _).trans (accumulate_billed _ _)
  case responseSent p =>
    refine next ?_ h
    split
    · exact Billed.refl s
    · exact Billed.of_ports s _
  all_goals cases quiet

end Sys2Proof.Machine
end

section
/-! SUPPORT. The route selector and the call table keep the drain batch and the groups' service states in step: their legs
report what they move (chapter 1), and everything else they change lies in other blocks. -/

namespace Sys2Proof.Machine

/-! ## Other blocks -/

theorem Billed.batchKept {s t : State} (h : Billed s t) : BatchKept s t :=
  BatchKept.of_blocks h.plant (by rw [h.service]) (by rw [h.service])

theorem BatchKept.memory (s : State) (x : RouteMemory) : BatchKept s { s with memory := x } :=
  BatchKept.of_blocks rfl rfl rfl

theorem BatchKept.calls (s : State) (x : CallTable) : BatchKept s { s with calls := x } :=
  BatchKept.of_blocks rfl rfl rfl

theorem BatchKept.setCall (s : State) (k : Nat) (c : Call) : BatchKept s (s.setCall k c) :=
  BatchKept.of_blocks rfl rfl rfl

theorem BatchKept.changeCall (s : State) (k : Nat) (f : Call → Call) : BatchKept s (s.changeCall k f) := by
  simp only [State.changeCall]
  split
  · exact BatchKept.of_blocks rfl rfl rfl
  · exact BatchKept.refl s

theorem BatchKept.notify (p : Port) (n : Notice) (s : State) : BatchKept s (notify p n s) :=
  (notify_told p n s).batchKept

/-! ## The walk (R73 to R80) -/

theorem BatchKept.outcome (f : MemoryEntry → MemoryEntry) (d p i : Nat) (s : State) :
    BatchKept s (outcome f d p i s) := by
  simp only [Machine.outcome]
  split
  · exact BatchKept.refl s
  · split
    · exact BatchKept.memory s _
    · exact BatchKept.refl s

theorem BatchKept.afterLookup (d p : Nat) (s : State) : BatchKept s (afterLookup d p s) := by
  simp only [Machine.afterLookup]
  split
  · exact BatchKept.memory s _
  · exact BatchKept.refl s

theorem BatchKept.tryStep (c : WalkCall) (i : Nat) (st : PlanStep) (s : State) :
    BatchKept s (tryStep c i st s).state := by
  simp only [Machine.tryStep]
  split
  · split
    · exact BatchKept.occupyOut _ _ _ s
    · exact BatchKept.refl s
  · exact BatchKept.refl s

theorem BatchKept.trySteps (c : WalkCall) (l : List (Nat × PlanStep)) (s : State) :
    BatchKept s (trySteps c l s).state := by
  induction l generalizing s with
  | nil => exact BatchKept.refl s
  | cons x l ih =>
    obtain ⟨i, st⟩ := x
    have tried := BatchKept.tryStep c i st s
    simp only [Machine.trySteps]
    split
    · next e => rw [e] at tried; exact tried
    · next e => rw [e] at tried; exact tried.trans (ih _)

theorem BatchKept.tryIndex (c : WalkCall) (steps : List PlanStep) (i : Option Nat) (s : State) :
    BatchKept s (tryIndex c steps i s).state := by
  simp only [Machine.tryIndex]
  split
  · exact BatchKept.refl s
  · split
    · exact BatchKept.tryStep _ _ _ s
    · exact BatchKept.refl s

theorem BatchKept.afterChoice (s : State) (c : WalkCall) : BatchKept s (afterChoice s c) := by
  simp only [Machine.afterChoice]
  split
  · exact BatchKept.afterLookup _ _ s
  · exact BatchKept.refl s

theorem BatchKept.poolPart (c : WalkCall) (steps : List PlanStep) (s : State) :
    BatchKept s (poolPart c steps s).state := by
  have tried := (BatchKept.afterChoice s c).trans
    (BatchKept.tryIndex c steps (poolChoice s c steps).step (Machine.afterChoice s c))
  simp only [Machine.poolPart]
  split
  · exact tried
  · refine tried.trans (BatchKept.trans ?_ (BatchKept.trySteps _ _ _))
    simp only [handPoolFailure]
    split
    · exact BatchKept.outcome _ _ _ _ _
    · exact BatchKept.refl _

theorem BatchKept.walk (c : WalkCall) (steps : List PlanStep) (s : State) : BatchKept s (walk c steps s).state := by
  have primary := BatchKept.trySteps c (partSteps .primary c.start steps) s
  simp only [Machine.walk]
  split
  · exact primary
  · split
    · exact primary.trans (BatchKept.poolPart c steps _)
    · exact primary.trans (BatchKept.trySteps _ _ _)

/-! ## Reselection, the end of a call, and orphans (R82 to R84, R116 to R125) -/

theorem BatchKept.reselect (r : CallRef) (cause : Cause) (s : State) : BatchKept s (reselect r cause s) := by
  simp only [Machine.reselect]
  split
  · exact BatchKept.refl s
  · split
    · exact BatchKept.setCall s _ _
    · exact ((BatchKept.setCall s _ _).trans (BatchKept.walk _ _ _)).trans (BatchKept.setCall _ _ _)

theorem BatchKept.releaseLegs (r : CallRef) (c : Call) (s : State) : BatchKept s (releaseLegs r c s) := by
  simp only [Machine.releaseLegs]
  split
  · exact (BatchKept.releaseLeg _ _ _ s).trans (BatchKept.releaseLeg _ _ _ _)
  · exact BatchKept.releaseLeg _ _ _ s

theorem BatchKept.leaveOrphans (k : Nat) (s : State) : BatchKept s (leaveOrphans k s) := BatchKept.calls s _

theorem BatchKept.freeSlot (k : Nat) (s : State) : BatchKept s (freeSlot k s) := BatchKept.of_blocks rfl rfl rfl

theorem BatchKept.endCall (r : CallRef) (cause : Cause) (time : Nat) (forced : Bool) (s : State) :
    BatchKept s (endCall r cause time forced s) := by
  simp only [Machine.endCall]
  split
  · exact BatchKept.refl s
  · exact (((priceAndLower_billed _ _ _ _ _ s).batchKept.trans (BatchKept.releaseLegs _ _ _)).trans
      (BatchKept.leaveOrphans _ _)).trans (BatchKept.freeSlot _ _)

theorem BatchKept.endAndTell (r : CallRef) (cause : Cause) (time : Nat) (forced : Bool) (p : Port) (n : Notice) (s : State) :
    BatchKept s (Machine.notify p n (Machine.endCall r cause time forced s)) :=
  (BatchKept.endCall _ _ _ _ s).trans (BatchKept.notify _ _ _)

theorem BatchKept.drainCall (gs : List Nat) (s : State) (k : Nat) : BatchKept s (drainCall gs s k) := by
  simp only [Machine.drainCall]
  split
  · exact BatchKept.refl s
  · split
    · split
      · exact BatchKept.endAndTell _ _ _ _ _ _ s
      · exact BatchKept.endCall _ _ _ _ s
    · exact BatchKept.refl s

theorem BatchKept.orphan (p : Port) (k : Nat) (s : State) : BatchKept s (orphan p k s) :=
  (BatchKept.changeCall s k _).trans (BatchKept.calls _ _)

theorem BatchKept.loseCall (p : Port) (s : State) (k : Nat) : BatchKept s (loseCall p s k) := by
  simp only [Machine.loseCall]
  split
  · exact BatchKept.refl s
  · split
    · split
      · exact BatchKept.endCall _ _ _ _ s
      · exact BatchKept.orphan p k s
    · exact BatchKept.endCall _ _ _ _ s

theorem BatchKept.loseCalls (l : PortLoss) (s : State) : BatchKept s (loseCalls l s) := by
  simp only [Machine.loseCalls]
  split
  · exact (BatchKept.foldl _ (fun s k => BatchKept.changeCall s k _) _ s).trans (BatchKept.notify _ _ _)
  · exact BatchKept.foldl _ (BatchKept.loseCall l.port) _ s

theorem BatchKept.takePortLoss (l : PortLoss) (s : State) : BatchKept s (takePortLoss l s) := by
  simp only [Machine.takePortLoss, sendDetachDone]
  have lost := (BatchKept.calls s
    { s.calls with losses := s.calls.losses.erase l, offers := s.calls.offers.map (OfferInProgress.orphan l) }).trans
      (BatchKept.loseCalls l _)
  split
  · exact lost
  · refine lost.trans ?_
    rw [compose_blocks]
    exact BatchKept.of_blocks rfl rfl rfl

theorem BatchKept.takeReleaseList (gs : List Nat) (s : State) : BatchKept s (takeReleaseList gs s) :=
  (BatchKept.calls s _).trans (BatchKept.foldl _ (BatchKept.drainCall gs) _ _)

theorem BatchKept.expireOrphan (s : State) (k : Nat) : BatchKept s (expireOrphan s k) := BatchKept.endCall _ _ _ _ s

theorem BatchKept.clearCall (s : State) (k : Nat) : BatchKept s (clearCall s k) := by
  simp only [Machine.clearCall]
  split
  · exact BatchKept.refl s
  · exact (priceAndLower_billed _ _ _ _ _ s).batchKept.trans (BatchKept.freeSlot _ _)

theorem BatchKept.clearTraffic (s : State) : BatchKept s (clearTraffic s) :=
  ((BatchKept.foldl _ BatchKept.clearCall _ s).trans (BatchKept.calls _ _)).trans (BatchKept.clearPlant _)

theorem BatchKept.displace (call : CallRef) (s : State) : BatchKept s (displace call s) := by
  simp only [Machine.displace]
  split
  · exact BatchKept.calls s _
  · exact (BatchKept.changeCall s _ _).trans (BatchKept.calls _ _)

theorem BatchKept.tellOwner (r : CallRef) (s : State) : BatchKept s (tellOwner r s) := by
  simp only [Machine.tellOwner]
  split
  · exact BatchKept.refl s
  · split
    · exact BatchKept.notify _ _ s
    · exact BatchKept.refl s

theorem BatchKept.reselectDisplaced (r : CallRef) (s : State) : BatchKept s (reselectDisplaced r s) := by
  simp only [Machine.reselectDisplaced]
  split
  · exact BatchKept.refl s
  · exact ((BatchKept.setCall s _ _).trans (BatchKept.reselect _ _ _)).trans (BatchKept.tellOwner _ _)

/-! ## OFFER (R107 to R110) -/

theorem BatchKept.afterGapCheck (d : Nat) (cls : CallClass) (s : State) : BatchKept s (afterGapCheck d cls s) := by
  simp only [Machine.afterGapCheck]
  repeat' split
  all_goals exact BatchKept.of_blocks rfl rfl rfl

theorem BatchKept.walkOffer (p : Port) (circuit : Nat) (r : CallRef) (f : Former) (cls : CallClass) (g c : Nat)
    (t : Target) (s : State) : BatchKept s (walkOffer p circuit r f cls g c t s).state := by
  simp only [Machine.walkOffer]
  split
  · exact BatchKept.walk _ _ s
  · exact (BatchKept.walk _ _ s).trans (BatchKept.undoInbound _ _ _)

theorem BatchKept.routeOffer (p : Port) (circuit : Nat) (r : CallRef) (f : Former) (ds : List Nat) (cls : CallClass)
    (g c : Nat) (s : State) : BatchKept s (routeOffer p circuit r f ds cls g c s).state := by
  simp only [Machine.routeOffer]
  split
  · exact BatchKept.undoInbound _ _ s
  · refine (?_ : BatchKept s _)
    split
    · exact (BatchKept.afterGapCheck _ cls s).trans (BatchKept.undoInbound _ _ _)
    · split
      · exact (BatchKept.afterGapCheck _ cls s).trans (BatchKept.undoInbound _ _ _)
      · exact (BatchKept.afterGapCheck _ cls s).trans (BatchKept.walkOffer _ _ _ _ _ _ _ _ _)

theorem BatchKept.seizeOffer (p : Port) (c : Nat) (ds : List Nat) (cls : CallClass) (r : CallRef) (s : State) :
    BatchKept s (seizeOffer p c ds cls r s).state := by
  have seized := BatchKept.occupyIn c r s
  simp only [Machine.seizeOffer]
  split
  · exact BatchKept.refl s
  · exact seized.trans (BatchKept.routeOffer _ _ _ _ _ _ _ _ _)
  · exact (seized.trans (BatchKept.displace _ _)).trans (BatchKept.routeOffer _ _ _ _ _ _ _ _ _)

theorem BatchKept.checkOffer (p : Port) (c : Nat) (ds : List Nat) (cls : Arg CallClass) (s : State) :
    BatchKept s (checkOffer p c ds cls s).1.state := by
  simp only [Machine.checkOffer]
  split
  · exact BatchKept.refl s
  · split
    · exact BatchKept.refl s
    · exact BatchKept.seizeOffer _ _ _ _ _ s

theorem BatchKept.settleDisplaced (o : OfferInProgress) (s : State) : BatchKept s (settleDisplaced o s) := by
  simp only [Machine.settleDisplaced]
  split
  · exact BatchKept.displace _ s
  · exact BatchKept.refl s

theorem BatchKept.settleNoted (o : OfferInProgress) (s : State) : BatchKept s (settleNoted o s) := by
  simp only [Machine.settleNoted]
  split
  · split
    · exact BatchKept.refl s
    · split
      · exact BatchKept.endAndTell _ _ _ _ _ _ s
      · exact BatchKept.endCall _ _ _ _ s
  · exact BatchKept.refl s

theorem BatchKept.keepRecord (o : OfferInProgress) (s : State) : BatchKept s (keepRecord o s) := by
  have kept := (BatchKept.setCall s o.ref.slot o.record).trans (BatchKept.settleDisplaced o _)
  simp only [Machine.keepRecord]
  split
  · exact kept.trans (BatchKept.settleNoted o _)
  · exact (kept.trans ((BatchKept.changeCall _ _ _).trans (BatchKept.notify _ _ _))).trans (BatchKept.settleNoted o _)
  · exact kept.trans (BatchKept.endCall _ _ _ _ _)

theorem BatchKept.handleOffer (r : Sender) (c : Nat) (ds : List Nat) (cls : Arg CallClass) (s : State) :
    BatchKept s (handleOffer r c ds cls s).state := by
  have checked := BatchKept.checkOffer r.port c ds cls s
  simp only [Machine.handleOffer]
  split
  · next e => rw [e] at checked; exact checked
  · next e => rw [e] at checked; exact checked.trans (BatchKept.keepRecord _ _)

theorem BatchKept.respond (r : Sender) (code : Nat) (y : Reply) : BatchKept y.state (respond r code y) := by
  rw [Machine.respond, compose_blocks]
  exact BatchKept.of_blocks rfl rfl rfl

theorem BatchKept.beginOffer (r : Sender) (c : Nat) (ds : List Nat) (cls : Arg CallClass) (s : State) :
    BatchKept s (beginOffer r c ds cls s) := by
  have checked := BatchKept.checkOffer r.port c ds cls s
  simp only [Machine.beginOffer]
  split
  · next e => rw [e] at checked; exact checked.trans (BatchKept.respond _ _ _)
  · next e => rw [e] at checked; exact checked.trans (BatchKept.of_blocks rfl rfl rfl)

theorem BatchKept.finishOffer (o : OfferInProgress) (s : State) : BatchKept s (finishOffer o s) := by
  have kept := (BatchKept.calls s { s.calls with offers := s.calls.offers.erase o }).trans (BatchKept.keepRecord o _)
  simp only [Machine.finishOffer, answerHeldOffer]
  split
  · exact kept
  · exact (kept.trans (BatchKept.respond o.sender _ (acceptOffer o _))).trans (BatchKept.of_blocks rfl rfl rfl)

/-! ## The other requests of chapter 6 -/

theorem BatchKept.handleAccepted (p : Port) (r : CallRef) (s : State) : BatchKept s (handleAccepted p r s).state := by
  simp only [Machine.handleAccepted]
  split
  · exact BatchKept.refl s
  · split
    · exact BatchKept.setCall s _ _
    · exact BatchKept.refl s

theorem BatchKept.answerCall (r : CallRef) (c : Call) (s : State) : BatchKept s (answerCall r c s) := by
  have bound : BatchKept s ((bindLive s).setCall r.slot { c with state := .answered, answer := some (answerFacts s) }) :=
    BatchKept.of_blocks rfl rfl rfl
  simp only [Machine.answerCall]
  split
  · exact bound.trans (BatchKept.outcome _ _ _ _ _)
  · exact bound

theorem BatchKept.handleAnswer (p : Port) (r : CallRef) (s : State) : BatchKept s (handleAnswer p r s).state := by
  simp only [Machine.handleAnswer]
  split
  · exact BatchKept.refl s
  · split
    · exact BatchKept.answerCall _ _ s
    · exact BatchKept.refl s

theorem BatchKept.handLevel (c : Call) (l : Option Nat) (s : State) : BatchKept s (handLevel c l s) := by
  simp only [Machine.handLevel]
  split
  · exact BatchKept.farReport _ _ s
  · exact BatchKept.refl s

theorem BatchKept.handFailure (c : Call) (s : State) : BatchKept s (handFailure c s) := by
  simp only [Machine.handFailure]
  split
  · exact BatchKept.outcome _ _ _ _ s
  · exact BatchKept.refl s

theorem BatchKept.dropLeg (r : CallRef) (c : Call) (cause : Cause) (s : State) : BatchKept s (dropLeg r c cause s) := by
  simp only [Machine.dropLeg]
  split
  · exact (BatchKept.releaseLeg _ _ _ s).trans (BatchKept.setCall _ _ _)
  · exact BatchKept.setCall s _ _

theorem BatchKept.reattemptCall (r : CallRef) (c : Call) (cause : Cause) (l : Option Nat) (s : State) :
    BatchKept s (reattemptCall r c cause l s) :=
  (((BatchKept.handLevel c l s).trans (BatchKept.handFailure c _)).trans (BatchKept.dropLeg r c cause _)).trans
    (BatchKept.reselect _ _ _)

theorem BatchKept.handleReattempt (p : Port) (r : CallRef) (cause : Arg Cause) (l : Option Nat) (s : State) :
    BatchKept s (handleReattempt p r cause l s).state := by
  simp only [Machine.handleReattempt]
  split
  · exact BatchKept.refl s
  · split
    · exact BatchKept.refl s
    · split
      · exact BatchKept.reattemptCall _ _ _ _ s
      · exact BatchKept.refl s

theorem BatchKept.handleRelease (p : Port) (r : CallRef) (cause : Arg Cause) (s : State) :
    BatchKept s (handleRelease p r cause s).state := by
  simp only [Machine.handleRelease]
  split
  · exact BatchKept.refl s
  · split
    · exact BatchKept.refl s
    · split
      · exact BatchKept.endCall _ _ _ _ s
      · exact BatchKept.refl s

theorem BatchKept.adoptCall (p : Port) (s : State) (k : Nat) : BatchKept s (adoptCall p s k) :=
  (BatchKept.changeCall s k _).trans (BatchKept.leaveOrphans k _)

theorem BatchKept.handleAdopt (p : Port) (q : Arg Port) (s : State) : BatchKept s (handleAdopt p q s).state := by
  simp only [Machine.handleAdopt]
  split
  · exact BatchKept.refl s
  · exact BatchKept.refl s
  · exact BatchKept.foldl _ (BatchKept.adoptCall p) _ s

theorem BatchKept.drawInAll (limit : Nat) (s : State) : BatchKept s (drawInAll limit s) :=
  (BatchKept.calls s _).trans (BatchKept.foldl _ (fun s k => BatchKept.changeCall s k _) _ _)

theorem BatchKept.handleOrphanLimit (l : Option Nat) (s : State) : BatchKept s (handleOrphanLimit l s).state := by
  simp only [Machine.handleOrphanLimit]
  split
  · exact BatchKept.refl s
  · exact (BatchKept.drawInAll _ s).trans (BatchKept.foldl _ BatchKept.expireOrphan _ _)

end Sys2Proof.Machine
end

section
/-! Proof of O60: every command keeps the drain batch and the groups' service states in step. The commands that act on no
block of the controller's are quiet (`exec_billed`); each other one is taken by the operation that it makes. -/

namespace Sys2Proof.Machine

/-! ## Chapter 1 -/

theorem BatchKept.handleDefineGroup (d : GroupDefinition) (s : State) : BatchKept s (handleDefineGroup d s).state := by
  simp only [Machine.handleDefineGroup]
  split
  · split
    · exact BatchKept.refl s
    · exact BatchKept.defineGroup d _ _ _ s
  · exact BatchKept.refl s

theorem BatchKept.handleSetGroupParams (n : Nat) (p : GroupChanges) (s : State) :
    BatchKept s (handleSetGroupParams n p s).state := by
  simp only [Machine.handleSetGroupParams]
  repeat' split
  case isFalse defined _ => exact BatchKept.changeGroup defined p
  all_goals exact BatchKept.refl s

theorem BatchKept.handleDeleteGroup (n : Nat) (s : State) : BatchKept s (handleDeleteGroup n s).state := by
  simp only [Machine.handleDeleteGroup]
  split
  · exact BatchKept.refl s
  · split
    · exact BatchKept.refl s
    · split
      · exact BatchKept.refl s
      · split
        · exact BatchKept.refl s
        · next idle =>
          refine BatchKept.deleteGroup fun pending => idle ?_
          rw [pending, Bool.or_eq_true]
          exact .inr rfl

theorem BatchKept.handleFlags (v : Bool) (first count : Nat) (k : Arg FlagKind) (s : State) :
    BatchKept s (handleFlags v first count k s).state := by
  have closed := BatchKept.closeWindow s
  simp only [Machine.handleFlags]
  split
  · exact closed
  · split
    · exact closed
    · split
      · exact closed
      · exact closed.trans (BatchKept.flagRange _ _ _ _)

theorem BatchKept.handleLock (v : Bool) (s : State) : BatchKept s (handleLock v s).state :=
  BatchKept.of_same rfl (fun _ => .inl rfl) (fun _ _ h => h) fun _ _ h => h

/-! ## Chapters 3 to 5 -/

theorem BatchKept.handleAddPrefix (ds : List Nat) (d : Nat) (s : State) : BatchKept s (handleAddPrefix ds d s).state := by
  simp only [Machine.handleAddPrefix]
  repeat' split
  all_goals exact BatchKept.of_blocks rfl rfl rfl

theorem BatchKept.handleRemovePrefix (ds : List Nat) (s : State) : BatchKept s (handleRemovePrefix ds s).state := by
  simp only [Machine.handleRemovePrefix]
  split
  all_goals exact BatchKept.of_blocks rfl rfl rfl

theorem BatchKept.handleWriteDest (d p : Option Nat) (b i : Option Bool) (s : State) :
    BatchKept s (handleWriteDest d p b i s).state := by
  simp only [Machine.handleWriteDest]
  repeat' split
  all_goals exact BatchKept.of_blocks rfl rfl rfl

theorem BatchKept.handleSetGap (d : Nat) (i l : Option Nat) (s : State) : BatchKept s (handleSetGap d i l s).state := by
  simp only [Machine.handleSetGap]
  repeat' split
  all_goals exact BatchKept.of_blocks rfl rfl rfl

theorem BatchKept.handleClearGap (d : Nat) (s : State) : BatchKept s (handleClearGap d s).state := by
  simp only [Machine.handleClearGap]
  split
  all_goals exact BatchKept.of_blocks rfl rfl rfl

theorem BatchKept.storePlan (p : Nat) (steps : List PlanStep) (s : State) : BatchKept s (storePlan p steps s) :=
  BatchKept.of_blocks (storePlan_plant p steps s) (by rw [storePlan_service]; rfl) (by rw [storePlan_service]; rfl)

theorem BatchKept.handleWritePlan (p : Nat) (as : List StepArg) (s : State) :
    BatchKept s (handleWritePlan p as s).state := by
  simp only [Machine.handleWritePlan]
  split
  · exact BatchKept.refl s
  · split
    · exact BatchKept.refl s
    · split
      · exact BatchKept.refl s
      · exact BatchKept.storePlan _ _ s

theorem BatchKept.handleReattemptLimit (l : Option Nat) (s : State) :
    BatchKept s (handleReattemptLimit l s).state := by
  simp only [Machine.handleReattemptLimit]
  split
  all_goals exact BatchKept.of_blocks rfl rfl rfl

/-! ## Chapter 10 -/

theorem BatchKept.portDown (p : Port) (cause : PortCause) (tag : Option Byte) (s : State) :
    BatchKept s (portDown p cause tag s) :=
  BatchKept.trans (t := handLoss ⟨p, (s.port p).partner, tag⟩ (s.setPort p (s.port p).lost))
    (BatchKept.of_blocks rfl rfl rfl) (notifyOthersUp_told _ _ _).batchKept

theorem BatchKept.deviceReset (s : State) : BatchKept s (deviceReset s) :=
  BatchKept.trans (t := State.reset) (fun _ => ⟨reset_batchSound, fun _ => reset_pendingBusy⟩)
    (BatchKept.of_blocks rfl rfl rfl)

/-! ## Every command -/

theorem request_batchKept {c : Instr} {r : Sender} {code : Nat} {f : State → Reply} (hf : ∀ u, BatchKept u (f u).state)
    {s t : State} (h : request c r code f s = .next t) : BatchKept s t :=
  request_keeps (BatchKept s) (fun _ _ kept => kept.trans (BatchKept.of_blocks rfl rfl rfl))
    (fun u kept => kept.trans (hf u)) h (BatchKept.refl s)

/-- An event that is not a request: a case with something to act on, or none. -/
theorem BatchKept.ite {p : Prop} [Decidable p] {s a : State} (acts : p → BatchKept s a) :
    BatchKept s (if p then a else s) := by
  split
  · next h => exact acts h
  · exact BatchKept.refl s

theorem execOffer_batchKept (r : OfferStep) (c : Nat) (ds : List Nat) (cls : Arg CallClass) {s t : State}
    (h : execOffer r c ds cls s = .next t) : BatchKept s t := by
  obtain ⟨p, part⟩ := r
  cases part with
  | whole => exact request_batchKept (BatchKept.handleOffer p c ds cls) h
  | walk =>
    obtain rfl := Host.Outcome.next.inj h
    split
    · next u taken => exact (taken_billed taken).batchKept.trans (BatchKept.beginOffer p c ds cls u)
    · exact (arrive_billed _ _ s).batchKept
  | keep =>
    obtain rfl := Host.Outcome.next.inj h
    split
    · exact BatchKept.refl s
    · exact BatchKept.finishOffer _ s

theorem exec_batchKept {c : Instr} {s t : State} (acts : actsOnBlocks c = true) (h : exec c s = .next t) :
    BatchKept s t := by
  have next : ∀ {u : State}, BatchKept s u → (Host.Outcome.next u : Answer) = .next t → BatchKept s t :=
    fun kept e => Host.Outcome.next.inj e ▸ kept
  cases c
  case defineGroup r d => exact request_batchKept (BatchKept.handleDefineGroup d) h
  case setGroupParams r n p => exact request_batchKept (BatchKept.handleSetGroupParams n p) h
  case deleteGroup r n => exact request_batchKept (BatchKept.handleDeleteGroup n) h
  case blockCircuits r i n k => exact request_batchKept (BatchKept.handleFlags true i n k) h
  case unblockCircuits r i n k => exact request_batchKept (BatchKept.handleFlags false i n k) h
  case lockPlant r => exact request_batchKept (BatchKept.handleLock true) h
  case unlockPlant r => exact request_batchKept (BatchKept.handleLock false) h
  case reportFarCongestion r n l => exact request_batchKept (BatchKept.handleFarReport n l) h
  case drainGroup r n d => exact request_batchKept (BatchKept.handleDrainGroup r.port n d) h
  case drainSuspend r => exact request_batchKept BatchKept.handleDrainSuspend h
  case drainResume r => exact request_batchKept BatchKept.handleDrainResume h
  case returnGroup r n => exact request_batchKept (BatchKept.handleReturnGroup n) h
  case addPrefix r ds d => exact request_batchKept (BatchKept.handleAddPrefix ds d) h
  case removePrefix r ds => exact request_batchKept (BatchKept.handleRemovePrefix ds) h
  case writeDest r d p b i => exact request_batchKept (BatchKept.handleWriteDest d p b i) h
  case setGap r d i l => exact request_batchKept (BatchKept.handleSetGap d i l) h
  case clearGap r d => exact request_batchKept (BatchKept.handleClearGap d) h
  case writePlan r p as => exact request_batchKept (BatchKept.handleWritePlan p as) h
  case setReattemptLimit r l => exact request_batchKept (BatchKept.handleReattemptLimit l) h
  case offer r c ds cls => exact execOffer_batchKept r c ds cls h
  case accepted r c => exact request_batchKept (BatchKept.handleAccepted r.port c) h
  case answer r c => exact request_batchKept (BatchKept.handleAnswer r.port c) h
  case reattempt r c k l => exact request_batchKept (BatchKept.handleReattempt r.port c k l) h
  case release r c k => exact request_batchKept (BatchKept.handleRelease r.port c k) h
  case adopt r p => exact request_batchKept (BatchKept.handleAdopt r.port p) h
  case clearTraffic r => exact request_batchKept BatchKept.clearTraffic h
  case setOrphanLimit r l => exact request_batchKept (BatchKept.handleOrphanLimit l) h
  case linkLoss p => exact next (BatchKept.ite fun _ => BatchKept.portDown _ _ _ s) h
  case detachComplete p => exact next (BatchKept.ite fun _ => BatchKept.portDown _ _ _ s) h
  case callTablePortLoss p =>
    refine next ?_ h
    split
    · exact BatchKept.refl s
    · exact BatchKept.takePortLoss _ s
  case drainContributorLoss p => exact next (BatchKept.ite fun _ => BatchKept.dropContributor p s) h
  case guardExpiry c => exact next (BatchKept.expireGuard c s) h
  case decayExpiry n => exact next (BatchKept.expireDecay n s) h
  case windowExpiry => exact next (BatchKept.ite fun _ => BatchKept.closeWindow s) h
  case deadlineExpiry => exact next (BatchKept.ite fun reached => BatchKept.passDeadline reached.1) h
  case drainReleaseList =>
    refine next ?_ h
    split
    · exact BatchKept.refl s
    · exact (BatchKept.calls s _).trans (BatchKept.takeReleaseList _ _)
  case gapLifeExpiry d =>
    exact next (BatchKept.ite (a := s.setGap d none) fun _ => BatchKept.of_blocks rfl rfl rfl) h
  case orphanExpiry =>
    refine next ?_ h
    split
    · exact BatchKept.refl s
    · exact BatchKept.ite fun _ => BatchKept.expireOrphan s _
  case glareReselection c =>
    exact next (BatchKept.ite fun _ => (BatchKept.calls s _).trans (BatchKept.reselectDisplaced c _)) h
  case resetN =>
    refine next ?_ h
    split
    · exact BatchKept.deviceReset s
    · exact BatchKept.of_blocks rfl rfl rfl
  case powerOn => exact next (BatchKept.deviceReset s) h
  all_goals cases acts

/-- Settles O60: each command is quiet or made of operations that keep the batch and the service states in step. -/
theorem batchStaysSound : Obligations.BatchStaysSound := by
  intro c s t sound h
  have kept : BatchKept s t := by
    cases acts : actsOnBlocks c with
    | false => exact (exec_billed acts h).batchKept
    | true => exact exec_batchKept acts h
  exact kept sound

end Sys2Proof.Machine
end

section
/-! Proof of O7: BLOCK_CIRCUITS and UNBLOCK_CIRCUITS. Setting or clearing flags moves circuits between the available and the
blocked-idle ones alone, so no busy total moves, and the report that follows drains no member. -/

namespace Sys2Proof.Machine

/-! ## The circuits of a request -/

theorem rising_insertNumber {l : List Nat} (h : l.Pairwise (· < ·)) (k : Nat) : (insertNumber k l).Pairwise (· < ·) := by
  induction l with
  | nil => exact List.pairwise_singleton _ k
  | cons i l ih =>
    obtain ⟨above, rest⟩ := List.pairwise_cons.mp h
    simp only [insertNumber]
    split
    · next below =>
      refine List.pairwise_cons.mpr ⟨fun j hj => ?_, h⟩
      rcases List.mem_cons.mp hj with rfl | hj
      · exact below
      · exact below.trans (above j hj)
    · split
      · exact h
      · refine List.pairwise_cons.mpr ⟨fun j hj => ?_, ih rest⟩
        rcases (mem_insertNumber k j l).mp hj with rfl | hj
        · omega
        · exact above j hj

theorem groupsOf_spec (cs : List (Nat × Equipped)) :
    (groupsOf cs).Pairwise (· < ·) ∧ ∀ n, n ∈ groupsOf cs ↔ ∃ x ∈ cs, x.2.group = n := by
  have both : ∀ (cs : List (Nat × Equipped)) (acc : List Nat), acc.Pairwise (· < ·) →
      (cs.foldl (fun acc e => insertNumber e.2.group acc) acc).Pairwise (· < ·) ∧
        ∀ n, n ∈ cs.foldl (fun acc e => insertNumber e.2.group acc) acc ↔ n ∈ acc ∨ ∃ x ∈ cs, x.2.group = n := by
    intro cs
    induction cs with
    | nil => exact fun acc h => ⟨h, fun n => by simp⟩
    | cons x cs ih =>
      intro acc h
      obtain ⟨rising, mem⟩ := ih _ (rising_insertNumber h x.2.group)
      refine ⟨rising, fun n => (mem n).trans ?_⟩
      rw [mem_insertNumber, List.exists_mem_cons_iff]
      tauto
  obtain ⟨rising, mem⟩ := both cs [] List.Pairwise.nil
  exact ⟨rising, fun n => (mem n).trans (by simp)⟩

theorem mem_equippedIn {s : State} (canonical : s.plant.circuits.wf = true) {r : Range} {x : Nat × Equipped} :
    x ∈ equippedIn s r ↔ s.circuit x.1 = some x.2 ∧ rangeHas r x.1 = true := by
  obtain ⟨i, e⟩ := x
  constructor
  · intro h
    obtain ⟨⟨j, w⟩, listed, taken⟩ := List.mem_filterMap.mp h
    cases w with
    | none => cases taken
    | some f =>
      have taken : (if rangeHas r j then some (j, f) else none) = some (i, e) := taken
      split at taken
      · next has =>
        cases taken
        exact ⟨((Table.mem_iff _ _ _ canonical).mp listed).1, has⟩
      · cases taken
  · rintro ⟨here, has⟩
    exact List.mem_filterMap.mpr ⟨(i, some e), (Table.mem_iff _ _ _ canonical).mpr ⟨here, Option.some_ne_none _⟩, if_pos has⟩

theorem equippedIn_rising {s : State} (canonical : s.plant.circuits.wf = true) (r : Range) :
    (equippedIn s r).Pairwise (fun x y => x.1 < y.1) := by
  have number : ∀ {a : Nat × Option Equipped} {x : Nat × Equipped},
      (a.2.bind fun e => if rangeHas r a.1 then some (a.1, e) else none) = some x → x.1 = a.1 := by
    rintro ⟨i, w⟩ x h
    obtain ⟨e, -, h⟩ := Option.bind_eq_some_iff.mp h
    split at h
    · cases h
      rfl
    · cases h
  have bound : equippedIn s r = s.plant.circuits.entries.filterMap
      (fun a => a.2.bind fun e => if rangeHas r a.1 then some (a.1, e) else none) := by
    unfold equippedIn
    congr 1
    funext a
    cases a.2 <;> rfl
  rw [bound]
  refine ((Table.wf_iff _).mp canonical).1.filterMap _ fun a b below x hx y hy => ?_
  rw [number hx, number hy]
  exact below

/-- A canonical circuit table lists the circuits of a range as the range counts them. -/
theorem equippedIn_eq {s : State} (canonical : s.plant.circuits.wf = true) (r : Range) :
    equippedIn s r = (List.range' r.first r.count).filterMap (fun i => (s.circuit i).map (fun e => (i, e))) := by
  have rising : ((List.range' r.first r.count).filterMap (fun i => (s.circuit i).map (fun e => (i, e)))).Pairwise
      (fun x y => x.1 < y.1) := by
    refine (List.pairwise_lt_range' (s := r.first) (n := r.count)).filterMap _ fun a b below x hx y hy => ?_
    obtain ⟨-, -, rfl⟩ := Option.map_eq_some_iff.mp hx
    obtain ⟨-, -, rfl⟩ := Option.map_eq_some_iff.mp hy
    exact below
  have listed := equippedIn_rising canonical r
  have once : ∀ {l : List (Nat × Equipped)}, l.Pairwise (fun x y => x.1 < y.1) → l.Nodup := fun h =>
    h.imp fun below same => by rw [same] at below; exact absurd below (Nat.lt_irrefl _)
  refine List.Perm.eq_of_pairwise (le := fun x y => x.1 < y.1) (fun a b _ _ x y => absurd x (Nat.lt_asymm y)) listed rising
    ((List.perm_ext_iff_of_nodup (once listed) (once rising)).mpr fun x => ?_)
  rw [mem_equippedIn canonical, rangeHas_iff, List.mem_filterMap]
  constructor
  · rintro ⟨here, has⟩
    exact ⟨x.1, List.mem_range'_1.mpr has, by rw [here]; rfl⟩
  · rintro ⟨i, has, taken⟩
    obtain ⟨e, here, rfl⟩ := Option.map_eq_some_iff.mp taken
    exact ⟨here, List.mem_range'_1.mp has⟩

theorem countP_equipped (s : State) (l : List Nat) (p : Equipped → Bool) :
    (l.filterMap (fun i => (s.circuit i).map (fun e => (i, e)))).countP (fun x => p x.2) =
      l.countP (fun i => (s.circuit i).any p) := by
  induction l with
  | nil => rfl
  | cons i l ih => cases here : s.circuit i <;> simp [here, ih, List.countP_cons]

theorem length_equipped (s : State) (l : List Nat) :
    (l.filterMap (fun i => (s.circuit i).map (fun e => (i, e)))).length + l.countP (fun i => (s.circuit i).isNone) =
      l.length := by
  induction l with
  | nil => rfl
  | cons i l ih =>
    cases here : s.circuit i <;> simp [here] <;> omega

theorem flagChanges_eq {s : State} (canonical : s.plant.circuits.wf = true) (r : Range) (k : FlagKind) (v : Bool) :
    flagChanges s r k v =
      (List.range' r.first r.count).countP (fun i => (s.circuit i).any (fun e => decide (withFlag k v e ≠ e))) := by
  rw [flagChanges, equippedIn_eq canonical]
  exact countP_equipped s _ fun e => decide (withFlag k v e ≠ e)

theorem equippedIn_skipped {s : State} (canonical : s.plant.circuits.wf = true) (r : Range) :
    r.count - (equippedIn s r).length = (List.range' r.first r.count).countP (fun i => (s.circuit i).isNone) := by
  have total := length_equipped s (List.range' r.first r.count)
  rw [List.length_range', ← equippedIn_eq canonical] at total
  omega

/-! ## The flags (R22, R23) -/

theorem withFlag_withFlag (k : FlagKind) (v : Bool) (e : Equipped) : withFlag k v (withFlag k v e) = withFlag k v e := by
  cases k <;> rfl

theorem flagAll_circuit (cs : List (Nat × Equipped)) (k : FlagKind) (v : Bool) (s : State) (i : Nat) :
    (flagAll cs k v s).circuit i = if i ∈ cs.map Prod.fst then (s.circuit i).map (withFlag k v) else s.circuit i := by
  induction cs generalizing s with
  | nil => rfl
  | cons x cs ih =>
    rw [flagAll, List.foldl_cons, ← flagAll, ih, changeCircuit_circuit, List.map_cons]
    by_cases here : i = x.1
    · subst here
      simp [Function.comp_def, withFlag_withFlag]
    · rw [if_neg here]
      simp only [List.mem_cons, or_iff_right here]

/-- R2: a flag moves a circuit between the available and the blocked-idle ones of its group alone. -/
theorem Group.move_flags {e f : Equipped} (same : f.occupancy = e.occupancy) (c : Nat) (g : Group) :
    ∃ i a b, Group.move c e.condition f.condition g = { g with idleSet := i, available := a, blockedIdle := b } := by
  unfold Group.move
  split
  · exact ⟨g.idleSet, g.available, g.blockedIdle, rfl⟩
  · next moved =>
    cases used : e.occupancy with
    | idle =>
      rw [Equipped.condition_idle used, Equipped.condition_idle (same.trans used)]
      cases e.blocked <;> cases f.blocked <;> exact ⟨_, _, _, rfl⟩
    | _ =>
      refine absurd ?_ moved
      simp only [Equipped.condition, used, same.trans used]

theorem flagAll_group (cs : List (Nat × Equipped)) (k : FlagKind) (v : Bool) (s : State) (n : Nat) (g : Group)
    (defined : s.group n = some g) :
    ∃ i a b, (flagAll cs k v s).group n = some { g with idleSet := i, available := a, blockedIdle := b } := by
  induction cs generalizing s g with
  | nil => exact ⟨g.idleSet, g.available, g.blockedIdle, defined⟩
  | cons x cs ih =>
    have one : ∃ i a b, (changeCircuit x.1 (withFlag k v) s).group n =
        some { g with idleSet := i, available := a, blockedIdle := b } := by
      cases here : s.circuit x.1 with
      | none =>
        refine ⟨g.idleSet, g.available, g.blockedIdle, ?_⟩
        simp only [changeCircuit, here, defined]
      | some e =>
        rw [changeCircuit_group _ here]
        split
        · obtain ⟨i, a, b, moved⟩ := Group.move_flags (withFlag_occupancy k v e) x.1 g
          exact ⟨i, a, b, by rw [defined, Option.map_some, moved]⟩
        · exact ⟨g.idleSet, g.available, g.blockedIdle, defined⟩
    obtain ⟨i, a, b, one⟩ := one
    have moved := ih _ _ one
    exact moved

theorem flagAll_group_other {cs : List (Nat × Equipped)} {k : FlagKind} {v : Bool} {n : Nat} {s : State}
    (mine : ∀ x ∈ cs, ∃ e, s.circuit x.1 = some e ∧ e.group ≠ n) : (flagAll cs k v s).group n = s.group n := by
  induction cs generalizing s with
  | nil => rfl
  | cons x cs ih =>
    obtain ⟨⟨e, here, apart⟩, rest⟩ := List.forall_mem_cons.mp mine
    have one : (changeCircuit x.1 (withFlag k v) s).group n = s.group n := by
      rw [changeCircuit_group _ here, if_neg (Ne.symm apart)]
    refine (ih fun y hy => ?_).trans one
    obtain ⟨f, there, other⟩ := rest y hy
    rw [changeCircuit_circuit]
    split
    · next same =>
      rw [← same, there]
      exact ⟨_, rfl, by rw [withFlag_group]; exact other⟩
    · exact ⟨f, there, other⟩

/-- R4, R37: while every pending member is busy, a change of flags drains none, and its report derives congestion alone. -/
theorem flagRange_derives {s : State} (canonical : s.plant.circuits.wf = true) (sound : BatchSound s) (busy : PendingBusy s)
    (r : Range) (k : FlagKind) (v : Bool) :
    (∀ n, Derived s (flagRange r k v s) n) ∧
      (flagRange r k v s).service =
        { s.service with
          groups := (flagRange r k v s).service.groups, exhausted := (flagRange r k v s).service.exhausted } := by
  obtain ⟨service, isSome, total, -⟩ := flagAll_spec (equippedIn s r) k v s
  obtain ⟨formed, -, -, -⟩ := (batchSound_iff s).mp sound
  have still : ∀ n ∈ (groupsOf (equippedIn s r)).filter (countsMoved s (flagAll (equippedIn s r) k v s)),
      ¬Drains (flagAll (equippedIn s r) k v s) n := by
    rintro n - ⟨draining, pending, none⟩
    rw [service] at draining pending
    have held := busy draining n ((DrainBatch.resultOf_eq_some_iff formed.once n .pending).mp pending)
    rw [total] at none
    exact absurd held (by rw [none]; exact Nat.lt_irrefl 0)
  rw [flagRange_eq, Machine.report, takeReports_of_not_drains still]
  obtain ⟨rising, mem⟩ := groupsOf_spec (equippedIn s r)
  refine ⟨derivedReport_derived (rising.imp Nat.ne_of_lt) (fun n apart => flagAll_group_other fun x hx => ?_)
    (State.svc_congr (by rw [service])), ?_⟩
  · exact ⟨x.2, ((mem_equippedIn canonical).mp hx).1, fun mine => apart ((mem n).mpr ⟨x, hx, mine⟩)⟩
  · rw [derivedReport_service, service]

theorem flagRange_circuit {s : State} (canonical : s.plant.circuits.wf = true) (r : Range) (k : FlagKind) (v : Bool) (i : Nat) :
    (flagRange r k v s).circuit i =
      if r.first ≤ i ∧ i < r.first + r.count then (s.circuit i).map (withFlag k v) else s.circuit i := by
  rw [flagRange_eq, report_circuit, flagAll_circuit]
  cases here : s.circuit i with
  | none => rw [Option.map_none, ite_self, ite_self]
  | some e =>
    have listed : i ∈ (equippedIn s r).map Prod.fst ↔ r.first ≤ i ∧ i < r.first + r.count := by
      rw [List.mem_map]
      constructor
      · rintro ⟨x, hx, rfl⟩
        exact (rangeHas_iff r _).mp ((mem_equippedIn canonical).mp hx).2
      · exact fun has => ⟨(i, e), (mem_equippedIn canonical).mpr ⟨here, (rangeHas_iff r i).mpr has⟩, rfl⟩
    simp only [listed]

/-! ## The two requests -/

theorem exec_flags (on : Bool) (r : Sender) (first count : Nat) (kind : Arg FlagKind) (s : State) :
    ∃ code,
      requestOf (if on = true then .blockCircuits r first count kind else .unblockCircuits r first count kind) =
        some (r, code) ∧
      exec (if on = true then .blockCircuits r first count kind else .unblockCircuits r first count kind) s =
        request (if on = true then .blockCircuits r first count kind else .unblockCircuits r first count kind) r code
          (handleFlags on first count kind) s := by
  cases on
  · exact ⟨RequestKind.unblockCircuits.code, rfl, rfl⟩
  · exact ⟨RequestKind.blockCircuits.code, rfl, rfl⟩

theorem handleFlags_refuses {on : Bool} {first count : Nat} {kind : Arg FlagKind} {u : State} {st : Status}
    (h : FirstOf
      [(16383 < first, .outOfRange), (16384 < first + clamp 1 2048 count, .outOfRange), (kind.value? = none, .badRequest)]
      st) : handleFlags on first count kind u = refuse st (closeWindow u) := by
  unfold handleFlags
  refine firstOf_ite_eq (answer := fun st => refuse st (closeWindow u)) h (Config.circuits_le_iff first) fun h => ?_
  refine firstOf_ite_eq (answer := fun st => refuse st (closeWindow u)) h Iff.rfl fun h => ?_
  obtain ⟨none, rfl⟩ := h.resolve_right fun noCheck => noCheck.2
  rw [none]

/-- Settles O7. -/
theorem blockAndUnblock : Obligations.BlockAndUnblock := by
  rintro r first count kind on c s u sound batch busy rfl takes
  obtain ⟨code, request, run⟩ := exec_flags on r first count kind s
  have answer := fun {v st x} => answers_of (v := v) (st := st) (x := x) request run takes
  refine ⟨fun st h => answer (handleFlags_refuses h), ?_⟩
  rintro k range fits rfl
  have blocks := takes_blocks takes
  have soundU : PlantSound u := sound.of_plant (takes_plant takes)
  have kept : BatchKept s u := BatchKept.of_blocks (takes_plant takes) (by rw [blocks]) (by rw [blocks])
  obtain ⟨batchU, busyU⟩ := kept batch
  have busyU := busyU busy
  have served := closeWindow_served u
  obtain ⟨batchW, busyW⟩ := closeWindow_pendingBusy batchU fun _ => busyU
  have soundW : PlantSound (closeWindow u) := served.plantKept soundU
  have canonical := soundW.canonical
  obtain ⟨service, isSome, total, locked⟩ :=
    flagAll_spec (equippedIn (closeWindow u) ⟨first, clamp 1 2048 count⟩) k on (closeWindow u)
  obtain ⟨derived, rest⟩ := flagRange_derives canonical batchW busyW ⟨first, clamp 1 2048 count⟩ k on
  have planted := served.planted.trans (flagRange_planted ⟨first, clamp 1 2048 count⟩ k on (closeWindow u))
  have circuit : ∀ i, (closeWindow u).circuit i = u.circuit i := served.circuit
  have group : ∀ n, (flagRange ⟨first, clamp 1 2048 count⟩ k on (closeWindow u)).group n =
      (flagAll (equippedIn (closeWindow u) ⟨first, clamp 1 2048 count⟩) k on (closeWindow u)).group n := fun n => by
    rw [flagRange_eq, report_group]
  refine ⟨flagRange ⟨first, clamp 1 2048 count⟩ k on (closeWindow u), answer ?_, fun i => ?_,
    flagRange_plantKept _ k on _ soundW, fun n => ?_, fun n g defined => ?_, fun n undefined => ?_, derived, rest, ?_,
    planted.sameElsewhere, planted.calls⟩
  · have changes := flagChanges_eq canonical ⟨first, clamp 1 2048 count⟩ k on
    have skipped := equippedIn_skipped canonical ⟨first, clamp 1 2048 count⟩
    simp only [circuit] at changes skipped
    rw [← changes, ← skipped, handleFlags, if_neg (mt (Config.circuits_le_iff first).mp (Nat.not_lt.mpr range)),
      if_neg (Nat.not_lt.mpr fits : ¬Config.circuits < first + (⟨first, clamp 1 2048 count⟩ : Range).count)]
    rfl
  · rw [flagRange_circuit canonical, circuit]
  · rw [State.busyTotal_congr (group n), total, served.busyTotal]
  · rw [group]
    exact flagAll_group _ k on _ n g ((served.group n).trans defined)
  · rw [group, ← Option.isNone_iff_eq_none, ← Option.not_isSome, isSome, served.group, undefined]
    rfl
  · rw [flagRange_eq, (report_served _ _ _).plant, locked, served.plant]

end Sys2Proof.Machine
end

section
/-! The inbound legs of chapter 1 and the OFFERs that seize them: what a seizure, a glare displacement and an undo leave
(O32), and the checks of OFFER (O30). -/

namespace Sys2Proof.Machine

/-! ## Circuits after a seizure, an undo or a release (R16, R19, R20) -/

theorem changeAndReport_circuit (c : Nat) (f : Equipped → Equipped) (s : State) (i : Nat) :
    (changeAndReport c f s).circuit i = if i = c then (s.circuit c).map f else s.circuit i := by
  cases here : s.circuit c with
  | none =>
    have same : changeAndReport c f s = s := by simp only [changeAndReport, here]
    rw [same]
    split
    · next at_c => rw [at_c, here]; rfl
    · rfl
  | some e => rw [changeAndReport_eq here, report_circuit, changeCircuit_circuit, here]

theorem occupyIn_circuit (c : Nat) (call : CallRef) (s : State) (i : Nat) :
    (occupyIn c call s).circuit i =
      if i = c then (s.circuit c).map (fun e => { e with occupancy := .busyIn call }) else s.circuit i :=
  changeAndReport_circuit c _ s i

theorem undoInbound_circuit (c : Nat) (f : Former) (s : State) (i : Nat) :
    (undoInbound c f s).circuit i =
      if i = c then (s.circuit c).map (fun e => { e with occupancy := undoneOccupancy s e f }) else s.circuit i :=
  changeAndReport_circuit c _ s i

theorem guardTimeOf_eq {s : State} {e : Equipped} {g : Group} (defined : s.group e.group = some g) :
    guardTimeOf s e = g.guardTime := by
  simp only [guardTimeOf, defined]

/-! ## Records and slots (R104, R118) -/

theorem State.call_eq_some_iff (s : State) (r : CallRef) (x : Call) :
    s.call r = some x ↔ (s.slot r.slot).generation = r.generation ∧ (s.slot r.slot).call = some x := by
  unfold State.call
  split
  · next same => simp [same]
  · next other => simp [other]

theorem State.refOf_eq {s : State} {r : CallRef} (same : (s.slot r.slot).generation = r.generation) : s.refOf r.slot = r := by
  obtain ⟨k, n⟩ := r
  exact congrArg (CallRef.mk k) same

theorem changeCall_eq {s : State} {k : Nat} {x : Call} (used : (s.slot k).call = some x) (f : Call → Call) :
    s.changeCall k f = s.setCall k (f x) := by
  simp only [State.changeCall, used]

theorem displace_of_some {s : State} {d : CallRef} {x : Call} (used : s.call d = some x) :
    displace d s =
      { s.setCall d.slot { x with leg := none, reselectionPending := true } with
        calls :=
          { (s.setCall d.slot { x with leg := none, reselectionPending := true }).calls with
            reselections := s.calls.reselections ++ [d] } } := by
  have slot := ((s.call_eq_some_iff d x).mp used).2
  simp only [displace, used, changeCall_eq slot]
  rfl

theorem displace_of_none {s : State} {d : CallRef} (free : s.call d = none) :
    displace d s =
      { s with
        calls :=
          { s.calls with
            offers := s.calls.offers.map (fun o => if o.ref = d then { o with displaced := true } else o) } } := by
  simp only [displace, free]
  rfl

/-- R118: a displacement changes the call table alone. -/
theorem displace_calls (d : CallRef) (s : State) : displace d s = { s with calls := (displace d s).calls } := by
  cases used : s.call d with
  | none => rw [displace_of_none used]
  | some x => rw [displace_of_some used]; rfl

/-- Settles O32. -/
theorem inboundSeizureAndUndo : Obligations.InboundSeizureAndUndo := by
  intro s c call e g f sound here defined
  have seized := occupyIn_planted c call s
  have undone := undoInbound_planted c f s
  refine ⟨⟨?_, fun i other => ?_, occupyIn_plantKept c call s sound, seized.sameElsewhere, seized.calls⟩,
    fun d x => displace_of_some, fun d => displace_of_none, ?_, fun i other => ?_, undoInbound_plantKept c f s sound,
    undone.sameElsewhere, undone.calls⟩
  · rw [occupyIn_circuit, if_pos rfl, here]
    rfl
  · rw [occupyIn_circuit, if_neg other]
  · rw [undoInbound_circuit, if_pos rfl, here, Option.map_some]
    cases f <;> simp only [undoneOccupancy, guardOrIdle, guardTimeOf_eq defined] <;> rfl
  · rw [undoInbound_circuit, if_neg other]

/-! ## The checks of an inbound seizure (R15) -/

theorem decideInbound_of {s : State} {c : Nat} {e : Equipped} {g : Group} (here : s.circuit c = some e)
    (defined : s.group e.group = some g) :
    decideInbound s c =
      if g.direction = .outOnly then .refused .wrongDirection
      else if (s.svc e.group).service.takesTraffic = false then .refused .groupUnavailable
      else decideCircuit s c e g.glare := by
  simp only [decideInbound, here, defined]

theorem ServiceState.not_takesTraffic_iff (v : ServiceState) :
    v.takesTraffic = false ↔ v = .draining ∨ v = .outOfService := by
  cases v <;> simp [ServiceState.takesTraffic]

theorem GlareRule.wins_iff (rule : GlareRule) (c : Nat) :
    rule.wins c = true ↔ rule = .winAll ∨ (rule = .winEven ∧ c % 2 = 0) ∨ (rule = .winOdd ∧ c % 2 = 1) := by
  cases rule <;> simp [GlareRule.wins]

theorem ownerHoldsFirmly_iff (s : State) (d : CallRef) :
    ownerHoldsFirmly s d = true ↔ ∃ x, s.call d = some x ∧ (x.state = .proceeding ∨ x.state = .answered) := by
  unfold ownerHoldsFirmly
  cases s.call d <;> simp

theorem decideCircuit_of_busyOut {s : State} {c : Nat} {e : Equipped} {d : CallRef} (used : e.occupancy = .busyOut d)
    (clear : ¬(e.localFlag || e.remoteFlag) = true) (rule : GlareRule) :
    decideCircuit s c e rule =
      if ownerHoldsFirmly s d then .refused .circuitBusy else if rule.wins c then .refused .glare else .yields d := by
  have open_ : e.blocked = false := Bool.not_eq_true _ ▸ clear
  simp only [decideCircuit, open_, used, Bool.false_eq_true, if_false]

theorem decideCircuit_of_busyIn {s : State} {c : Nat} {e : Equipped} {d : CallRef} (used : e.occupancy = .busyIn d)
    (clear : ¬(e.localFlag || e.remoteFlag) = true) (rule : GlareRule) :
    decideCircuit s c e rule = .refused .circuitBusy := by
  have open_ : e.blocked = false := Bool.not_eq_true _ ▸ clear
  simp only [decideCircuit, open_, used, Bool.false_eq_true, if_false]

/-- R15 rows 4 to 8, as checks of one circuit. -/
theorem decideCircuit_refuses {s : State} {c : Nat} {e : Equipped} {g : Group} {st : Status}
    (h : FirstOf
      [((e.localFlag || e.remoteFlag) = true, .circuitBlocked), (∃ d, e.occupancy = .busyIn d, .circuitBusy),
        (∃ d, e.occupancy = .busyOut d ∧ ownerHoldsFirmly s d = true, .circuitBusy),
        (∃ d, e.occupancy = .busyOut d ∧ g.glare.wins c = true, .glare)] st) :
    decideCircuit s c e g.glare = .refused st := by
  rcases h with ⟨flagged, rfl⟩ | ⟨clear, ⟨⟨d, used⟩, rfl⟩ | ⟨-, ⟨⟨d, used, firm⟩, rfl⟩ | ⟨loose, h⟩⟩⟩
  · exact if_pos flagged
  · exact decideCircuit_of_busyIn used clear _
  · rw [decideCircuit_of_busyOut used clear, if_pos firm]
  · obtain ⟨⟨d, used, wins⟩, rfl⟩ := h.resolve_right fun noCheck => noCheck.2
    rw [decideCircuit_of_busyOut used clear, if_neg fun firm => loose ⟨d, used, firm⟩, if_pos wins]

/-- R15: the checks of an inbound seizure, in their order. -/
theorem decideInbound_refuses {u : State} {c : Nat} {st : Status} (sound : PlantSound u)
    (h : FirstOf
      [(u.circuit c = none, .groupUnavailable),
        (∃ e g, u.circuit c = some e ∧ u.group e.group = some g ∧ g.direction = .outOnly, .wrongDirection),
        (∃ e, u.circuit c = some e ∧
          ((u.svc e.group).service = .draining ∨ (u.svc e.group).service = .outOfService), .groupUnavailable),
        (∃ e, u.circuit c = some e ∧ (e.localFlag || e.remoteFlag) = true, .circuitBlocked),
        (∃ e d, u.circuit c = some e ∧ e.occupancy = .busyIn d, .circuitBusy),
        (∃ e d x, u.circuit c = some e ∧ e.occupancy = .busyOut d ∧ u.call d = some x ∧
          (x.state = .proceeding ∨ x.state = .answered), .circuitBusy),
        (∃ e g d, u.circuit c = some e ∧ u.group e.group = some g ∧ e.occupancy = .busyOut d ∧
          (g.glare = .winAll ∨ (g.glare = .winEven ∧ c % 2 = 0) ∨ (g.glare = .winOdd ∧ c % 2 = 1)), .glare)] st) :
    decideInbound u c = .refused st := by
  cases here : u.circuit c with
  | none =>
    obtain ⟨-, rfl⟩ := h.resolve_right fun h => h.1 here
    simp only [decideInbound, here]
  | some e =>
    obtain ⟨-, inGroup, -⟩ := sound
    obtain ⟨g, defined⟩ := Option.isSome_iff_exists.mp (inGroup c e here).2
    rw [decideInbound_of here defined]
    simp only [exists_and_left, here, defined, Option.some.injEq, exists_eq_left', reduceCtorEq] at h
    refine firstOf_ite_eq (h.resolve_left fun h => h.1).2 Iff.rfl fun h => ?_
    refine firstOf_ite_eq h (ServiceState.not_takesTraffic_iff _) fun h => ?_
    refine decideCircuit_refuses ?_
    simp only [ownerHoldsFirmly_iff, GlareRule.wins_iff]
    exact h

/-! ## The lowest FREE slot (R107) -/

theorem firstFrom_eq_none_iff (p : Nat → Bool) (fuel k : Nat) :
    firstFrom p fuel k = none ↔ ∀ j, k ≤ j → j < k + fuel → p j = false := by
  induction fuel generalizing k with
  | zero => exact ⟨fun _ j hj => by omega, fun _ => rfl⟩
  | succ fuel ih =>
    rw [firstFrom]
    cases here : p k with
    | true => exact ⟨fun h => (by cases h), fun h => by rw [h k (Nat.le_refl k) (by omega)] at here; cases here⟩
    | false =>
      refine (ih (k + 1)).trans ⟨fun h j hj hf => ?_, fun h j hj hf => h j (by omega) (by omega)⟩
      rcases Nat.eq_or_lt_of_le hj with rfl | above
      · exact here
      · exact h j above (by omega)

theorem firstFrom_eq_some {p : Nat → Bool} {fuel k j : Nat} (above : k ≤ j) (within : j < k + fuel) (first : p j = true)
    (before : ∀ i, k ≤ i → i < j → p i = false) : firstFrom p fuel k = some j := by
  induction fuel generalizing k with
  | zero => omega
  | succ fuel ih =>
    rw [firstFrom]
    rcases Nat.eq_or_lt_of_le above with rfl | later
    · exact if_pos first
    · rw [before k (Nat.le_refl k) later]
      exact ih later (by omega) fun i hi hj => before i (by omega) hj

theorem heldSlot_iff (s : State) (k : Nat) : heldSlot s k = true ↔ ∃ o ∈ s.calls.offers, o.ref.slot = k := by
  simp [heldSlot]

theorem slotTaken_iff (s : State) (k : Nat) :
    ((s.slot k).call.isNone && !heldSlot s k) = false ↔
      (s.slot k).call.isSome = true ∨ ∃ o ∈ s.calls.offers, o.ref.slot = k := by
  rw [← heldSlot_iff]
  cases (s.slot k).call <;> cases heldSlot s k <;> simp

theorem lowestFreeSlot_eq_none_iff (s : State) :
    lowestFreeSlot s = none ↔
      ∀ k, k < 8192 → (s.slot k).call.isSome = true ∨ ∃ o ∈ s.calls.offers, o.ref.slot = k := by
  unfold lowestFreeSlot
  rw [firstFrom_eq_none_iff]
  refine forall_congr' fun k => ?_
  rw [slotTaken_iff, Nat.zero_add]
  exact forall_prop_of_true (Nat.zero_le k)

theorem lowestFreeSlot_eq_some {s : State} {k : Nat} (range : k < 8192) (free : (s.slot k).call = none)
    (open_ : ∀ o ∈ s.calls.offers, o.ref.slot ≠ k)
    (below : ∀ j, j < k → (s.slot j).call.isSome = true ∨ ∃ o ∈ s.calls.offers, o.ref.slot = j) :
    lowestFreeSlot s = some k := by
  refine firstFrom_eq_some (Nat.zero_le k) (by rw [Nat.zero_add]; exact range) ?_ fun i _ lower =>
    (slotTaken_iff s i).mpr (below i lower)
  have notHeld : heldSlot s k = false := by
    rw [← Bool.not_eq_true, heldSlot_iff]
    exact fun ⟨o, listed, same⟩ => open_ o listed same
  rw [free, notHeld]
  rfl

/-! ## The checks of OFFER (R107, R108) -/

theorem exec_offer_whole (r : Sender) (c : Nat) (ds : List Nat) (cls : Arg CallClass) (s : State) :
    exec (.offer ⟨r, .whole⟩ c ds cls) s =
      request (.offer ⟨r, .whole⟩ c ds cls) r RequestKind.offer.code (handleOffer r c ds cls) s := rfl

theorem exec_offer_walk {r : Sender} {c : Nat} {ds : List Nat} {cls : Arg CallClass} {s u : State}
    (takes : Takes (.offer ⟨r, .walk⟩ c ds cls) s u) :
    exec (.offer ⟨r, .walk⟩ c ds cls) s = .next (beginOffer r c ds cls u) := by
  have taken : taken (.offer ⟨r, .walk⟩ c ds cls) r RequestKind.offer.code s = some u := takes
  show execOffer ⟨r, .walk⟩ c ds cls s = _
  simp only [execOffer, taken]

/-- R107, R108: an OFFER refused by its checks is answered the same, taken whole or up to the end of its walk. -/
theorem offer_refused {r : Sender} {c : Nat} {ds : List Nat} {cls : Arg CallClass} {part : OfferPart} {s u v : State}
    {st : Status} (notEnd : part ≠ .keep) (takes : Takes (.offer ⟨r, part⟩ c ds cls) s u)
    (refused : (checkOffer r.port c ds cls u).1 = .refused (refuse st v)) :
    Refuses (.offer ⟨r, part⟩ c ds cls) s st v := by
  cases checked : checkOffer r.port c ds cls u with
  | mk outcome call =>
    rw [checked] at refused
    obtain rfl : outcome = .refused (refuse st v) := refused
    cases part with
    | keep => exact absurd rfl notEnd
    | whole => exact answers_of rfl (exec_offer_whole r c ds cls s) takes (by rw [handleOffer, checked]; rfl)
    | walk =>
      have answered : beginOffer r c ds cls u = respond r RequestKind.offer.code (refuse st v) := by
        rw [beginOffer, checked]
      refine ⟨beginOffer r c ds cls u, exec_offer_walk takes, ?_⟩
      rw [answered]
      exact ⟨respond_same _ _ (refuse st v), respond_answered _ _ (refuse st v)⟩

theorem offerForm_of {c : Nat} {ds : List Nat} {cls : Arg CallClass} {k : CallClass}
    (digits : 1 ≤ ds.length ∧ ds.length ≤ 24 ∧ ∀ x ∈ ds, x ≤ 9) (known : cls.value? = some k) (range : ¬16383 < c) :
    offerForm c ds cls = .ok k := by
  simp only [offerForm, (digitsOk_iff 1 24 ds).mpr digits, known]
  exact if_neg (mt (Config.circuits_le_iff c).mp range)

/-- R107 checks 1 to 3. -/
theorem offerForm_refuses {c : Nat} {ds : List Nat} {cls : Arg CallClass} {st : Status}
    (h : FirstOf
      [(¬(1 ≤ ds.length ∧ ds.length ≤ 24 ∧ ∀ x ∈ ds, x ≤ 9), .badRequest), (cls.value? = none, .badRequest),
        (16383 < c, .outOfRange)] st) : offerForm c ds cls = .error st := by
  unfold offerForm
  refine firstOf_ite_eq h (by rw [← digitsOk_iff, Bool.not_eq_true', Bool.not_eq_true]) fun h => ?_
  rcases h with ⟨unknown, rfl⟩ | ⟨known, h⟩
  · rw [unknown]
  · obtain ⟨k, known⟩ := Option.ne_none_iff_exists'.mp known
    rw [known]
    obtain ⟨range, rfl⟩ := h.resolve_right fun noCheck => noCheck.2
    exact if_pos ((Config.circuits_le_iff c).mpr range)

theorem checkOffer_of_form {p : Port} {c : Nat} {ds : List Nat} {cls : Arg CallClass} {k : CallClass} {u : State}
    (form : offerForm c ds cls = .ok k) {n : Nat} (slot : lowestFreeSlot u = some n) :
    checkOffer p c ds cls u = (seizeOffer p c ds k (u.refOf n) u, u.refOf n) := by
  simp only [checkOffer, form, slot]

/-- Settles O30. -/
theorem offerChecks : Obligations.OfferChecks := by
  intro r c ds cls part s u st sound notEnd takes h
  have sound : PlantSound u := sound.of_plant (takes_plant takes)
  refine offer_refused notEnd takes ?_
  have formed : ∀ {x}, offerForm c ds cls = .error x →
      (checkOffer r.port c ds cls u).1 = .refused (refuse x u) := fun {x} bad => by
    simp only [checkOffer, bad]
  rcases h with ⟨digits, rfl⟩ | ⟨digits, ⟨unknown, rfl⟩ | ⟨known, ⟨range, rfl⟩ | ⟨range, h⟩⟩⟩
  · exact formed (offerForm_refuses (.inl ⟨digits, rfl⟩))
  · exact formed (offerForm_refuses (.inr ⟨digits, .inl ⟨unknown, rfl⟩⟩))
  · exact formed (offerForm_refuses (.inr ⟨digits, .inr ⟨known, .inl ⟨range, rfl⟩⟩⟩))
  · obtain ⟨k, known⟩ := Option.ne_none_iff_exists'.mp known
    have form := offerForm_of (not_not.mp digits) known range
    rcases h with ⟨full, rfl⟩ | ⟨room, h⟩
    · simp only [checkOffer, form, (lowestFreeSlot_eq_none_iff u).mpr full]
    · obtain ⟨n, slot⟩ := Option.ne_none_iff_exists'.mp (mt (lowestFreeSlot_eq_none_iff u).mp room)
      rw [checkOffer_of_form form slot]
      simp only [seizeOffer, decideInbound_refuses sound h]

end Sys2Proof.Machine
end

section
/-! Proof of O31: an OFFER after its inbound seizure, whole or in two parts. -/

namespace Sys2Proof.Machine

/-! ## What the analysis reads (R51, R54, R60) -/

theorem longestUpTo_congr {s t : State} (same : t.analyser = s.analyser) (ds : List Nat) (n : Nat) :
    longestUpTo t ds n = longestUpTo s ds n := by
  induction n with
  | zero => rfl
  | succ n ih => simp only [longestUpTo, State.prefixEntry, same, ih]

theorem findTarget_congr {s t : State} (same : t.analyser = s.analyser) (ds : List Nat) :
    findTarget t ds = findTarget s ds := by
  have longest : longestMatch t ds = longestMatch s ds := longestUpTo_congr same ds 16
  have dest : ∀ d, t.dest d = s.dest d := fun d => by simp only [State.dest, same]
  cases found : longestMatch s ds with
  | none => rw [findTarget_of_none found, findTarget_of_none (longest.trans found)]
  | some x => rw [findTarget_of_some found, findTarget_of_some (longest.trans found), dest]

theorem gapAdmits_congr {s t : State} (same : t.analyser = s.analyser) (now : t.now = s.now) (d : Nat) (cls : CallClass) :
    gapAdmits t d cls = gapAdmits s d cls := by
  simp only [gapAdmits, State.gap, same, now]

theorem afterGapCheck_analyser (d : Nat) (cls : CallClass) (s : State) :
    afterGapCheck d cls s = { s with analyser := (afterGapCheck d cls s).analyser } := by
  simp only [afterGapCheck]
  repeat' split
  all_goals rfl

theorem heldBack_iff (s : State) (cls : CallClass) (n : Nat) :
    heldBack s cls n = true ↔ cls = .normal ∧ (s.carrier n).hold = true := by
  cases cls <;> simp [heldBack]

/-! ## The inbound seizure of an OFFER (R108 step 5) -/

theorem inboundOf_eq {u : State} {c : Nat} {e : Equipped} {g : Group} (here : u.circuit c = some e)
    (defined : u.group e.group = some g) : inboundOf u c = (e.group, g.carrier) := by
  simp only [inboundOf, here, defined]

section seized
variable {u : State} {c : Nat} {e : Equipped} {g : Group} (here : u.circuit c = some e)
  (defined : u.group e.group = some g) (p : Port) (ds : List Nat) (cls : CallClass) (call : CallRef)
include here defined

theorem seizeOffer_accepted {f : Former} (decided : decideInbound u c = .accepted f) :
    seizeOffer p c ds cls call u = routeOffer p c call f ds cls e.group g.carrier (occupyIn c call u) := by
  simp only [seizeOffer, decided, inboundOf_eq here defined]

theorem seizeOffer_yields {d : CallRef} (decided : decideInbound u c = .yields d) :
    seizeOffer p c ds cls call u =
      routeOffer p c call .yielded ds cls e.group g.carrier (displace d (occupyIn c call u)) := by
  simp only [seizeOffer, decided, inboundOf_eq here defined]

end seized

theorem GlareRule.not_wins_of_yields {rule : GlareRule} {c : Nat}
    (h : rule = .yieldAll ∨ (rule = .winEven ∧ c % 2 = 1) ∨ (rule = .winOdd ∧ c % 2 = 0)) : ¬rule.wins c = true := by
  rcases h with rfl | ⟨rfl, odd⟩ | ⟨rfl, even⟩
  · exact Bool.false_ne_true
  · simp [GlareRule.wins, odd]
  · simp [GlareRule.wins, even]

/-! ## The outcomes of the route (R108 steps 6 to 9) -/

section routed
variable {w : State} {ds : List Nat} (p : Port) (c : Nat) (call : CallRef) (f : Former) (cls : CallClass) (n k : Nat)

theorem routeOffer_of_error {st : Status} (found : findTarget w ds = .error st) :
    routeOffer p c call f ds cls n k w = .refused (refuse st (undoInbound c f w)) := by
  simp only [routeOffer, found]
  rfl

theorem routeOffer_of_gapped {t : Target} (found : findTarget w ds = .ok t)
    (gapped : gapAdmits w t.destination cls = false) :
    routeOffer p c call f ds cls n k w =
      .refused (refuse .gapped (undoInbound c f (afterGapCheck t.destination cls w))) := by
  simp only [routeOffer, found, gapped]
  rfl

theorem routeOffer_of_held {t : Target} (found : findTarget w ds = .ok t)
    (admitted : gapAdmits w t.destination cls = true) (held : heldBack (afterGapCheck t.destination cls w) cls k = true) :
    routeOffer p c call f ds cls n k w =
      .refused (refuse .carrierHold (undoInbound c f (afterGapCheck t.destination cls w))) := by
  simp only [routeOffer, found, admitted, held]
  rfl

theorem routeOffer_walks {t : Target} (found : findTarget w ds = .ok t)
    (admitted : gapAdmits w t.destination cls = true)
    (free : heldBack (afterGapCheck t.destination cls w) cls k = false) :
    routeOffer p c call f ds cls n k w = walkOffer p c call f cls n k t (afterGapCheck t.destination cls w) := by
  simp only [routeOffer, found, admitted, free]
  rfl

variable {w1 : State} {t : Target}

theorem walkOffer_of_none (noLeg : (walk (offerCall call cls n t) (w1.plan t.plan) w1).leg = none) :
    walkOffer p c call f cls n k t w1 =
      .refused (refuse (if w1.plan t.plan = [] then .noRoute else .allRoutesBusy)
        (undoInbound c f (walk (offerCall call cls n t) (w1.plan t.plan) w1).state)) := by
  simp only [walkOffer, noLeg, List.isEmpty_iff]
  rfl

theorem walkOffer_of_some {l : NewLeg} (leg : (walk (offerCall call cls n t) (w1.plan t.plan) w1).leg = some l) :
    walkOffer p c call f cls n k t w1 =
      .walked (walk (offerCall call cls n t) (w1.plan t.plan) w1).state
        (newCall p c n k t cls (walk (offerCall call cls n t) (w1.plan t.plan) w1) l) := by
  simp only [walkOffer, leg]

end routed

/-! ## Keeping the record (R110) -/

theorem keepingOf_byPort {o : OfferInProgress} {s : State}
    (stands : (s.port o.sender.port).state ≠ .down ∨ ∃ l ∈ s.calls.losses, l.port = o.sender.port) :
    keepingOf o s = .byPort := by
  unfold keepingOf
  rcases stands with up | lost
  · exact if_pos up
  · split
    · rfl
    · exact if_pos (by simpa using lost)

theorem keepingOf_taken {o : OfferInProgress} {s : State} (down : (s.port o.sender.port).state = .down)
    (taken : ∀ l ∈ s.calls.losses, l.port ≠ o.sender.port) :
    keepingOf o s = o.loss.elim .notAtAll (fun q => q.elim .notAtAll fun q => if s.isUp q then .byPartner q else .notAtAll) := by
  unfold keepingOf
  rw [if_neg (by simp [down]), if_neg (by simpa using taken)]
  cases o.loss with
  | none => rfl
  | some q => cases q <;> rfl

/-- R110: an OFFER that nothing has happened to since its walk keeps its record as it is. -/
theorem keepRecord_begun {r : Sender} {z : State} (up : (z.port r.port).state ≠ .down) (c : Nat) (ds : List Nat)
    (cls : Arg CallClass) (call : CallRef) (record : Call) :
    keepRecord (offerBegun r c ds cls call record) z = z.setCall call.slot record := by
  have kept : keepingOf (offerBegun r c ds cls call record) z = .byPort := keepingOf_byPort (.inl up)
  unfold keepRecord
  rw [kept]
  rfl

theorem offer_whole_accepted {r : Sender} {c : Nat} {ds : List Nat} {cls : Arg CallClass} {s u z : State} {record : Call}
    {call : CallRef} {l : Leg} (takes : Takes (.offer ⟨r, .whole⟩ c ds cls) s u)
    (checked : checkOffer r.port c ds cls u = (.walked z record, call)) (up : (z.port r.port).state ≠ .down)
    (leg : record.leg = some l) :
    Answers (.offer ⟨r, .whole⟩ c ds cls) s .ok (.offered call l.circuit l.group) (z.setCall call.slot record) := by
  refine answers_of rfl (exec_offer_whole r c ds cls s) takes ?_
  have result : offeredResult (offerBegun r c ds cls call record) = .offered call l.circuit l.group := by
    have leg : (offerBegun r c ds cls call record).record.leg = some l := leg
    simp only [offeredResult, leg]
    rfl
  simp only [handleOffer, checked, acceptOffer, keepRecord_begun up, result]

theorem offer_walk_accepted {r : Sender} {c : Nat} {ds : List Nat} {cls : Arg CallClass} {s u z : State} {record : Call}
    {call : CallRef} (takes : Takes (.offer ⟨r, .walk⟩ c ds cls) s u)
    (checked : checkOffer r.port c ds cls u = (.walked z record, call)) :
    exec (.offer ⟨r, .walk⟩ c ds cls) s = .next (holdOffer (offerBegun r c ds cls call record) z) := by
  rw [exec_offer_walk takes, beginOffer, checked]

/-! ## The end of an OFFER in progress (R110, R118, R120) -/

theorem settleNoted_of_not {o : OfferInProgress} (h : o.noted = false) (s : State) : settleNoted o s = s :=
  if_neg (by simp [h])

theorem settleNoted_of_noted {o : OfferInProgress} {s : State} {x : Call} {p : Port} (h : o.noted = true)
    (used : s.call o.ref = some x) (owner : x.owner = some p) :
    settleNoted o s = notify p (.callCleared o.ref .drained .released) (endCall o.ref .drained s.now true s) := by
  simp only [settleNoted, h, used, owner, if_true]

theorem State.call_setCall {s : State} {r : CallRef} (same : (s.slot r.slot).generation = r.generation) (x : Call) :
    (s.setCall r.slot x).call r = some x := by
  rw [State.call_eq_some_iff, State.slot_setCall_same]
  exact ⟨same, rfl⟩

/-- R118: the record kept is that of the OFFER, without its leg when a glare yield has taken it. -/
theorem settleDisplaced_call {o : OfferInProgress} {s : State} (same : (s.slot o.ref.slot).generation = o.ref.generation) :
    ∃ x, (settleDisplaced o (s.setCall o.ref.slot o.record)).call o.ref = some x ∧ x.owner = o.record.owner := by
  have kept := State.call_setCall same o.record
  unfold settleDisplaced
  split
  · rw [displace_of_some kept]
    exact ⟨_, State.call_setCall_of_some kept _, rfl⟩
  · exact ⟨_, kept, rfl⟩

theorem settleDisplaced_calls (o : OfferInProgress) (s : State) :
    settleDisplaced o s = { s with calls := (settleDisplaced o s).calls } := by
  unfold settleDisplaced
  split
  · exact displace_calls o.ref s
  · rfl

/-- R110: what the end of an OFFER in progress leaves, by who its call goes to. -/
theorem keepRecord_spec {o : OfferInProgress} {s w : State} (same : (s.slot o.ref.slot).generation = o.ref.generation)
    (owner : o.record.owner = some o.sender.port) (settled : w = settleDisplaced o (s.setCall o.ref.slot o.record)) :
    ((s.port o.sender.port).state ≠ .down ∨ (∃ l ∈ s.calls.losses, l.port = o.sender.port) →
      (o.noted = false → keepRecord o s = w) ∧
      (o.noted = true →
        keepRecord o s =
          notify o.sender.port (.callCleared o.ref .drained .released) (endCall o.ref .drained s.now true w))) ∧
    ((s.port o.sender.port).state = .down → (∀ l ∈ s.calls.losses, l.port ≠ o.sender.port) →
      (∀ q x, o.loss = some (some q) → (s.port q).state = .up →
        x = notify q (.takeover o.sender.port 1) (w.changeCall o.ref.slot (fun y => { y with owner := some q })) →
        (o.noted = false → keepRecord o s = x) ∧
        (o.noted = true →
          keepRecord o s = notify q (.callCleared o.ref .drained .released) (endCall o.ref .drained s.now true x))) ∧
      ((∀ q, o.loss = some (some q) → (s.port q).state ≠ .up) → keepRecord o s = endCall o.ref .portLost s.now false w)) := by
  obtain ⟨y, used, mine⟩ := settleDisplaced_call (o := o) same
  rw [← settled] at used
  have now : w.now = s.now := by rw [settled, settleDisplaced_calls]; rfl
  refine ⟨fun stands => ?_, fun down taken => ⟨?_, fun alone => ?_⟩⟩
  · have kept : keepRecord o s = settleNoted o w := by
      simp only [keepRecord, keepingOf_byPort stands, settled]
    rw [kept]
    refine ⟨fun h => settleNoted_of_not h w, fun h => ?_⟩
    rw [settleNoted_of_noted h used (mine.trans owner), now]
  · rintro q x loss up rfl
    have kept : keepRecord o s = settleNoted o
        (notify q (.takeover o.sender.port 1) (w.changeCall o.ref.slot (fun y => { y with owner := some q }))) := by
      have keeping : keepingOf o s = .byPartner q := by
        rw [keepingOf_taken down taken, loss]
        exact if_pos (by simp [State.isUp, up])
      simp only [keepRecord, keeping, settled]
    have slot := ((w.call_eq_some_iff _ _).mp used).2
    have told := notify_told q (.takeover o.sender.port 1) (w.changeCall o.ref.slot (fun y => { y with owner := some q }))
    rw [kept]
    refine ⟨fun h => settleNoted_of_not h _, fun h => ?_⟩
    have still : (notify q (.takeover o.sender.port 1)
        (w.changeCall o.ref.slot (fun y => { y with owner := some q }))).call o.ref = some { y with owner := some q } := by
      rw [told.served.planted.routed.call, changeCall_eq slot]
      exact State.call_setCall_of_some used _
    have clock : (notify q (.takeover o.sender.port 1)
        (w.changeCall o.ref.slot (fun y => { y with owner := some q }))).now = s.now := by
      rw [told.served.planted.now, changeCall_eq slot]
      exact now
    rw [settleNoted_of_noted h still rfl, clock]
  · have keeping : keepingOf o s = .notAtAll := by
      rw [keepingOf_taken down taken]
      cases loss : o.loss with
      | none => rfl
      | some q =>
        cases q with
        | none => rfl
        | some q => exact if_neg (by simpa [State.isUp] using alone q loss)
    simp only [keepRecord, keeping, settled]

theorem exec_offer_keep (r : Sender) (c : Nat) (ds : List Nat) (cls : Arg CallClass) (s : State) :
    exec (.offer ⟨r, .keep⟩ c ds cls) s =
      .next ((s.calls.offers.find? (OfferInProgress.is r c ds cls)).elim s (fun o => finishOffer o s)) := by
  show execOffer ⟨r, .keep⟩ c ds cls s = _
  simp only [execOffer]
  cases s.calls.offers.find? (OfferInProgress.is r c ds cls) <;> rfl

theorem finishOffer_eq (o : OfferInProgress) (s : State) (v : State) (res : Result)
    (kept : v = keepRecord o { s with calls := { s.calls with offers := s.calls.offers.erase o } })
    (result : res = offeredResult o) :
    finishOffer o s =
      if o.discarded = true then v
      else
        (compose o.sender.port ⟨96, o.sender.tag, .ok, res⟩ v).setPort o.sender.port
          { (compose o.sender.port ⟨96, o.sender.tag, .ok, res⟩ v).port o.sender.port with inProgress := none } := by
  subst kept result
  rfl

theorem offer_keep_spec (r : Sender) (c : Nat) (ds : List Nat) (cls : Arg CallClass) (s : State) (sound : CallsSound s) :
    ((∀ o ∈ s.calls.offers, ¬(o.sender = r ∧ o.circuit = c ∧ o.digits = ds ∧ o.cls = cls)) →
      exec (.offer ⟨r, .keep⟩ c ds cls) s = .next s) ∧
    ∀ o, s.calls.offers.find? (OfferInProgress.is r c ds cls) = some o →
      o.sender = r ∧ o.record.owner = some o.sender.port ∧ (s.slot o.ref.slot).generation = o.ref.generation ∧
        exec (.offer ⟨r, .keep⟩ c ds cls) s = .next (finishOffer o s) := by
  obtain ⟨-, -, -, -, -, -, -, offers⟩ := sound
  refine ⟨fun others => ?_, fun o found => ?_⟩
  · have none : s.calls.offers.find? (OfferInProgress.is r c ds cls) = none :=
      List.find?_eq_none.mpr fun o listed is => others o listed (of_decide_eq_true is)
    rw [exec_offer_keep, none]
    rfl
  · obtain ⟨is, -⟩ := List.find?_eq_some_iff_append.mp found
    obtain ⟨-, -, generation, owner, -⟩ := offers o (List.mem_of_find?_eq_some found)
    refine ⟨(of_decide_eq_true is).1, owner, generation, ?_⟩
    rw [exec_offer_keep, found]
    rfl

/-! ## The two parts of O31 -/

/-- R16, R118: what an OFFER leaves once its inbound circuit is seized, a displaced call marked included, differs in the
plant store, the controller and the call table alone. -/
def SeizedFrom (u w : State) : Prop :=
  w.analyser = u.analyser ∧ w.routes = u.routes ∧ w.settlement = u.settlement ∧ w.tariff = u.tariff ∧ SamePorts u w

theorem occupyIn_seizedFrom (c : Nat) (call : CallRef) (u : State) : SeizedFrom u (occupyIn c call u) := by
  obtain ⟨ports, analyser, routes, -, tariff, settlement, -⟩ := (occupyIn_planted c call u).sameElsewhere
  exact ⟨analyser, routes, settlement, tariff, ports⟩

theorem displace_seizedFrom {u w : State} (h : SeizedFrom u w) (d : CallRef) : SeizedFrom u (displace d w) := by
  rw [displace_calls]
  exact h

/-- R108 step 5: an OFFER whose checks pass goes on with the seizure that the decision of its circuit makes. -/
theorem checkOffer_seizes {p : Port} {c k : Nat} {ds : List Nat} {cls : CallClass} {u w : State} {e : Equipped} {g : Group}
    {f : Former} {call : CallRef} (digits : 1 ≤ ds.length ∧ ds.length ≤ 24 ∧ ∀ x ∈ ds, x ≤ 9) (range : ¬16383 < c)
    (slot : lowestFreeSlot u = some k) (ref : call = ⟨k, (u.slot k).generation⟩) (here : u.circuit c = some e)
    (defined : u.group e.group = some g) (inbound : g.direction ≠ .outOnly)
    (takes : (u.svc e.group).service = .inService ∨ (u.svc e.group).service = .drainSuspended) (noLocal : e.localFlag = false)
    (noRemote : e.remoteFlag = false)
    (how : e.occupancy = .idle ∧ f = .wasIdle ∧ w = occupyIn c call u ∨
      (∃ x, e.occupancy = .guard x ∧ f = .wasGuard x ∧ w = occupyIn c call u) ∨
      ∃ d, e.occupancy = .busyOut d ∧ f = .yielded ∧ w = displace d (occupyIn c call u) ∧
        (∀ x, u.call d = some x → x.state ≠ .proceeding ∧ x.state ≠ .answered) ∧
        (g.glare = .yieldAll ∨ (g.glare = .winEven ∧ c % 2 = 1) ∨ (g.glare = .winOdd ∧ c % 2 = 0))) :
    SeizedFrom u w ∧
      checkOffer p c ds (.given cls) u = (routeOffer p c call f ds cls e.group g.carrier w, call) := by
  subst ref
  have form : offerForm c ds (.given cls) = .ok cls := offerForm_of digits rfl range
  rw [checkOffer_of_form form slot]
  have clear : ¬(e.localFlag || e.remoteFlag) = true := by simp [noLocal, noRemote]
  have open_ : e.blocked = false := Bool.not_eq_true _ ▸ clear
  have serves : ¬(u.svc e.group).service.takesTraffic = false := by
    rw [Bool.not_eq_false]
    exact (ServiceState.takesTraffic_iff _).mpr takes
  have decided : decideInbound u c = decideCircuit u c e g.glare := by
    rw [decideInbound_of here defined, if_neg inbound, if_neg serves]
  rcases how with ⟨used, rfl, rfl⟩ | ⟨x, used, rfl, rfl⟩ | ⟨d, used, rfl, rfl, loose, yields⟩
  · refine ⟨occupyIn_seizedFrom _ _ _, congrArg (·, _) (seizeOffer_accepted here defined _ _ _ _ (decided.trans ?_))⟩
    simp only [decideCircuit, open_, used, Bool.false_eq_true, if_false]
  · refine ⟨occupyIn_seizedFrom _ _ _, congrArg (·, _) (seizeOffer_accepted here defined _ _ _ _ (decided.trans ?_))⟩
    simp only [decideCircuit, open_, used, Bool.false_eq_true, if_false]
  · refine ⟨displace_seizedFrom (occupyIn_seizedFrom _ _ _) d,
      congrArg (·, _) (seizeOffer_yields here defined _ _ _ _ (decided.trans ?_))⟩
    rw [decideCircuit_of_busyOut used clear, if_neg, if_neg (GlareRule.not_wins_of_yields yields)]
    rw [ownerHoldsFirmly_iff]
    rintro ⟨x, owner, firm⟩
    exact firm.elim (loose x owner).1 (loose x owner).2

/-- Settles O31. -/
theorem offerRoutes : Obligations.OfferRoutes := by
  refine ⟨?_, fun r c ds cls s sound => ?_⟩
  · intro r c k ds cls part s u w e g f call sound notEnd takes one many digit range free open_ below ref here defined inbound
      serves noLocal noRemote how
    have soundU : PlantSound u := sound.of_plant (takes_plant takes)
    have inTable : ¬16383 < c := Nat.not_lt.mpr (Nat.le_of_lt_succ (soundU.2.1 c e here).1)
    obtain ⟨⟨analyser, routes, settlement, tariff, ports⟩, checked⟩ := checkOffer_seizes (p := r.port) ⟨one, many, digit⟩
      inTable (lowestFreeSlot_eq_some range free open_ below) ref here defined inbound serves noLocal noRemote how
    have now : w.now = u.now := by simp only [State.now, tariff]
    have refused := fun {v st} (h : routeOffer r.port c call f ds cls e.group g.carrier w = .refused (refuse st v)) =>
      offer_refused (v := v) (st := st) notEnd takes (by rw [checked]; exact h)
    refine ⟨fun st none => refused (routeOffer_of_error _ _ _ _ _ _ _ ((findTarget_congr analyser ds).trans none)),
      fun t w1 z found after walked => ?_⟩
    have found : findTarget w ds = .ok t := (findTarget_congr analyser ds).trans found
    have frame := afterGapCheck_analyser t.destination cls w
    rw [← after] at frame
    have carrier : w1.carrier g.carrier = u.carrier g.carrier := by
      rw [frame]
      simp only [State.carrier, settlement]
    have plan : w1.plan t.plan = u.plan t.plan := by
      rw [frame]
      simp only [State.plan, routes]
    have heldSame : heldBack w1 cls g.carrier = true ↔ cls = .normal ∧ (u.carrier g.carrier).hold = true := by
      rw [heldBack_iff, carrier]
    rw [← gapAdmits_congr analyser now]
    refine ⟨fun gapped => ?_, fun admitted normal held => ?_, fun admitted unheld => ?_⟩
    · rw [after]
      exact refused (routeOffer_of_gapped _ _ _ _ _ _ _ found gapped)
    · rw [after] at heldSame ⊢
      exact refused (routeOffer_of_held _ _ _ _ _ _ _ found admitted (heldSame.mpr ⟨normal, held⟩))
    · have notHeld : heldBack w1 cls g.carrier = false := by
        rw [← Bool.not_eq_true, heldSame]
        rintro ⟨normal, held⟩
        rw [unheld normal] at held
        cases held
      rw [after] at notHeld
      have walks := routeOffer_walks r.port c call f cls e.group g.carrier found admitted notHeld
      rw [← after] at walks
      have walked : walk (offerCall call cls e.group t) (w1.plan t.plan) w1 = z := by rw [plan, walked]; rfl
      refine ⟨fun noLeg => refused ?_, fun n record leg record_eq => ?_⟩
      · rw [walks, walkOffer_of_none _ _ _ _ _ _ _ (by rw [walked]; exact noLeg), walked, plan]
      · have record_eq : newCall r.port c e.group g.carrier t cls z n = record := by
          rw [record_eq, newCall, NewLeg.toLeg_eq]
        have checked : checkOffer r.port c ds (.given cls) u = (.walked z.state record, call) := by
          rw [checked, walks, walkOffer_of_some _ _ _ _ _ _ _ (by rw [walked]; exact leg), walked, record_eq]
        have slot : call.slot = k := by rw [ref]
        have legs : record.leg = some n.toLeg := by rw [← record_eq]; rfl
        refine ⟨?_, ?_⟩
        · rintro rfl
          have up : (z.state.port r.port).state ≠ .down := by
            have told : SamePorts u z.state := fun p => by
              have routed := (walk_routed (offerCall call cls e.group t) (w1.plan t.plan) w1).2.1 p
              rw [walked, frame] at routed
              exact (ports p).trans routed
            obtain ⟨same, -⟩ := told r.port
            have taken : taken (.offer ⟨r, .whole⟩ c ds (.given cls)) r RequestKind.offer.code s = some u := takes
            obtain ⟨code, -⟩ := ready_cases (taken_cases taken).1
            rw [same, (taken_blocks taken).2.1]
            intro down
            rw [down] at code
            exact absurd code (by decide)
          rw [← slot]
          exact offer_whole_accepted takes checked up legs
        · rintro rfl
          refine ⟨_, offer_walk_accepted takes checked, rfl, fun p => ?_⟩
          refine (State.port_setPort _ _ _ _).trans ?_
          by_cases mine : p = r.port
          · subst mine
            exact (if_pos rfl).trans (if_pos rfl).symm
          · exact (if_neg mine).trans (if_neg mine).symm
  · obtain ⟨without, found⟩ := offer_keep_spec r c ds cls s sound
    refine ⟨without, fun o w res listed settled result => ?_⟩
    obtain ⟨rfl, owner, generation, ends⟩ := found o listed
    refine ⟨keepRecord o { s with calls := { s.calls with offers := s.calls.offers.erase o } }, ?_,
      keepRecord_spec (s := { s with calls := { s.calls with offers := s.calls.offers.erase o } }) generation owner settled⟩
    rw [ends, finishOffer_eq o s _ res rfl]
    rw [result]
    unfold offeredResult
    cases o.record.leg <;> rfl

end Sys2Proof.Machine
end

section
/-! The end of a call (R116): what it does to slot, lists, legs, price and reference count; and the proof of O35. -/

namespace Sys2Proof.Machine

/-! ## Pricing and lowering (R116 steps 1 and 2, R135) -/

theorem activate_now (held : Bool) (s : State) : (activate held s).now = s.now := by
  cases staged : s.tariff.staging.generation with
  | none => simp only [activate, staged]
  | some g =>
    rw [activate_of_some staged, (notifyAllUp_told _ _).served.planted.now]
    rfl

theorem activate_settlement (held : Bool) (s : State) : (activate held s).settlement = s.settlement := by
  cases staged : s.tariff.staging.generation with
  | none => simp only [activate, staged]
  | some g =>
    rw [activate_of_some staged, (notifyAllUp_told _ _).settlement]
    rfl

theorem lower_now (n : Nat) (s : State) : (lower n s).now = s.now := by
  simp only [lower]
  split
  · rfl
  · split
    · rfl
    · split
      · split
        · rw [activate_now]
          rfl
        · rfl
      · rfl

theorem lower_settlement (n : Nat) (s : State) : (lower n s).settlement = s.settlement := by
  simp only [lower]
  split
  · rfl
  · split
    · rfl
    · split
      · split
        · rw [activate_settlement]
        · rfl
      · rfl

theorem lower_live {n : Nat} {s : State} (live : s.tariff.live.number = n) :
    lower n s =
      { s with tariff := { s.tariff with live := { s.tariff.live with references := s.tariff.live.references - 1 } } } :=
  if_pos live

theorem lower_retired {n : Nat} {s : State} {b : BankRecord} (other : s.tariff.live.number ≠ n)
    (retired : s.tariff.retired = some b) (number : b.number = n)
    (stays : b.references - 1 ≠ 0 ∨ s.tariff.staging.state ≠ .held) :
    lower n s = { s with tariff := { s.tariff with retired := some { b with references := b.references - 1 } } } := by
  simp only [lower, if_neg other, retired, if_pos number]
  exact if_neg fun h => stays.elim (absurd h.1) (absurd h.2)

theorem priceRelease_now (r : PricedRelease) (s : State) : (priceRelease r s).now = s.now := by
  simp only [priceRelease]
  split
  · rfl
  · split <;> rfl

theorem priceRelease_tariff (r : PricedRelease) (s : State) : (priceRelease r s).tariff = s.tariff := by
  simp only [priceRelease]
  split
  · rfl
  · split <;> rfl

/-- R162, R163: a release is priced under its generation and handed on, unless both its carriers are 0. -/
theorem priceRelease_eq {r : PricedRelease} {s : State} {t : Tariffs} (bound : tariffsOf s r.generation = some t) :
    priceRelease r s =
      { s with
        settlement :=
          { s.settlement with
            handed := s.settlement.handed ++ (if r.inCarrier = 0 ∧ r.outCarrier = 0 then [] else [price t r]) } } := by
  simp only [priceRelease, bound]
  by_cases free : r.inCarrier = 0 ∧ r.outCarrier = 0
  · rw [if_pos free, if_pos free, List.append_nil]
  · rw [if_neg free, if_neg free]

section
variable (r : CallRef) (c : Call) (cause : Cause) (time : Nat) (forced : Bool) (s : State)

theorem priceAndLower_of_answered {a : AnswerFacts} {l : Leg} (state : c.state = .answered) (facts : c.answer = some a)
    (leg : c.leg = some l) :
    priceAndLower r c cause time forced s =
      lower a.generation (priceRelease (pricedRelease r c a l cause time forced) s) := by
  simp only [priceAndLower, state, facts, leg]

theorem priceAndLower_of_not_answered (state : c.state ≠ .answered) : priceAndLower r c cause time forced s = s := by
  unfold priceAndLower
  split
  · next answered _ _ => exact absurd answered state
  · rfl

theorem priceAndLower_now : (priceAndLower r c cause time forced s).now = s.now := by
  simp only [priceAndLower]
  split
  · rw [lower_now, priceRelease_now]
  · rfl

/-! ## The release of the legs (R116 step 3, R20) -/

theorem releaseLeg_circuit (k : Nat) (fault : Bool) (i : Nat) :
    (releaseLeg k r fault s).circuit i =
      if i = k then (s.circuit i).map (fun e => if heldBy e r = true then releasedRecord s fault e else e)
      else s.circuit i := by
  cases here : s.circuit k with
  | none =>
    have same : releaseLeg k r fault s = s := by simp only [releaseLeg, here]
    rw [same]
    split
    · next at_k => rw [at_k, here]; rfl
    · rfl
  | some e =>
    cases held : heldBy e r with
    | false =>
      rw [releaseLeg_of_not_held here held]
      split
      · next at_k => rw [at_k, here, Option.map_some, if_neg (by simp [held])]
      · rfl
    | true =>
      rw [releaseLeg_of_held here held, report_circuit, changeCircuit_circuit, here]
      split
      · next at_k => rw [at_k, here, Option.map_some, Option.map_some, if_pos held]
      · rfl

end

theorem Group.move_guardTime (c : Nat) (old new : Condition) (g : Group) : (g.move c old new).guardTime = g.guardTime := by
  unfold Group.move
  split
  · rfl
  · cases old <;> cases new <;> rfl

theorem guardTimeOf_elim (s : State) (e : Equipped) : guardTimeOf s e = (s.group e.group).elim 0 Group.guardTime := by
  unfold guardTimeOf
  cases s.group e.group <;> rfl

theorem releaseLeg_guardTimeOf (k : Nat) (r : CallRef) (fault : Bool) (s : State) (e : Equipped) :
    guardTimeOf (releaseLeg k r fault s) e = guardTimeOf s e := by
  cases here : s.circuit k with
  | none =>
    have same : releaseLeg k r fault s = s := by simp only [releaseLeg, here]
    rw [same]
  | some f =>
    cases held : heldBy f r with
    | false => rw [releaseLeg_of_not_held here held]
    | true =>
      rw [releaseLeg_of_held here held, guardTimeOf_elim, guardTimeOf_elim, report_group, changeCircuit_group _ here]
      split
      · cases s.group e.group with
        | none => rfl
        | some g => exact Group.move_guardTime _ _ _ g
      · rfl

theorem releaseLeg_now (k : Nat) (r : CallRef) (fault : Bool) (s : State) : (releaseLeg k r fault s).now = s.now :=
  (releaseLeg_planted k r fault s).now

theorem releasedRecord_congr {s t : State} {e : Equipped} (now : t.now = s.now) (time : guardTimeOf t e = guardTimeOf s e)
    (fault : Bool) : releasedRecord t fault e = releasedRecord s fault e := by
  simp only [releasedRecord, guardOrIdle, now, time]

/-- R20: a released circuit is held by no call. -/
theorem releasedRecord_free (s : State) (fault : Bool) (e : Equipped) (r : CallRef) :
    heldBy (releasedRecord s fault e) r = false := by
  simp only [heldBy, releasedRecord, guardOrIdle]
  repeat' split
  all_goals rfl

theorem releaseLegs_planted (r : CallRef) (c : Call) (s : State) : Planted s (releaseLegs r c s) := by
  simp only [releaseLegs]
  split
  · exact (releaseLeg_planted _ _ _ s).trans (releaseLeg_planted _ _ _ _)
  · exact releaseLeg_planted _ _ _ s

/-- R116 step 3: the circuits that a record names as its legs. -/
def Call.NamesLeg (c : Call) (i : Nat) : Prop := i = c.inCircuit ∨ ∃ l, c.leg = some l ∧ i = l.circuit

theorem releaseLegs_circuit (r : CallRef) (c : Call) (s : State) (i : Nat) [Decidable (c.NamesLeg i)] :
    (releaseLegs r c s).circuit i =
      if c.NamesLeg i then (s.circuit i).map (fun e => if heldBy e r = true then releasedRecord s false e else e)
      else s.circuit i := by
  cases leg : c.leg with
  | none =>
    have names : c.NamesLeg i ↔ i = c.inCircuit := by simp [Call.NamesLeg, leg]
    have one : releaseLegs r c s = releaseLeg c.inCircuit r false s := by simp only [releaseLegs, leg]
    rw [one, releaseLeg_circuit]
    simp only [names]
  | some l =>
    have names : c.NamesLeg i ↔ i = c.inCircuit ∨ i = l.circuit := by simp [Call.NamesLeg, leg]
    have two : releaseLegs r c s = releaseLeg l.circuit r false (releaseLeg c.inCircuit r false s) := by
      simp only [releaseLegs, leg]
    have same : ∀ e, releasedRecord (releaseLeg c.inCircuit r false s) false e = releasedRecord s false e := fun e =>
      releasedRecord_congr (releaseLeg_now _ _ _ _) (releaseLeg_guardTimeOf _ _ _ _ e) false
    rw [two, releaseLeg_circuit, releaseLeg_circuit]
    simp only [same, names]
    by_cases inbound : i = c.inCircuit
    · simp only [inbound, true_or, if_true, Option.map_map]
      split
      · congr 1
        funext e
        cases held : heldBy e r with
        | false => simp [held]
        | true => simp [held, releasedRecord_free]
      · rfl
    · simp only [inbound, false_or, if_false]

theorem releaseLegs_plantKept (r : CallRef) (c : Call) (s : State) : PlantKept s (releaseLegs r c s) := by
  simp only [releaseLegs]
  split
  · exact (releaseLeg_plantKept _ _ _ s).trans (releaseLeg_plantKept _ _ _ _)
  · exact releaseLeg_plantKept _ _ _ s

/-! ## The end of a call (R116 step 4) -/

/-- R116 step 4, R118: the call table without an ended call: its slot FREE under the next generation, off the orphan list,
and its reselection off the queue. -/
def CallTable.ended (r : CallRef) (t : CallTable) : CallTable :=
  { t with
    slots := t.slots.set r.slot ⟨nextGeneration r.generation, none⟩
    orphans := t.orphans.filter (fun i => decide (i ≠ r.slot))
    reselections := t.reselections.filter (fun x => decide (x ≠ r)) }

section
variable {s : State} {r : CallRef} {c : Call} (used : s.call r = some c) (cause : Cause) (time : Nat) (forced : Bool)
include used

theorem endCall_eq :
    endCall r cause time forced s =
      { releaseLegs r c (priceAndLower r c cause time forced s) with calls := s.calls.ended r } := by
  obtain ⟨generation, -⟩ := (s.call_eq_some_iff r c).mp used
  have calls : (releaseLegs r c (priceAndLower r c cause time forced s)).calls = s.calls :=
    (releaseLegs_planted _ _ _).calls.trans (priceAndLower_billed _ _ _ _ _ s).calls
  have slot : ∀ k, (leaveOrphans r.slot (releaseLegs r c (priceAndLower r c cause time forced s))).slot k = s.slot k :=
    fun k => by simp only [State.slot, leaveOrphans, calls]
  have ref : (leaveOrphans r.slot (releaseLegs r c (priceAndLower r c cause time forced s))).refOf r.slot = r :=
    State.refOf_eq (by rw [slot]; exact generation)
  simp only [endCall, used]
  rw [freeSlot, ref, slot, generation]
  simp only [State.setSlot, leaveOrphans, calls, CallTable.ended]

theorem endCall_calls : (endCall r cause time forced s).calls = s.calls.ended r := by rw [endCall_eq used]

theorem endCall_slot (j : Nat) :
    (endCall r cause time forced s).slot j = if j = r.slot then ⟨nextGeneration r.generation, none⟩ else s.slot j := by
  simp only [State.slot, endCall_calls used, CallTable.ended, Table.get_set]

/-- R116: the release of its legs reads the groups and the clock as the pricing found them. -/
theorem endCall_circuit (i : Nat) [Decidable (c.NamesLeg i)] :
    (endCall r cause time forced s).circuit i =
      if c.NamesLeg i then (s.circuit i).map (fun e => if heldBy e r = true then releasedRecord s false e else e)
      else s.circuit i := by
  have plant := (priceAndLower_billed r c cause time forced s).plant
  have circuit : ∀ k, (priceAndLower r c cause time forced s).circuit k = s.circuit k := fun k => by
    simp only [State.circuit, plant]
  have same : ∀ e, releasedRecord (priceAndLower r c cause time forced s) false e = releasedRecord s false e := fun e =>
    releasedRecord_congr (priceAndLower_now _ _ _ _ _ _) (by simp only [guardTimeOf, State.group, plant]) false
  rw [endCall_eq used]
  refine (releaseLegs_circuit r c (priceAndLower r c cause time forced s) i).trans ?_
  simp only [circuit, same]

theorem endCall_now : (endCall r cause time forced s).now = s.now := by
  rw [endCall_eq used]
  exact (releaseLegs_planted _ _ _).now.trans (priceAndLower_now _ _ _ _ _ _)

/-- R116: what the end of a call bills, and what it leaves unchanged. -/
theorem endCall_blocks :
    (endCall r cause time forced s).analyser = s.analyser ∧ (endCall r cause time forced s).routes = s.routes ∧
      (endCall r cause time forced s).settlement = (priceAndLower r c cause time forced s).settlement ∧
      (endCall r cause time forced s).tariff = (priceAndLower r c cause time forced s).tariff ∧
      (endCall r cause time forced s).memory = (priceAndLower r c cause time forced s).memory := by
  have billed := priceAndLower_billed r c cause time forced s
  obtain ⟨-, analyser, routes, memory, tariff, settlement, -⟩ :=
    (releaseLegs_planted r c (priceAndLower r c cause time forced s)).sameElsewhere
  rw [endCall_eq used]
  exact ⟨analyser.trans billed.analyser, routes.trans billed.routes, settlement, tariff, memory⟩

end

/-! ## RELEASE (R115) -/

theorem exec_release (r : Sender) (call : CallRef) (cause : Arg Cause) (s : State) :
    exec (.release r call cause) s =
      request (.release r call cause) r RequestKind.release.code (handleRelease r.port call cause) s := rfl

theorem handleRelease_refuses {p : Port} {call : CallRef} {cause : Arg Cause} {u : State} {st : Status}
    (h : FirstOf
      [(8191 < call.slot, .outOfRange), (u.call call = none, .noCall),
        (∀ k, cause = .given k → k ≠ .normal ∧ k ≠ .farRefused ∧ k ≠ .farCongested ∧ k ≠ .circuitFault, .badRequest),
        (∃ c q, u.call call = some c ∧ c.owner = some q ∧ q ≠ p, .notOwner)] st) :
    handleRelease p call cause u = refuse st u := by
  rcases h with ⟨range, rfl⟩ | ⟨range, ⟨free, rfl⟩ | ⟨used, h⟩⟩
  · simp only [handleRelease, findCall_outOfRange range]
  · simp only [handleRelease, findCall_of_none (Nat.not_lt.mp range) free]
  · obtain ⟨c, used⟩ := Option.ne_none_iff_exists'.mp used
    simp only [handleRelease, findCall_of_some (Nat.not_lt.mp range) used]
    rcases h with ⟨bad, rfl⟩ | ⟨good, h⟩
    · simp only [(callCause_eq_none_iff cause).mpr bad]
    · obtain ⟨k, good⟩ := Option.ne_none_iff_exists'.mp (mt (callCause_eq_none_iff cause).mp good)
      obtain ⟨⟨x, q, same, owner, other⟩, rfl⟩ := h.resolve_right fun noCheck => noCheck.2
      obtain rfl : c = x := Option.some.inj (used.symm.trans same)
      have notMine : ¬(c.owner = some p ∨ c.owner = none) := by simp [owner, other]
      simp only [good, if_neg notMine]

theorem handleRelease_ends {p : Port} {call : CallRef} {cause : Arg Cause} {u : State} {c : Call} {k : Cause}
    (range : call.slot ≤ 8191) (used : u.call call = some c) (good : callCause cause = some k)
    (mine : c.owner = some p ∨ c.owner = none) :
    handleRelease p call cause u =
      ⟨endCall call k u.now false u, .ok, .released c.state (if c.state = .answered then some u.now else none)⟩ := by
  simp only [handleRelease, findCall_of_some range used, good, if_pos mine, releaseTime]

/-- R116, R135: what the end of an ANSWERED call does to the settlement unit's queue and to the bank it is bound to. -/
theorem priceAndLower_spec {s : State} {c : Call} {a : AnswerFacts} {l : Leg} {t : Tariffs} (state : c.state = .answered)
    (facts : c.answer = some a) (leg : c.leg = some l) (bound : tariffsOf s a.generation = some t) (r : CallRef)
    (cause : Cause) (time : Nat) (forced : Bool) {p : State} (done : p = priceAndLower r c cause time forced s) :
    p.settlement =
        { s.settlement with
          handed :=
            s.settlement.handed ++
              (if c.inCarrier = 0 ∧ l.carrier = 0 then [] else [price t (pricedRelease r c a l cause time forced)]) } ∧
      (s.tariff.live.number = a.generation →
        p.tariff = { s.tariff with live := { s.tariff.live with references := s.tariff.live.references - 1 } } ∧
          p.memory = s.memory) ∧
      ∀ b, s.tariff.live.number ≠ a.generation → s.tariff.retired = some b → b.number = a.generation →
        (b.references - 1 ≠ 0 ∨ s.tariff.staging.state ≠ .held) →
        p.tariff = { s.tariff with retired := some { b with references := b.references - 1 } } ∧ p.memory = s.memory := by
  have bound : tariffsOf s (pricedRelease r c a l cause time forced).generation = some t := bound
  rw [done, priceAndLower_of_answered r c cause time forced s state facts leg, priceRelease_eq bound]
  refine ⟨lower_settlement _ _, fun live => ?_, fun b other retired number stays => ?_⟩
  · rw [lower_live]
    exacts [⟨rfl, rfl⟩, live]
  · rw [lower_retired]
    exacts [⟨rfl, rfl⟩, other, retired, number, stays]

/-- Settles O35. -/
theorem releaseEndsCall : Obligations.ReleaseEndsCall := by
  refine ⟨fun r call cause s u takes => ⟨fun st h => ?_, ?_⟩, ?_⟩
  · exact answers_of rfl (exec_release r call cause s) takes (handleRelease_refuses h)
  · intro c k range used given known mine
    have good := (callCause_eq_some_iff cause k).mpr ⟨given, known⟩
    exact answers_of rfl (exec_release r call cause s) takes (handleRelease_ends range used good mine)
  · rintro s v call c k time forced sound used rfl
    classical
    have circuit := endCall_circuit used k time forced
    obtain ⟨analyser, routes, settlement, tariff, memory⟩ := endCall_blocks used k time forced
    refine ⟨?_, fun j other => ?_, ?_, fun i e g here defined names held => ?_, fun i inbound outbound => ?_,
      endCall_plantKept call k time forced s sound, analyser, routes, fun state => ?_, fun a l t state facts leg bound => ?_⟩
    · rw [endCall_slot used, if_pos rfl]
      rfl
    · rw [endCall_slot used, if_neg other]
    · rw [endCall_calls used, CallTable.ended]
    · rw [circuit, if_pos (show c.NamesLeg i from names), here, Option.map_some, if_pos ((heldBy_iff e call).mpr held), releasedRecord_eq defined,
        Bool.or_false]
    · rw [circuit, if_neg]
      rintro (same | ⟨l, leg, same⟩)
      · exact inbound same
      · exact outbound l leg same
    · rw [settlement, tariff, memory, priceAndLower_of_not_answered _ _ _ _ _ _ state]
      exact ⟨rfl, rfl, rfl⟩
    · obtain ⟨priced, live, retired⟩ := priceAndLower_spec state facts leg bound call k time forced rfl
      rw [settlement, tariff, memory]
      refine ⟨priced, live, fun b other is number stays bound => retired b other is number ?_⟩
      exact stays.imp_left fun many => by omega

end Sys2Proof.Machine
end

section
/-! Folds over the slots of the call table, the order of the orphan list, and the proof of O36 (R122 to R125). -/

namespace Sys2Proof.Machine

/-! ## Slots in use (R103) -/

theorem mem_slotsInUse {s : State} (canonical : s.calls.slots.wf = true) (k : Nat) :
    k ∈ s.slotsInUse ↔ (s.slot k).call.isSome = true := by
  simp only [State.slotsInUse, List.mem_filter, Table.keys, List.mem_map, and_iff_right_iff_imp]
  intro used
  refine ⟨(k, s.slot k), (Table.mem_iff _ _ _ canonical).mpr ⟨rfl, fun free => ?_⟩, rfl⟩
  rw [free] at used
  cases used

theorem slotsInUse_rising {s : State} (canonical : s.calls.slots.wf = true) : s.slotsInUse.Pairwise (· < ·) := by
  have keys := ((Table.wf_iff _).mp canonical).1
  exact (List.pairwise_map.mpr keys).filter _

/-! ## Folds that act on one slot each -/

/-- The operation on a slot keeps the other slots, the clock, and everything of the call table but its slots, its orphans and
its reselections. -/
structure OnSlot (f : State → Nat → State) : Prop where
  other : ∀ s k j, j ≠ k → (f s k).slot j = s.slot j
  now : ∀ s k, (f s k).now = s.now
  calls : ∀ s k, (f s k).calls =
    { s.calls with
      slots := (f s k).calls.slots
      orphans := (f s k).calls.orphans
      reselections := (f s k).calls.reselections }

/-- What an operation on a slot reads of the state is as it was in another one. -/
structure SlotAsIn (s y : State) (k : Nat) : Prop where
  slot : y.slot k = s.slot k
  now : y.now = s.now
  limit : y.calls.orphanLimit = s.calls.orphanLimit

section
variable {f : State → Nat → State} (h : OnSlot f)
include h

theorem OnSlot.limit (s : State) (k : Nat) : (f s k).calls.orphanLimit = s.calls.orphanLimit := by rw [h.calls]

theorem OnSlot.later {s y : State} {i k : Nat} (other : k ≠ i) (same : SlotAsIn (f s i) y k) : SlotAsIn s y k where
  slot := same.slot.trans (h.other s i k other)
  now := same.now.trans (h.now s i)
  limit := same.limit.trans (h.limit s i)

theorem OnSlot.foldl_now (ks : List Nat) (s : State) : (ks.foldl f s).now = s.now := by
  induction ks generalizing s with
  | nil => rfl
  | cons k ks ih => exact (ih (f s k)).trans (h.now s k)

theorem OnSlot.foldl_calls (ks : List Nat) (s : State) :
    (ks.foldl f s).calls =
      { s.calls with
        slots := (ks.foldl f s).calls.slots
        orphans := (ks.foldl f s).calls.orphans
        reselections := (ks.foldl f s).calls.reselections } := by
  induction ks generalizing s with
  | nil => rfl
  | cons k ks ih =>
    rw [List.foldl_cons]
    conv => lhs; rw [ih (f s k)]
    rw [h.calls s k]

theorem OnSlot.foldl_other {ks : List Nat} {j : Nat} (apart : j ∉ ks) (s : State) : (ks.foldl f s).slot j = s.slot j := by
  induction ks generalizing s with
  | nil => rfl
  | cons k ks ih =>
    obtain ⟨ne, rest⟩ := List.ne_and_not_mem_of_not_mem_cons apart
    exact (ih rest (f s k)).trans (h.other s k j ne)

/-- Each slot of a list without repetition is acted on as it stood at the start. -/
theorem OnSlot.foldl_mem {ks : List Nat} (once : ks.Nodup) {k : Nat} (listed : k ∈ ks) {s : State} {v : Slot}
    (acts : ∀ y, SlotAsIn s y k → (f y k).slot k = v) : (ks.foldl f s).slot k = v := by
  induction ks generalizing s with
  | nil => cases listed
  | cons i ks ih =>
    obtain ⟨apart, rest⟩ := List.nodup_cons.mp once
    rw [List.foldl_cons]
    by_cases here : k = i
    · subst here
      rw [h.foldl_other apart]
      exact acts s ⟨rfl, rfl, rfl⟩
    · exact ih rest ((List.mem_cons.mp listed).resolve_left here) fun y same => acts y (h.later here same)

/-- Two operations that act the same on each slot as it stood at the start leave the same state. -/
theorem OnSlot.foldl_congr {g : State → Nat → State} {ks : List Nat} (once : ks.Nodup) (s : State)
    (same : ∀ y, ∀ k ∈ ks, SlotAsIn s y k → f y k = g y k) : ks.foldl f s = ks.foldl g s := by
  induction ks generalizing s with
  | nil => rfl
  | cons i ks ih =>
    obtain ⟨apart, rest⟩ := List.nodup_cons.mp once
    rw [List.foldl_cons, List.foldl_cons, ← same s i List.mem_cons_self ⟨rfl, rfl, rfl⟩]
    exact ih rest (f s i) fun y k listed as =>
      same y k (List.mem_cons_of_mem i listed) (h.later (ne_of_mem_of_not_mem listed apart) as)

/-- Slots on which the operation does nothing can be left out. -/
theorem OnSlot.foldl_filter {ks : List Nat} (once : ks.Nodup) (p : Nat → Bool) (s : State)
    (idle : ∀ y, ∀ k ∈ ks, p k = false → SlotAsIn s y k → f y k = y) : ks.foldl f s = (ks.filter p).foldl f s := by
  induction ks generalizing s with
  | nil => rfl
  | cons i ks ih =>
    obtain ⟨apart, rest⟩ := List.nodup_cons.mp once
    have tail := ih rest (f s i) fun y k listed off as =>
      idle y k (List.mem_cons_of_mem i listed) off (h.later (ne_of_mem_of_not_mem listed apart) as)
    cases here : p i with
    | true => rw [List.filter_cons_of_pos here, List.foldl_cons, List.foldl_cons, tail]
    | false =>
      rw [List.filter_cons_of_neg (by simp [here]), List.foldl_cons, tail,
        idle s i List.mem_cons_self here ⟨rfl, rfl, rfl⟩]

end

theorem endCall_of_none {s : State} {r : CallRef} (free : s.call r = none) (cause : Cause) (time : Nat) (forced : Bool) :
    endCall r cause time forced s = s := by
  simp only [endCall, free]

theorem endCall_slot_other (r : CallRef) (cause : Cause) (time : Nat) (forced : Bool) (s : State) {j : Nat}
    (other : j ≠ r.slot) : (endCall r cause time forced s).slot j = s.slot j := by
  cases used : s.call r with
  | none => rw [endCall_of_none used]
  | some c => rw [endCall_slot used, if_neg other]

theorem endCall_now_same (r : CallRef) (cause : Cause) (time : Nat) (forced : Bool) (s : State) :
    (endCall r cause time forced s).now = s.now := by
  cases used : s.call r with
  | none => rw [endCall_of_none used]
  | some c => exact endCall_now used cause time forced

theorem endCall_calls_rest (r : CallRef) (cause : Cause) (time : Nat) (forced : Bool) (s : State) :
    (endCall r cause time forced s).calls =
      { s.calls with
        slots := (endCall r cause time forced s).calls.slots
        orphans := (endCall r cause time forced s).calls.orphans
        reselections := (endCall r cause time forced s).calls.reselections } := by
  cases used : s.call r with
  | none => rw [endCall_of_none used]
  | some c => rw [endCall_calls used, CallTable.ended]

theorem State.call_refOf (s : State) (k : Nat) : s.call (s.refOf k) = (s.slot k).call := if_pos rfl

theorem endCall_refOf_slot {s : State} {k : Nat} {c : Call} (used : (s.slot k).call = some c) (cause : Cause) (time : Nat)
    (forced : Bool) :
    (endCall (s.refOf k) cause time forced s).slot k = ⟨nextGeneration (s.slot k).generation, none⟩ :=
  (endCall_slot ((s.call_refOf k).trans used) cause time forced k).trans (if_pos rfl)

/-! ## Folds that change records -/

theorem changeCall_calls (s : State) (k : Nat) (f : Call → Call) :
    s.changeCall k f = { s with calls := { s.calls with slots := (s.changeCall k f).calls.slots } } := by
  cases used : (s.slot k).call with
  | none => simp only [State.changeCall, used]
  | some x => rw [changeCall_eq used]; rfl

theorem changeCall_slot (s : State) (k : Nat) (f : Call → Call) (j : Nat) :
    (s.changeCall k f).slot j =
      if j = k then ⟨(s.slot k).generation, (s.slot k).call.map f⟩ else s.slot j := by
  cases used : (s.slot k).call with
  | none =>
    have same : s.changeCall k f = s := by simp only [State.changeCall, used]
    rw [same]
    split
    · next at_k => rw [at_k, Option.map_none, ← used]
    · rfl
  | some x =>
    rw [changeCall_eq used]
    split
    · next at_k => rw [at_k, State.slot_setCall_same]; rfl
    · next other => exact State.slot_setCall_other s k j _ other

theorem changeCall_onSlot (f : Call → Call) : OnSlot (fun s k => s.changeCall k f) where
  other s k j other := by rw [changeCall_slot, if_neg other]
  now s k := by rw [changeCall_calls]; rfl
  calls s k := by rw [changeCall_calls]

theorem foldl_changeCall_calls (f : Call → Call) (ks : List Nat) (s : State) :
    ks.foldl (fun s k => s.changeCall k f) s =
      { s with calls := { s.calls with slots := (ks.foldl (fun s k => s.changeCall k f) s).calls.slots } } := by
  induction ks generalizing s with
  | nil => rfl
  | cons k ks ih =>
    rw [List.foldl_cons]
    conv => lhs; rw [ih]
    rw [changeCall_calls]

theorem foldl_changeCall_slot {f : Call → Call} {ks : List Nat} (once : ks.Nodup) (s : State) (j : Nat) :
    (ks.foldl (fun s k => s.changeCall k f) s).slot j =
      if j ∈ ks then ⟨(s.slot j).generation, (s.slot j).call.map f⟩ else s.slot j := by
  split
  · next listed =>
    refine (changeCall_onSlot f).foldl_mem once listed fun y as => ?_
    rw [changeCall_slot, if_pos rfl, as.slot]
  · next apart => exact (changeCall_onSlot f).foldl_other apart s

/-! ## ADOPT (R124) -/

theorem exec_adopt (r : Sender) (former : Arg Port) (s : State) :
    exec (.adopt r former) s = request (.adopt r former) r RequestKind.adopt.code (handleAdopt r.port former) s := rfl

theorem orphansOf_rising {s : State} (canonical : s.calls.slots.wf = true) (q : Port) :
    (orphansOf s q).Pairwise (· < ·) := (slotsInUse_rising canonical).filter _

theorem mem_orphansOf {s : State} (canonical : s.calls.slots.wf = true) (q : Port) (k : Nat) :
    k ∈ orphansOf s q ↔
      k ∈ s.calls.orphans ∧ ∃ c x, (s.slot k).call = some c ∧ c.former = some x ∧ x.port = q := by
  rw [orphansOf, List.mem_filter, mem_slotsInUse canonical, Bool.and_eq_true, decide_eq_true_eq]
  cases used : (s.slot k).call with
  | none => simp
  | some c => cases c.former <;> simp [and_comm]

/-- R124: what adopting some orphans leaves. -/
theorem foldl_adoptCall {ks : List Nat} (once : ks.Nodup) (p : Port) (s : State) :
    (∀ k, (ks.foldl (adoptCall p) s).slot k =
        if k ∈ ks then
          ⟨(s.slot k).generation, (s.slot k).call.map (fun c => { c with owner := some p, orphanDeadline := none })⟩
        else s.slot k) ∧
      (ks.foldl (adoptCall p) s).calls.orphans = s.calls.orphans.filter (fun k => decide (k ∉ ks)) ∧
      ks.foldl (adoptCall p) s =
        { s with
          calls :=
            { s.calls with
              slots := (ks.foldl (adoptCall p) s).calls.slots
              orphans := (ks.foldl (adoptCall p) s).calls.orphans } } := by
  have slot : ∀ (s : State) (k j : Nat), (adoptCall p s k).slot j =
      if j = k then
        ⟨(s.slot k).generation, (s.slot k).call.map (fun c => { c with owner := some p, orphanDeadline := none })⟩
      else s.slot j := fun s k j => changeCall_slot s k _ j
  have rest : ∀ (s : State) (k : Nat), adoptCall p s k =
      { s with
        calls :=
          { s.calls with
            slots := (adoptCall p s k).calls.slots
            orphans := s.calls.orphans.filter (fun i => decide (i ≠ k)) } } := fun s k => by
    simp only [adoptCall, leaveOrphans]
    rw [changeCall_calls]
  have acts : OnSlot (adoptCall p) := {
    other := fun s k j other => by rw [slot, if_neg other]
    now := fun s k => by rw [rest]; rfl
    calls := fun s k => by rw [rest] }
  refine ⟨fun k => ?_, ?_⟩
  · split
    · next listed => exact acts.foldl_mem once listed fun y as => by rw [slot, if_pos rfl, as.slot]
    · next apart => exact acts.foldl_other apart s
  · clear once
    induction ks generalizing s with
    | nil => simp
    | cons k ks ih =>
      obtain ⟨orphans, blocks⟩ := ih (adoptCall p s k)
      rw [List.foldl_cons]
      have left : (adoptCall p s k).calls.orphans = s.calls.orphans.filter (fun i => decide (i ≠ k)) := by rw [rest]
      refine ⟨?_, ?_⟩
      · rw [orphans, left, List.filter_filter]
        congr 1
        funext i
        simp [Bool.and_comm]
      · conv => lhs; rw [blocks]
        rw [rest s k]

/-! ## The order of the orphan list (R122) -/

theorem insertByDeadline_perm (s : State) (k : Nat) (l : List Nat) : (insertByDeadline s k l).Perm (k :: l) := by
  induction l with
  | nil => exact List.Perm.refl _
  | cons i l ih =>
    simp only [insertByDeadline]
    split
    · exact List.Perm.refl _
    · exact (ih.cons i).trans (List.Perm.swap k i l)

theorem insertByDeadline_sorted {s : State} {l : List Nat} (h : l.Pairwise (fun i j => deadlineOf s i ≤ deadlineOf s j))
    (k : Nat) : (insertByDeadline s k l).Pairwise (fun i j => deadlineOf s i ≤ deadlineOf s j) := by
  induction l with
  | nil => exact List.pairwise_singleton _ k
  | cons i l ih =>
    obtain ⟨least, rest⟩ := List.pairwise_cons.mp h
    simp only [insertByDeadline]
    split
    · next earlier =>
      refine List.pairwise_cons.mpr ⟨fun j listed => ?_, h⟩
      rcases List.mem_cons.mp listed with rfl | listed
      · exact Nat.le_of_lt earlier
      · exact (Nat.le_of_lt earlier).trans (least j listed)
    · next later =>
      refine List.pairwise_cons.mpr ⟨fun j listed => ?_, ih rest⟩
      rcases List.mem_cons.mp ((insertByDeadline_perm s k l).mem_iff.mp listed) with rfl | listed
      · exact Nat.not_lt.mp later
      · exact least j listed

/-- R122: an orphan stands behind those of its own deadline. -/
theorem insertByDeadline_stable {s : State} {l : List Nat} (h : l.Pairwise (fun i j => deadlineOf s i ≤ deadlineOf s j))
    (k d : Nat) :
    (insertByDeadline s k l).filter (fun i => decide (deadlineOf s i = d)) =
      l.filter (fun i => decide (deadlineOf s i = d)) ++ [k].filter (fun i => decide (deadlineOf s i = d)) := by
  induction l with
  | nil => rfl
  | cons i l ih =>
    obtain ⟨least, rest⟩ := List.pairwise_cons.mp h
    simp only [insertByDeadline]
    split
    · next earlier =>
      rw [← List.singleton_append (l := i :: l), List.filter_append]
      by_cases same : deadlineOf s k = d
      · have none : (i :: l).filter (fun j => decide (deadlineOf s j = d)) = [] := by
          refine List.filter_eq_nil_iff.mpr fun j listed => ?_
          have after : deadlineOf s k < deadlineOf s j := by
            rcases List.mem_cons.mp listed with rfl | listed
            · exact earlier
            · exact earlier.trans_le (least j listed)
          simp only [decide_eq_true_eq]
          omega
        rw [none, List.append_nil, List.nil_append]
      · simp [same]
    · rw [List.filter_cons, List.filter_cons, ih rest]
      split <;> rfl

/-- R122: the orphan list is in the order of the deadlines, equal ones as they joined. -/
theorem orphanList_spec (s : State) :
    (orphanList s).Perm s.calls.orphans ∧ (orphanList s).Pairwise (fun i j => deadlineOf s i ≤ deadlineOf s j) ∧
      ∀ d, (orphanList s).filter (fun k => decide (deadlineOf s k = d)) =
        s.calls.orphans.filter (fun k => decide (deadlineOf s k = d)) := by
  have all : ∀ (l acc : List Nat), acc.Pairwise (fun i j => deadlineOf s i ≤ deadlineOf s j) →
      (l.foldl (fun acc k => insertByDeadline s k acc) acc).Perm (acc ++ l) ∧
        (l.foldl (fun acc k => insertByDeadline s k acc) acc).Pairwise (fun i j => deadlineOf s i ≤ deadlineOf s j) ∧
        ∀ d, (l.foldl (fun acc k => insertByDeadline s k acc) acc).filter (fun k => decide (deadlineOf s k = d)) =
          acc.filter (fun k => decide (deadlineOf s k = d)) ++ l.filter (fun k => decide (deadlineOf s k = d)) := by
    intro l
    induction l with
    | nil => exact fun acc sorted => ⟨by simp, sorted, fun d => by simp⟩
    | cons k l ih =>
      intro acc sorted
      obtain ⟨perm, after, stable⟩ := ih _ (insertByDeadline_sorted sorted k)
      refine ⟨perm.trans (((insertByDeadline_perm s k acc).append_right l).trans ?_), after, fun d => ?_⟩
      · exact List.perm_middle.symm
      · rw [List.foldl_cons, stable, insertByDeadline_stable sorted, List.append_assoc, ← List.filter_append,
          List.singleton_append]
  obtain ⟨perm, sorted, stable⟩ := all s.calls.orphans [] List.Pairwise.nil
  exact ⟨perm, sorted, stable⟩

theorem deadlineOf_eq {s : State} {k d : Nat} {c : Call} (used : (s.slot k).call = some c)
    (deadline : c.orphanDeadline = some d) : deadlineOf s k = d := by
  simp only [deadlineOf, used, deadline]
  rfl

/-! ## SET_ORPHAN_LIMIT (R125) -/

theorem exec_setOrphanLimit (r : Sender) (limit : Option Nat) (s : State) :
    exec (.setOrphanLimit r limit) s =
      request (.setOrphanLimit r limit) r RequestKind.setOrphanLimit.code (handleOrphanLimit limit) s := rfl

theorem drawInAll_calls (limit : Nat) (s : State) :
    drawInAll limit s =
      { s with calls := { s.calls with slots := (drawInAll limit s).calls.slots, orphanLimit := limit } } := by
  show (s.calls.orphans.foldl (drawIn limit) { s with calls := { s.calls with orphanLimit := limit } }) = _
  conv => lhs; rw [show drawIn limit = fun s k =>
    s.changeCall k (fun c => { c with orphanDeadline := drawnDeadline limit c }) from rfl, foldl_changeCall_calls]
  rfl

theorem drawInAll_slot {s : State} (once : s.calls.orphans.Nodup) (limit k : Nat) :
    (drawInAll limit s).slot k =
      if k ∈ s.calls.orphans then
        ⟨(s.slot k).generation, (s.slot k).call.map (fun c => { c with orphanDeadline := drawnDeadline limit c })⟩
      else s.slot k :=
  foldl_changeCall_slot once { s with calls := { s.calls with orphanLimit := limit } } k

theorem drawnDeadline_of {c : Call} {d : Nat} {x : FormerOwner} (deadline : c.orphanDeadline = some d)
    (former : c.former = some x) (limit : Nat) : drawnDeadline limit c = some (min d (x.lossTime + limit * 1000)) := by
  simp only [drawnDeadline, deadline, former]

/-- R122, R125: an orphan's record, its deadline and its former owner. -/
theorem CallsSound.orphan {s : State} (sound : CallsSound s) {k : Nat} (orphan : k ∈ s.calls.orphans) :
    ∃ c d x, (s.slot k).call = some c ∧ c.orphanDeadline = some d ∧ c.former = some x := by
  obtain ⟨-, -, -, -, orphans, records, -⟩ := sound
  obtain ⟨c, used, ownerless⟩ := (orphans k).mp orphan
  obtain ⟨-, deadline, former⟩ := records k c used
  obtain ⟨d, deadline⟩ := Option.isSome_iff_exists.mp (deadline.mp ownerless)
  obtain ⟨x, former⟩ := Option.isSome_iff_exists.mp (former ownerless)
  exact ⟨c, d, x, used, deadline, former⟩

section limited
variable {u : State} (sound : CallsSound u) (limit : Nat)
include sound

theorem drawInAll_orphan {k d : Nat} {c : Call} {x : FormerOwner} (orphan : k ∈ u.calls.orphans)
    (used : (u.slot k).call = some c) (deadline : c.orphanDeadline = some d) (former : c.former = some x) :
    (drawInAll limit u).slot k =
      ⟨(u.slot k).generation, some { c with orphanDeadline := some (min d (x.lossTime + limit * 1000)) }⟩ := by
  obtain ⟨-, -, once, -⟩ := sound
  rw [drawInAll_slot once, if_pos orphan, used, Option.map_some, drawnDeadline_of deadline former]

/-- R125: the orphans whose deadline the limit brings to now or before. -/
theorem mem_expiredByLimit (k : Nat) :
    k ∈ expiredByLimit limit u ↔
      k ∈ u.calls.orphans ∧ ∃ c d x, (u.slot k).call = some c ∧ c.orphanDeadline = some d ∧ c.former = some x ∧
        x.lossTime + limit * 1000 < d ∧ x.lossTime + limit * 1000 ≤ u.now := by
  obtain ⟨perm, -, -⟩ := orphanList_spec (drawInAll limit u)
  have orphans : (drawInAll limit u).calls.orphans = u.calls.orphans := by rw [drawInAll_calls]
  rw [expiredByLimit, List.mem_filter, perm.mem_iff, orphans, Bool.and_eq_true, decide_eq_true_eq]
  refine and_congr_right fun orphan => ?_
  obtain ⟨c, d, x, used, deadline, former⟩ := sound.orphan orphan
  have drawn : drawnIn u limit k = true ↔ x.lossTime + limit * 1000 < d := by
    simp only [drawnIn, used, drawnDeadline_of deadline former, deadline, bne_iff_ne, ne_eq, Option.some.injEq]
    omega
  have due : deadlineOf (drawInAll limit u) k = min d (x.lossTime + limit * 1000) :=
    deadlineOf_eq (by rw [drawInAll_orphan sound limit orphan used deadline former]) rfl
  rw [drawn, due]
  constructor
  · rintro ⟨below, reached⟩
    exact ⟨c, d, x, used, deadline, former, below, by omega⟩
  · rintro ⟨c', d', x', used', deadline', former', below, reached⟩
    obtain rfl := Option.some.inj (used.symm.trans used')
    obtain rfl := Option.some.inj (deadline.symm.trans deadline')
    obtain rfl := Option.some.inj (former.symm.trans former')
    exact ⟨below, by omega⟩

theorem expiredByLimit_nodup : (expiredByLimit limit u).Nodup := by
  obtain ⟨-, -, once, -⟩ := sound
  obtain ⟨perm, -, -⟩ := orphanList_spec (drawInAll limit u)
  have orphans : (drawInAll limit u).calls.orphans = u.calls.orphans := by rw [drawInAll_calls]
  refine List.Nodup.filter _ (perm.nodup_iff.mpr ?_)
  rw [orphans]
  exact once

end limited

theorem expireOrphan_onSlot : OnSlot expireOrphan where
  other s k _ other := endCall_slot_other (s.refOf k) _ _ _ s other
  now s _ := endCall_now_same _ _ _ _ s
  calls s k := endCall_calls_rest (s.refOf k) _ _ _ s

theorem deadlineOf_congr {s t : State} {k : Nat} (same : t.slot k = s.slot k) : deadlineOf t k = deadlineOf s k := by
  simp only [deadlineOf, same]

theorem handleOrphanLimit_some (n : Nat) (u : State) :
    handleOrphanLimit (some n) u =
      ⟨(expiredByLimit (min n 3600) u).foldl expireOrphan (drawInAll (min n 3600) u), if 3600 < n then .adjusted else .ok,
        .orphanLimit u.calls.orphanLimit (min n 3600) (u.calls.orphans.countP (drawnIn u (min n 3600)))
          (expiredByLimit (min n 3600) u).length⟩ := by
  simp only [handleOrphanLimit, clamp_zero, okOr_outside_zero]

theorem setOrphanLimit_spec {u : State} (sound : CallsSound u) (limit : Nat) :
    (∃ w : State,
      w = { u with calls := { u.calls with slots := w.calls.slots, orphanLimit := limit } } ∧
      (∀ k, k ∉ u.calls.orphans → w.slot k = u.slot k) ∧
      (∀ k c d x, k ∈ u.calls.orphans → (u.slot k).call = some c → c.orphanDeadline = some d → c.former = some x →
        w.slot k =
          ⟨(u.slot k).generation,
            some { c with orphanDeadline := some (min d (x.lossTime + limit * 1000)) }⟩) ∧
      (expiredByLimit limit u).Sublist (orphanList w) ∧
      (expiredByLimit limit u).foldl expireOrphan (drawInAll limit u) =
        (expiredByLimit limit u).foldl
          (fun y k => endCall ⟨k, (u.slot k).generation⟩ .orphanExpired (deadlineOf w k) true y) w) := by
  obtain ⟨-, -, once, -⟩ := id sound
  refine ⟨drawInAll limit u, drawInAll_calls limit u, fun k apart => ?_, fun k c d x orphan used deadline former => ?_,
    List.filter_sublist, ?_⟩
  · rw [drawInAll_slot once, if_neg apart]
  · exact drawInAll_orphan sound limit orphan used deadline former
  · refine expireOrphan_onSlot.foldl_congr (expiredByLimit_nodup sound limit) _ fun y k listed as => ?_
    obtain ⟨orphan, -⟩ := (mem_expiredByLimit sound limit k).mp listed
    have generation : (y.slot k).generation = (u.slot k).generation := by
      rw [as.slot, drawInAll_slot once, if_pos orphan]
    rw [expireOrphan, deadlineOf_congr as.slot, State.refOf, generation]

/-- Settles O36. -/
theorem orphanRequests : Obligations.OrphanRequests := by
  refine ⟨fun r former s u sound takes => ?_, fun r limit s u sound takes => ?_, fun s => ?_⟩
  · have blocks := takes_blocks takes
    have sound : CallsSound u := by rw [blocks]; exact sound
    have canonical := sound.1
    have answer := fun {v st x} => answers_of (v := v) (st := st) (x := x) rfl (exec_adopt r former s) takes
    refine ⟨?_, ?_, ?_⟩
    · rintro rfl
      exact answer rfl
    · rintro rfl
      exact answer rfl
    · rintro q rfl
      have rises := orphansOf_rising canonical q
      obtain ⟨slots, orphans, rest⟩ := foldl_adoptCall (rises.imp Nat.ne_of_lt) r.port u
      exact ⟨(orphansOf u q).foldl (adoptCall r.port) u, orphansOf u q, answer rfl, (rising_iff _).mpr rises,
        mem_orphansOf canonical q, orphans, slots, rest⟩
  · have blocks := takes_blocks takes
    have sound : CallsSound u := by rw [blocks]; exact sound
    have answer := fun {v st x} => answers_of (v := v) (st := st) (x := x) rfl (exec_setOrphanLimit r limit s) takes
    refine ⟨?_, ?_⟩
    · rintro rfl
      exact answer rfl
    · rintro n rfl
      obtain ⟨-, -, once, -⟩ := id sound
      have each := expiredByLimit_nodup sound (min n 3600)
      refine ⟨_, expiredByLimit (min n 3600) u, answer (handleOrphanLimit_some n u), each, ?_,
        setOrphanLimit_spec sound (min n 3600), mem_expiredByLimit sound (min n 3600), fun k listed => ?_,
        fun k c d x orphan apart used deadline former => ?_, fun k apart => ?_⟩
      · rw [expireOrphan_onSlot.foldl_calls, drawInAll_calls]
      · obtain ⟨orphan, c, d, x, used, deadline, former, -⟩ := (mem_expiredByLimit sound _ k).mp listed
        have slot := drawInAll_orphan sound (min n 3600) orphan used deadline former
        refine expireOrphan_onSlot.foldl_mem each listed fun y as => ?_
        have same := as.slot
        rw [slot] at same
        refine (endCall_refOf_slot (by rw [same]) _ _ _).trans ?_
        rw [same]
        rfl
      · rw [expireOrphan_onSlot.foldl_other apart, drawInAll_orphan sound (min n 3600) orphan used deadline former]
      · have notListed : k ∉ expiredByLimit (min n 3600) u := fun listed =>
          apart ((mem_expiredByLimit sound _ k).mp listed).1
        rw [expireOrphan_onSlot.foldl_other notListed, drawInAll_slot once, if_neg apart]
  · obtain ⟨perm, sorted, stable⟩ := orphanList_spec s
    refine ⟨⟨fun k c d => deadlineOf_eq, perm, sorted, stable⟩, fun k rest first due => ?_, fun early => ?_⟩
    · show execOrphanExpiry s = _
      simp only [execOrphanExpiry, first, if_pos due]
      rfl
    · show execOrphanExpiry s = _
      cases list : orphanList s with
      | nil => simp only [execOrphanExpiry, list]
      | cons k rest => simp only [execOrphanExpiry, list, if_neg (Nat.not_le.mpr (early k rest list))]

end Sys2Proof.Machine
end

section
/-! Proof of O38: the events that the call table takes (R119 to R122). -/

namespace Sys2Proof.Machine

/-! ## A queued reselection (R119) -/

theorem tellOwner_of_none {s : State} {r : CallRef} {x : Call} (used : s.call r = some x) (owner : x.owner = none) :
    tellOwner r s = s := by
  simp only [tellOwner, used, owner]

theorem tellOwner_of_some {s : State} {r : CallRef} {x : Call} {p : Port} (used : s.call r = some x)
    (owner : x.owner = some p) : tellOwner r s = notify p (reselectionNotice r x) s := by
  simp only [tellOwner, used, owner]

theorem reselectDisplaced_of_some {s : State} {r : CallRef} {c : Call} (used : s.call r = some c) :
    reselectDisplaced r s =
      tellOwner r
        (reselect r .glareYield
          (s.setCall r.slot { c with reselectionPending := false, lastCause := some .glareYield })) := by
  simp only [reselectDisplaced, used]

theorem exec_glareReselection (call : CallRef) (s : State) :
    exec (.glareReselection call) s =
      .next
        (if call ∈ s.calls.reselections then
          reselectDisplaced call { s with calls := { s.calls with reselections := s.calls.reselections.erase call } }
         else s) := rfl

/-! ## A list of groups (R120) -/

theorem exec_drainReleaseList_of_nil {s : State} (none : s.calls.releaseLists = []) :
    exec .drainReleaseList s = .next s := by
  show execDrainReleaseList s = _
  simp only [execDrainReleaseList, none]

theorem exec_drainReleaseList_of_cons {s : State} {gs : List Nat} {rest : List (List Nat)}
    (lists : s.calls.releaseLists = gs :: rest) :
    exec .drainReleaseList s =
      .next (takeReleaseList gs { s with calls := { s.calls with releaseLists := rest } }) := by
  show execDrainReleaseList s = _
  simp only [execDrainReleaseList, lists]

theorem notify_slot (p : Port) (n : Notice) (s : State) (k : Nat) : (notify p n s).slot k = s.slot k := by
  simp only [State.slot, (notify_told p n s).calls]

theorem notify_now (p : Port) (n : Notice) (s : State) : (notify p n s).now = s.now :=
  (notify_told p n s).served.planted.now

theorem holdsLegOn_iff (gs : List Nat) (c : Call) :
    holdsLegOn gs c = true ↔ c.inGroup ∈ gs ∨ ∃ l, c.leg = some l ∧ l.group ∈ gs := by
  unfold holdsLegOn
  cases c.leg <;> simp

/-- R120: what a release list does to a slot: the call on a listed group is ended, and its owner told. -/
theorem drainCall_cases (gs : List Nat) (s : State) (k : Nat) :
    drainCall gs s k =
      if (s.slot k).call.any (holdsLegOn gs) = true then
        ((s.slot k).call.bind (fun c => c.owner)).elim
          (endCall (s.refOf k) .drained s.now true s)
          (fun p => notify p (.callCleared (s.refOf k) .drained .released) (endCall (s.refOf k) .drained s.now true s))
      else s := by
  cases used : (s.slot k).call with
  | none =>
    simp only [drainCall, used]
    rfl
  | some c =>
    simp only [drainCall, used, Option.any_some, Option.bind_some]
    split
    · cases c.owner <;> rfl
    · rfl

theorem drainCall_onSlot (gs : List Nat) : OnSlot (drainCall gs) where
  other s k j other := by
    have ended := endCall_slot_other (s.refOf k) .drained s.now true s other
    rw [drainCall_cases]
    split
    · cases (s.slot k).call.bind (fun c => c.owner) with
      | none => exact ended
      | some p => exact (notify_slot p _ _ j).trans ended
    · rfl
  now s k := by
    have ended := endCall_now_same (s.refOf k) .drained s.now true s
    rw [drainCall_cases]
    split
    · cases (s.slot k).call.bind (fun c => c.owner) with
      | none => exact ended
      | some p => exact (notify_now p _ _).trans ended
    · rfl
  calls s k := by
    have ended := endCall_calls_rest (s.refOf k) .drained s.now true s
    rw [drainCall_cases]
    split
    · cases (s.slot k).call.bind (fun c => c.owner) with
      | none => exact ended
      | some p =>
        simp only [Option.elim_some]
        rw [(notify_told p _ _).calls]
        exact ended
    · rfl

theorem drainCall_slot_same {gs : List Nat} {s : State} {k : Nat} {c : Call} (used : (s.slot k).call = some c)
    (listed : holdsLegOn gs c = true) :
    (drainCall gs s k).slot k = ⟨nextGeneration (s.slot k).generation, none⟩ := by
  have ended := endCall_refOf_slot used .drained s.now true
  have any : (s.slot k).call.any (holdsLegOn gs) = true := by rw [used]; exact listed
  rw [drainCall_cases, if_pos any]
  cases (s.slot k).call.bind (fun c => c.owner) with
  | none => exact ended
  | some p => exact (notify_slot p _ _ k).trans ended

/-- A list of slots filtered from the slots in use is that filtered from the numbers of all slots. -/
theorem slotsInUse_filter {s : State} (sound : CallsSound s) {p : Call → Bool} :
    s.slotsInUse.filter (fun k => (s.slot k).call.any p) =
      (List.range 8192).filter (fun k => (s.slot k).call.any p) := by
  obtain ⟨canonical, -, -, -, -, records, -⟩ := sound
  refine List.Perm.eq_of_pairwise (le := (· < ·)) (fun a b _ _ x y => absurd x (Nat.lt_asymm y))
    ((slotsInUse_rising canonical).filter _) (List.pairwise_lt_range.filter _)
    ((List.perm_ext_iff_of_nodup (((slotsInUse_rising canonical).imp Nat.ne_of_lt).filter _)
      (List.nodup_range.filter _)).mpr fun k => ?_)
  rw [List.mem_filter, List.mem_filter, mem_slotsInUse canonical, List.mem_range]
  refine and_congr_left fun held => ?_
  cases used : (s.slot k).call with
  | none => rw [used] at held; cases held
  | some c => exact ⟨fun _ => (records k c used).1, fun _ => rfl⟩

/-- R120: the call table takes a list of groups. -/
theorem takeReleaseList_spec {s : State} (sound : CallsSound s) (gs : List Nat) (rest : List (List Nat)) {v : State}
    (taken : v = takeReleaseList gs { s with calls := { s.calls with releaseLists := rest } }) :
    v.calls.releaseLists = rest ∧
      v =
        ((List.range 8192).filter (fun k => (s.slot k).call.any (holdsLegOn gs))).foldl (drainCall gs)
          { s with
            calls :=
              { s.calls with releaseLists := rest, offers := s.calls.offers.map (OfferInProgress.note gs) } } ∧
      ∀ k, v.slot k =
        if (s.slot k).call.any (holdsLegOn gs) = true then ⟨((s.slot k).generation + 1) % 256, none⟩ else s.slot k := by
  obtain ⟨canonical, -⟩ := id sound
  have acts := drainCall_onSlot gs
  have once : s.slotsInUse.Nodup := (slotsInUse_rising canonical).imp Nat.ne_of_lt
  have folded : v = s.slotsInUse.foldl (drainCall gs)
      { s with
        calls := { s.calls with releaseLists := rest, offers := s.calls.offers.map (OfferInProgress.note gs) } } := taken
  have filtered := acts.foldl_filter once (fun k => (s.slot k).call.any (holdsLegOn gs))
    { s with
      calls := { s.calls with releaseLists := rest, offers := s.calls.offers.map (OfferInProgress.note gs) } }
    fun y k _ off as => by
      have slot : y.slot k = s.slot k := as.slot
      rw [drainCall_cases, slot, if_neg (by simp [off])]
  rw [slotsInUse_filter sound] at filtered
  refine ⟨?_, folded.trans filtered, fun k => ?_⟩
  · rw [folded, acts.foldl_calls]
  · rw [folded, filtered]
    split
    · next held =>
      obtain ⟨c, used, holds⟩ := (Option.any_eq_true _ _).mp held
      have listed : k ∈ (List.range 8192).filter (fun k => (s.slot k).call.any (holdsLegOn gs)) := by
        rw [← slotsInUse_filter sound, List.mem_filter, mem_slotsInUse canonical, used]
        exact ⟨rfl, holds⟩
      refine acts.foldl_mem (List.nodup_range.filter _) listed fun y as => ?_
      have slot : y.slot k = s.slot k := as.slot
      rw [drainCall_slot_same (by rw [slot]; exact used) holds, slot]
      rfl
    · next free =>
      exact acts.foldl_other (fun listed => free (List.mem_filter.mp listed).2) _

/-! ## The loss of a port (R121, R122, R183) -/

theorem exec_callTablePortLoss_of_none {s : State} {p : Port} (none : ∀ l ∈ s.calls.losses, l.port ≠ p) :
    exec (.callTablePortLoss p) s = .next s := by
  have found : s.calls.losses.find? (fun l => l.port == p) = Option.none :=
    List.find?_eq_none.mpr fun l listed => by simpa using none l listed
  show execCallTablePortLoss p s = _
  simp only [execCallTablePortLoss, found]

theorem exec_callTablePortLoss_of_some {s : State} {p : Port} {l : PortLoss}
    (found : s.calls.losses.find? (fun l => decide (l.port = p)) = some l) :
    exec (.callTablePortLoss p) s = .next (takePortLoss l s) := by
  have found : s.calls.losses.find? (fun l => l.port == p) = some l := found
  show execCallTablePortLoss p s = _
  simp only [execCallTablePortLoss, found]

theorem mem_slotsOwnedBy {s : State} (canonical : s.calls.slots.wf = true) (p : Port) (k : Nat) :
    k ∈ slotsOwnedBy s p ↔ ∃ x, (s.slot k).call = some x ∧ x.owner = some p := by
  rw [slotsOwnedBy, List.mem_filter, mem_slotsInUse canonical]
  cases (s.slot k).call <;> simp

theorem slotsOwnedBy_rising {s : State} (canonical : s.calls.slots.wf = true) (p : Port) :
    (slotsOwnedBy s p).Pairwise (· < ·) := (slotsInUse_rising canonical).filter _

theorem upPartner_of_up {s : State} {l : PortLoss} {q : Port} (partner : l.partner = some q)
    (up : (s.port q).state = .up) : upPartner s l = some q := by
  simp only [upPartner, partner, State.isUp, up]
  rfl

theorem upPartner_of_none {s : State} {l : PortLoss} (none : ∀ q, l.partner = some q → (s.port q).state ≠ .up) :
    upPartner s l = Option.none := by
  unfold upPartner
  cases partner : l.partner with
  | none => rfl
  | some q => exact if_neg (by simpa [State.isUp] using none q partner)

theorem orphan_calls (p : Port) (k : Nat) (s : State) :
    (orphan p k s).calls =
      { s.calls with slots := (orphan p k s).calls.slots, orphans := s.calls.orphans ++ [k] } := by
  simp only [orphan]
  rw [changeCall_calls]

theorem orphan_slot (p : Port) (k : Nat) (s : State) (j : Nat) :
    (orphan p k s).slot j =
      if j = k then
        ⟨(s.slot k).generation,
          (s.slot k).call.map (fun c =>
            { c with
              owner := none
              former := some ⟨p, s.now⟩
              orphanDeadline := some (s.now + s.calls.orphanLimit * 1000) })⟩
      else s.slot j := changeCall_slot s k _ j

/-- R122: the call in a slot becomes an orphan when its port is lost. -/
def orphaned (limit : Nat) (x : Call) : Bool := decide (x.state = .answered) && decide (limit ≠ 0)

/-- R122: what a loss does to the record of a slot in use. -/
theorem loseCall_eq (p : Port) {s : State} {k : Nat} {x : Call} (used : (s.slot k).call = some x) :
    loseCall p s k =
      if x.state = .answered then
        if s.calls.orphanLimit = 0 then endCall (s.refOf k) .orphanExpired s.now true s else orphan p k s
      else endCall (s.refOf k) .portLost s.now false s := by
  simp only [loseCall, used]

theorem loseCall_of_none (p : Port) {s : State} {k : Nat} (free : (s.slot k).call = none) : loseCall p s k = s := by
  simp only [loseCall, free]

theorem loseCall_onSlot (p : Port) : OnSlot (loseCall p) where
  other s k j other := by
    cases used : (s.slot k).call with
    | none => rw [loseCall_of_none p used]
    | some x =>
      rw [loseCall_eq p used]
      split
      · split
        · exact endCall_slot_other _ _ _ _ s other
        · rw [orphan_slot, if_neg other]
      · exact endCall_slot_other _ _ _ _ s other
  now s k := by
    cases used : (s.slot k).call with
    | none => rw [loseCall_of_none p used]
    | some x =>
      rw [loseCall_eq p used]
      split
      · split
        · exact endCall_now_same _ _ _ _ s
        · simp only [orphan]
          rw [changeCall_calls]
          rfl
      · exact endCall_now_same _ _ _ _ s
  calls s k := by
    cases used : (s.slot k).call with
    | none => rw [loseCall_of_none p used]
    | some x =>
      rw [loseCall_eq p used]
      split
      · split
        · exact endCall_calls_rest _ _ _ _ s
        · rw [orphan_calls]
      · exact endCall_calls_rest _ _ _ _ s

/-- R122: the slot of a lost call: an orphan's record, or FREE under the next generation. -/
theorem loseCall_slot_same (p : Port) {s : State} {k : Nat} {x : Call} (used : (s.slot k).call = some x) :
    (loseCall p s k).slot k =
      if x.state = .answered ∧ s.calls.orphanLimit ≠ 0 then
        ⟨(s.slot k).generation,
          some
            { x with
              owner := none
              former := some ⟨p, s.now⟩
              orphanDeadline := some (s.now + s.calls.orphanLimit * 1000) }⟩
      else ⟨((s.slot k).generation + 1) % 256, none⟩ := by
  rw [loseCall_eq p used]
  by_cases answered : x.state = .answered
  · by_cases zero : s.calls.orphanLimit = 0
    · rw [if_pos answered, if_pos zero, if_neg fun h => h.2 zero]
      exact endCall_refOf_slot used _ _ _
    · rw [if_pos answered, if_neg zero, if_pos ⟨answered, zero⟩, orphan_slot, if_pos rfl, used]
      rfl
  · rw [if_neg answered, if_neg fun h => answered h.1]
    exact endCall_refOf_slot used _ _ _

theorem endCall_orphans {s : State} {k : Nat} (apart : k ∉ s.calls.orphans) (cause : Cause) (time : Nat) (forced : Bool) :
    (endCall (s.refOf k) cause time forced s).calls.orphans = s.calls.orphans := by
  cases used : s.call (s.refOf k) with
  | none => rw [endCall_of_none used]
  | some c =>
    rw [endCall_calls used]
    exact List.filter_eq_self.mpr fun i listed => decide_eq_true fun same : i = k => apart (same ▸ listed)

/-- R122: the orphans that a loss makes join the list in slot order. -/
theorem foldl_loseCall_orphans (p : Port) {ks : List Nat} (once : ks.Nodup) {s : State}
    (owned : ∀ k ∈ ks, k ∉ s.calls.orphans) :
    (ks.foldl (loseCall p) s).calls.orphans =
      s.calls.orphans ++ ks.filter (fun k => (s.slot k).call.any (orphaned s.calls.orphanLimit)) := by
  induction ks generalizing s with
  | nil => simp
  | cons k ks ih =>
    obtain ⟨apart, rest⟩ := List.nodup_cons.mp once
    obtain ⟨first, others⟩ := List.forall_mem_cons.mp owned
    have acts := loseCall_onSlot p
    have one : (loseCall p s k).calls.orphans =
        s.calls.orphans ++ [k].filter (fun k => (s.slot k).call.any (orphaned s.calls.orphanLimit)) := by
      cases used : (s.slot k).call with
      | none => rw [loseCall_of_none p used]; simp [used]
      | some x =>
        rw [loseCall_eq p used]
        by_cases answered : x.state = .answered
        · by_cases zero : s.calls.orphanLimit = 0
          · rw [if_pos answered, if_pos zero, endCall_orphans first]
            simp [used, orphaned, zero]
          · rw [if_pos answered, if_neg zero, orphan_calls]
            simp [used, orphaned, zero, answered]
        · rw [if_neg answered, endCall_orphans first]
          simp [used, orphaned, answered]
    have kept : ks.filter (fun j => ((loseCall p s k).slot j).call.any (orphaned (loseCall p s k).calls.orphanLimit)) =
        ks.filter (fun j => (s.slot j).call.any (orphaned s.calls.orphanLimit)) :=
      List.filter_congr fun j listed => by rw [acts.limit, acts.other s k j (ne_of_mem_of_not_mem listed apart)]
    have free : ∀ j ∈ ks, j ∉ (loseCall p s k).calls.orphans := fun j listed member => by
      rw [one] at member
      rcases List.mem_append.mp member with before | now
      · exact others j listed before
      · exact apart (List.mem_singleton.mp (List.mem_filter.mp now).1 ▸ listed)
    rw [List.foldl_cons, ih rest free, one, kept, List.append_assoc, ← List.filter_append, List.singleton_append]

/-- R121, R183: the state in which the call table acts on a loss it has taken. -/
def lossTaken (l : PortLoss) (s : State) : State :=
  { s with
    calls :=
      { s.calls with
        losses := s.calls.losses.erase l
        offers := s.calls.offers.map (fun o => if o.sender.port = l.port then { o with loss := some l.partner } else o) } }

theorem takePortLoss_eq (l : PortLoss) (s : State) :
    takePortLoss l s = sendDetachDone l (lossCounts (lossTaken l s) l) (loseCalls l (lossTaken l s)) := rfl

/-- R121: a partner that is UP takes the calls of the lost port over. -/
theorem takeOver_spec {s : State} (canonical : s.calls.slots.wf = true) (l : PortLoss) {q : Port} {w : State}
    (taken : w = takeOver l.port q (lossTaken l s)) :
    (∀ k, w.slot k =
        if k ∈ slotsOwnedBy s l.port then
          ⟨(s.slot k).generation, (s.slot k).call.map (fun c => { c with owner := some q })⟩
        else s.slot k) ∧
      w.calls = { (lossTaken l s).calls with slots := w.calls.slots } ∧
      w = notify q (.takeover l.port (slotsOwnedBy s l.port).length) { s with calls := w.calls } := by
  have owned : slotsOwnedBy (lossTaken l s) l.port = slotsOwnedBy s l.port := rfl
  have once : (slotsOwnedBy s l.port).Nodup := (slotsOwnedBy_rising canonical l.port).imp Nat.ne_of_lt
  obtain ⟨f, hf⟩ : ∃ f : Call → Call, f = fun c => { c with owner := some q } := ⟨_, rfl⟩
  have changed := foldl_changeCall_calls f (slotsOwnedBy s l.port) (lossTaken l s)
  have made : w = notify q (.takeover l.port (slotsOwnedBy s l.port).length)
      ((slotsOwnedBy s l.port).foldl (fun s k => s.changeCall k f) (lossTaken l s)) := by
    rw [taken, takeOver, owned, hf]
  have calls : w.calls = ((slotsOwnedBy s l.port).foldl (fun s k => s.changeCall k f) (lossTaken l s)).calls := by
    rw [made, (notify_told q _ _).calls]
  refine ⟨fun k => ?_, ?_, ?_⟩
  · have slot := foldl_changeCall_slot (f := f) once (lossTaken l s) k
    rw [← hf]
    simp only [State.slot, calls] at slot ⊢
    exact slot
  · rw [calls]
    conv => lhs; rw [changed]
  · rw [calls]
    conv => lhs; rw [made, changed]
    conv => rhs; rw [changed]
    rfl

theorem lossCounts_of_up {s : State} {l : PortLoss} {q : Port} (up : upPartner s l = some q) :
    lossCounts s l = ((slotsOwnedBy s l.port).length, 0, 0) := by
  simp only [lossCounts, up]

theorem willOrphan_eq (s : State) (k : Nat) :
    willOrphan s k = (s.slot k).call.any (orphaned s.calls.orphanLimit) := by
  unfold willOrphan
  cases (s.slot k).call with
  | none => rfl
  | some x =>
    simp only [Option.any_some, orphaned]
    cases x.state <;> cases s.calls.orphanLimit <;> rfl

theorem lossCounts_of_none {s : State} {l : PortLoss} (down : upPartner s l = none) :
    ∃ b c, lossCounts s l = (0, b, c) ∧ b + c = (slotsOwnedBy s l.port).length ∧
      c = ((slotsOwnedBy s l.port).filter (fun k => (s.slot k).call.any (orphaned s.calls.orphanLimit))).length := by
  have counts : lossCounts s l =
      (0, (slotsOwnedBy s l.port).countP (fun k => !willOrphan s k), (slotsOwnedBy s l.port).countP (willOrphan s)) := by
    simp only [lossCounts, down]
  refine ⟨_, _, counts, ?_, ?_⟩
  · have total := List.length_eq_countP_add_countP (willOrphan s) (l := slotsOwnedBy s l.port)
    simp only [Bool.not_eq_true, Bool.decide_eq_false] at total
    omega
  · rw [List.countP_eq_length_filter, funext (willOrphan_eq s)]

theorem sendDetachDone_eq (l : PortLoss) (a b c : Nat) (w : State) :
    sendDetachDone l (a, b, c) w =
      l.detachTag.elim w (fun tag => compose l.port ⟨145, tag, .ok, .detachDone a b c⟩ w) := by
  unfold sendDetachDone
  cases l.detachTag <;> rfl

/-! ## The three events -/

theorem glareReselection_spec (s w : State) (call : CallRef)
    (without : w = { s with calls := { s.calls with reselections := s.calls.reselections.erase call } }) :
    (call ∉ s.calls.reselections → exec (.glareReselection call) s = .next s) ∧
    (call ∈ s.calls.reselections → s.call call = none → exec (.glareReselection call) s = .next w) ∧
    ∀ c z x, call ∈ s.calls.reselections → s.call call = some c →
      z =
        reselect call .glareYield
          (w.setCall call.slot { c with reselectionPending := false, lastCause := some .glareYield }) →
      z.call call = some x →
      (x.owner = none → exec (.glareReselection call) s = .next z) ∧
      ∀ p, x.owner = some p →
        (∀ l, x.leg = some l →
          exec (.glareReselection call) s =
            .next (notify p (.routeChanged call l.circuit l.group x.stepIndex x.reattempts) z)) ∧
        ∀ k, x.leg = none → x.lastCause = some k →
          exec (.glareReselection call) s = .next (notify p (.callCleared call k .unrouted) z) := by
  have same : w.call call = s.call call := by rw [without]; rfl
  have queued : call ∈ s.calls.reselections →
      exec (.glareReselection call) s = .next (reselectDisplaced call w) := fun listed => by
    rw [exec_glareReselection, if_pos listed, without]
  refine ⟨fun apart => ?_, fun listed free => ?_, fun c z x listed used reselected after => ?_⟩
  · rw [exec_glareReselection, if_neg apart]
  · rw [queued listed]
    simp only [reselectDisplaced, same, free]
  · have told : exec (.glareReselection call) s = .next (tellOwner call z) := by
      rw [queued listed, reselectDisplaced_of_some (same.trans used), reselected]
    refine ⟨fun owner => ?_, fun p owner => ⟨fun l leg => ?_, fun k leg cause => ?_⟩⟩
    · rw [told, tellOwner_of_none after owner]
    · rw [told, tellOwner_of_some after owner]
      simp only [reselectionNotice, leg]
    · rw [told, tellOwner_of_some after owner]
      simp only [reselectionNotice, leg, cause]
      rfl

/-- Settles O38. -/
theorem callTableEvents : Obligations.CallTableEvents := by
  refine ⟨glareReselection_spec, fun s gs rest sound => ⟨exec_drainReleaseList_of_nil, fun lists => ?_⟩,
    fun s p sound => ⟨exec_callTablePortLoss_of_none, fun l found => ?_⟩⟩
  · obtain ⟨v, taken⟩ : ∃ v, v = takeReleaseList gs { s with calls := { s.calls with releaseLists := rest } } := ⟨_, rfl⟩
    obtain ⟨left, folded, slots⟩ := takeReleaseList_spec sound gs rest taken
    have run : exec .drainReleaseList s = .next v := by rw [exec_drainReleaseList_of_cons lists, taken]
    refine ⟨v, run, left, ?_, fun k => ⟨?_, fun apart => ?_⟩⟩
    · intro ks all
      rw [all]
      have test : ∀ c : Call, (decide (c.inGroup ∈ gs) || c.leg.any (fun l => decide (l.group ∈ gs))) = holdsLegOn gs c :=
        fun c => by
          rw [Bool.eq_iff_iff, holdsLegOn_iff]
          cases c.leg <;> simp
      simp only [test]
      rw [folded]
      refine (drainCall_onSlot gs).foldl_congr (List.nodup_range.filter _) _ fun y k listed as => ?_
      have held := (List.mem_filter.mp listed).2
      have slot : y.slot k = s.slot k := as.slot
      have now : y.now = s.now := as.now
      rw [drainCall_cases, slot, if_pos held, State.refOf, slot, now]
      cases (s.slot k).call.bind (fun c => c.owner) <;> rfl
    · rintro ⟨c, used, holds⟩
      rw [slots, if_pos ((Option.any_eq_true _ _).mpr ⟨c, used, (holdsLegOn_iff gs c).mpr holds⟩)]
    · rw [slots, if_neg]
      intro held
      obtain ⟨c, used, holds⟩ := (Option.any_eq_true _ _).mp held
      obtain ⟨inbound, outbound⟩ := apart c used
      rcases (holdsLegOn_iff gs c).mp holds with listed | ⟨l, leg, listed⟩
      · exact inbound listed
      · exact outbound l leg listed
  · obtain ⟨canonical, -, -, -, orphans, -⟩ := id sound
    have mine : l.port = p := of_decide_eq_true (List.find?_some (p := fun x : PortLoss => decide (x.port = p)) found)
    have rises := slotsOwnedBy_rising canonical p
    have once : (slotsOwnedBy s p).Nodup := rises.imp Nat.ne_of_lt
    have acts := loseCall_onSlot p
    have run := exec_callTablePortLoss_of_some found
    rw [takePortLoss_eq] at run
    obtain ⟨w, lost⟩ : ∃ w, w = loseCalls l (lossTaken l s) := ⟨_, rfl⟩
    rw [← lost] at run
    have answer : ∀ {a b c}, lossCounts (lossTaken l s) l = (a, b, c) →
        ∃ v, exec (.callTablePortLoss p) s = .next v ∧
          v = l.detachTag.elim w (fun tag => compose p ⟨145, tag, .ok, .detachDone a b c⟩ w) := fun {a b c} counts =>
      ⟨_, run, by rw [counts, sendDetachDone_eq, mine]⟩
    have tag : ∀ (v : State) (f : Byte → State),
        v = l.detachTag.elim w f → v = (match l.detachTag with | some tag => f tag | none => w) := fun v f h => by
      rw [h]
      cases l.detachTag <;> rfl
    by_cases someUp : ∃ q, l.partner = some q ∧ (s.port q).state = .up
    · obtain ⟨q, partner, up⟩ := someUp
      have taker : upPartner (lossTaken l s) l = some q := upPartner_of_up partner up
      have takes : w = takeOver l.port q (lossTaken l s) := by simp only [lost, loseCalls, taker]
      obtain ⟨slot, calls, told⟩ := takeOver_spec canonical l takes
      rw [mine] at slot told
      have counts : lossCounts (lossTaken l s) l = ((slotsOwnedBy s p).length, 0, 0) := by
        rw [lossCounts_of_up taker, mine]
        rfl
      obtain ⟨v, run, composed⟩ := answer counts
      refine ⟨v, w, slotsOwnedBy s p, _, 0, 0, run, tag v _ composed, by rw [calls]; rfl, (rising_iff _).mpr rises,
        by rw [calls, ← mine]; rfl, mem_slotsOwnedBy canonical p, fun k apart => by rw [slot, if_neg apart], ?_,
        fun none => absurd up (none q partner)⟩
      rintro q' partner' -
      obtain rfl : q = q' := Option.some.inj (partner.symm.trans partner')
      refine ⟨rfl, rfl, rfl, by rw [calls]; rfl, fun k listed x used => ?_, told⟩
      rw [slot, if_pos listed, used]
      rfl
    · have none : ∀ q, l.partner = some q → (s.port q).state ≠ .up := fun q partner up => someUp ⟨q, partner, up⟩
      have noTaker : upPartner (lossTaken l s) l = Option.none := upPartner_of_none none
      have folded : w = (slotsOwnedBy s p).foldl (loseCall p) (lossTaken l s) := by
        simp only [lost, loseCalls, noTaker, mine]
        rfl
      obtain ⟨b, c, counts, total, orphanCount⟩ := lossCounts_of_none noTaker
      have ownedSame : slotsOwnedBy (lossTaken l s) l.port = slotsOwnedBy s p := by rw [mine]; rfl
      rw [ownedSame] at total orphanCount
      have free : ∀ k ∈ slotsOwnedBy s p, k ∉ (lossTaken l s).calls.orphans := fun k listed orphan => by
        obtain ⟨x, used, owner⟩ := (mem_slotsOwnedBy canonical p k).mp listed
        obtain ⟨y, used', ownerless⟩ := (orphans k).mp orphan
        obtain rfl := Option.some.inj (used.symm.trans used')
        rw [ownerless] at owner
        cases owner
      have calls := acts.foldl_calls (slotsOwnedBy s p) (lossTaken l s)
      rw [← folded] at calls
      have offers : w.calls.offers =
          s.calls.offers.map (fun o => if o.sender.port = p then { o with loss := some l.partner } else o) := by
        rw [calls, ← mine]
        rfl
      obtain ⟨v, run, composed⟩ := answer counts
      refine ⟨v, w, slotsOwnedBy s p, 0, b, c, run, tag v _ composed, by rw [calls]; rfl, (rising_iff _).mpr rises, offers,
        mem_slotsOwnedBy canonical p, fun k apart => ?_, fun q partner up => absurd up (none q partner), fun _ => ⟨rfl, total,
        ?_, fun k listed x used => ?_, ?_, orphanCount⟩⟩
      · rw [folded]
        exact acts.foldl_other apart _
      · have start : lossTaken l s =
            { s with calls := { s.calls with losses := s.calls.losses.erase l, offers := w.calls.offers } } := by
          rw [offers, ← mine]
          rfl
        rw [← start]
        refine folded.trans (acts.foldl_congr once _ fun y k listed as => ?_)
        obtain ⟨x, used, -⟩ := (mem_slotsOwnedBy canonical p k).mp listed
        have slot : y.slot k = s.slot k := as.slot
        have now : y.now = s.now := as.now
        have limit : y.calls.orphanLimit = s.calls.orphanLimit := as.limit
        rw [loseCall_eq p (slot ▸ used), State.refOf, slot, now, limit, used]
        simp only [Option.any_some, decide_eq_true_eq]
      · rw [folded]
        refine acts.foldl_mem once listed fun y as => ?_
        have slot : y.slot k = s.slot k := as.slot
        have now : y.now = s.now := as.now
        have limit : y.calls.orphanLimit = s.calls.orphanLimit := as.limit
        rw [loseCall_slot_same p (slot ▸ used), slot, now, limit]
      · rw [folded, foldl_loseCall_orphans p once free]
        rfl

end Sys2Proof.Machine
end

section
/-! CLEAR_TRAFFIC (R127, R26): the end of every record, the prices and the reference counts, and the tariff bank that they
leave; the plant after it; and the proof of O37. -/

namespace Sys2Proof.Machine

/-! ## The end of one record -/

theorem clearCall_of_none {s : State} {k : Nat} (free : (s.slot k).call = none) : clearCall s k = s := by
  simp only [clearCall, free]

theorem clearCall_of_some {s : State} {k : Nat} {c : Call} (used : (s.slot k).call = some c) :
    clearCall s k = freeSlot k (priceAndLower (s.refOf k) c .trafficCleared s.now true s) := by
  simp only [clearCall, used]

theorem freeSlot_slot (k : Nat) (s : State) (j : Nat) :
    (freeSlot k s).slot j = if j = k then ⟨nextGeneration (s.slot k).generation, none⟩ else s.slot j :=
  Table.get_set _ _ _ _

/-- R127: what the end of a record leaves of its slot and of the queued reselections. -/
theorem clearCall_calls {s : State} {k : Nat} {c : Call} (used : (s.slot k).call = some c) :
    (clearCall s k).calls =
      { s.calls with
        slots := s.calls.slots.set k ⟨nextGeneration (s.slot k).generation, none⟩
        reselections := s.calls.reselections.filter (fun r => decide (r ≠ s.refOf k)) } := by
  have calls := (priceAndLower_billed (s.refOf k) c .trafficCleared s.now true s).calls
  rw [clearCall_of_some used]
  generalize priceAndLower (s.refOf k) c .trafficCleared s.now true s = t at calls
  simp only [freeSlot, State.setSlot, State.refOf, State.slot, calls]
  rfl

theorem clearCall_slot {s : State} {k : Nat} {c : Call} (used : (s.slot k).call = some c) (j : Nat) :
    (clearCall s k).slot j = if j = k then ⟨nextGeneration (s.slot k).generation, none⟩ else s.slot j := by
  show (clearCall s k).calls.slots.get j = _
  rw [clearCall_calls used]
  exact Table.get_set _ _ _ _

theorem clearCall_now (s : State) (k : Nat) : (clearCall s k).now = s.now := by
  cases used : (s.slot k).call with
  | none => rw [clearCall_of_none used]
  | some c =>
    rw [clearCall_of_some used]
    exact priceAndLower_now _ _ _ _ _ _

theorem clearCall_onSlot : OnSlot clearCall where
  other s k j other := by
    cases used : (s.slot k).call with
    | none => rw [clearCall_of_none used]
    | some c => rw [clearCall_slot used, if_neg other]
  now := clearCall_now
  calls s k := by
    cases used : (s.slot k).call with
    | none => rw [clearCall_of_none used]
    | some c => rw [clearCall_calls used]

/-- R127: the end of a record bills it and changes the call table; every other block stays. -/
theorem clearCall_blocks (s : State) (k : Nat) :
    (clearCall s k).plant = s.plant ∧ (clearCall s k).service = s.service ∧ (clearCall s k).analyser = s.analyser ∧
      (clearCall s k).routes = s.routes := by
  cases used : (s.slot k).call with
  | none =>
    rw [clearCall_of_none used]
    exact ⟨rfl, rfl, rfl, rfl⟩
  | some c =>
    have billed := priceAndLower_billed (s.refOf k) c .trafficCleared s.now true s
    rw [clearCall_of_some used]
    exact ⟨billed.plant, billed.service, billed.analyser, billed.routes⟩

theorem foldl_clearCall_blocks (ks : List Nat) (s : State) :
    (ks.foldl clearCall s).plant = s.plant ∧ (ks.foldl clearCall s).service = s.service ∧
      (ks.foldl clearCall s).analyser = s.analyser ∧ (ks.foldl clearCall s).routes = s.routes := by
  induction ks generalizing s with
  | nil => exact ⟨rfl, rfl, rfl, rfl⟩
  | cons k ks ih =>
    obtain ⟨plant, service, analyser, routes⟩ := clearCall_blocks s k
    obtain ⟨plant', service', analyser', routes'⟩ := ih (clearCall s k)
    exact ⟨plant'.trans plant, service'.trans service, analyser'.trans analyser, routes'.trans routes⟩

/-- R118: the records ended leave no reselection of theirs queued. -/
theorem foldl_clearCall_reselections {ks : List Nat} (once : ks.Nodup) {s : State}
    (used : ∀ k ∈ ks, (s.slot k).call.isSome = true) {r : CallRef}
    (queued : r ∈ (ks.foldl clearCall s).calls.reselections) :
    r ∈ s.calls.reselections ∧ ∀ k ∈ ks, r ≠ s.refOf k := by
  induction ks generalizing s with
  | nil => exact ⟨queued, fun _ none => nomatch none⟩
  | cons k ks ih =>
    obtain ⟨apart, rest⟩ := List.nodup_cons.mp once
    obtain ⟨first, others⟩ := List.forall_mem_cons.mp used
    obtain ⟨c, first⟩ := Option.isSome_iff_exists.mp first
    have same : ∀ j ∈ ks, (clearCall s k).slot j = s.slot j := fun j listed =>
      clearCall_onSlot.other s k j (ne_of_mem_of_not_mem listed apart)
    obtain ⟨before, ne⟩ := ih rest (fun j listed => by rw [same j listed]; exact others j listed) queued
    rw [clearCall_calls first] at before
    obtain ⟨before, here⟩ := List.mem_filter.mp before
    refine ⟨before, List.forall_mem_cons.mpr ⟨of_decide_eq_true here, fun j listed => ?_⟩⟩
    have ne := ne j listed
    rwa [State.refOf, same j listed] at ne

/-! ## Reference counts and prices (R127, R135, R144) -/

/-- R135: how many of some slots of a state hold ANSWERED calls bound to the generation of a number. -/
def boundCount (u : State) (number : Nat) (ks : List Nat) : Nat := ks.countP (boundTo u number)

/-- R135: the banks of a state with the counts of the calls in some of its slots alone. -/
def countedBanks (u : State) (ks : List Nat) : TariffStore :=
  { u.tariff with
    live := { u.tariff.live with references := boundCount u u.tariff.live.number ks }
    retired := u.tariff.retired.map (fun b => { b with references := boundCount u b.number ks }) }

/-- R144: the end of all calls but those in some slots lets the held activation of a state take place. -/
def FreesHeld (u : State) (ks : List Nat) : Prop :=
  u.tariff.staging.state = .held ∧ ∃ b, u.tariff.retired = some b ∧ b.references ≠ 0 ∧ boundCount u b.number ks = 0

/-- R127, R135, R144: the tariff store and the route memory once every call of `u` but those in the slots `ks` is ended. -/
structure Clearing (u : State) (ks : List Nat) (y : State) : Prop where
  kept : ¬FreesHeld u ks → y.tariff = countedBanks u ks ∧ y.memory = u.memory
  freed : FreesHeld u ks → ∀ g, u.tariff.staging.generation = some g →
    y.tariff =
        { countedBanks u ks with
          retired := some (countedBanks u ks).live, live := ⟨g.number, 0, g.tariffs⟩, staging := .empty } ∧
      y.memory = (invalidateAll u).memory

theorem boundTo_iff {u : State} {k : Nat} {c : Call} (used : (u.slot k).call = some c) (n : Nat) :
    boundTo u n k = true ↔ c.state = .answered ∧ ∃ a, c.answer = some a ∧ a.generation = n := by
  simp only [boundTo, used, Bool.and_eq_true, beq_iff_eq]
  cases c.answer <;> simp

theorem boundCount_cons {u : State} {k : Nat} (n : Nat) (ks : List Nat) :
    boundCount u n (k :: ks) = boundCount u n ks + if boundTo u n k = true then 1 else 0 := List.countP_cons

theorem boundCount_cons_of_not {u : State} {k n : Nat} (h : ¬boundTo u n k = true) (ks : List Nat) :
    boundCount u n (k :: ks) = boundCount u n ks := List.countP_cons_of_neg h

/-- A slot whose call is bound to no bank changes nothing of what is left to clear. -/
theorem Clearing.congr {u y z : State} {ks js : List Nat} (h : Clearing u ks y)
    (counts : ∀ n, boundCount u n ks = boundCount u n js) (tariff : z.tariff = y.tariff) (memory : z.memory = y.memory) :
    Clearing u js z := by
  have banks : countedBanks u ks = countedBanks u js := by simp only [countedBanks, counts]
  have frees : FreesHeld u ks ↔ FreesHeld u js := by simp only [FreesHeld, counts]
  refine ⟨fun stays => ?_, fun frees' g staged => ?_⟩
  · rw [tariff, memory, ← banks]
    exact h.kept (mt frees.mp stays)
  · rw [tariff, memory, ← banks]
    exact h.freed (frees.mpr frees') g staged

theorem nextNumber_ne (n : Nat) : nextNumber n ≠ n := by
  unfold nextNumber
  omega

section
variable {u : State} (tariffSound : TariffSound u)
include tariffSound

theorem TariffSound.retired_ne {b : BankRecord} (retired : u.tariff.retired = some b) :
    u.tariff.live.number ≠ b.number := by
  obtain ⟨-, -, -, retiredSound, -⟩ := tariffSound
  rw [(retiredSound b retired).2]
  exact nextNumber_ne _

theorem TariffSound.staged_ne {g : StagedGeneration} (staged : u.tariff.staging.generation = some g) :
    g.number ≠ u.tariff.live.number := by
  obtain ⟨-, -, -, -, stagedSound, -⟩ := tariffSound
  rw [stagedSound g staged]
  exact nextNumber_ne _

theorem TariffSound.staged_of_held (held : u.tariff.staging.state = .held) :
    ∃ g, u.tariff.staging.generation = some g := by
  obtain ⟨-, -, -, -, -, empty, -⟩ := tariffSound
  refine Option.ne_none_iff_exists'.mp fun none => ?_
  rw [empty.mp none] at held
  cases held

end

theorem Clearing.start {u : State} (references : ReferencesSound u) : Clearing u u.slotsInUse u := by
  obtain ⟨live, retired, -⟩ := references
  have banks : countedBanks u u.slotsInUse = u.tariff := by
    have same : u.tariff.retired.map (fun b => { b with references := boundCount u b.number u.slotsInUse }) =
        u.tariff.retired := by
      cases here : u.tariff.retired with
      | none => rfl
      | some b => rw [Option.map_some, boundCount, ← retired b here]
    rw [countedBanks, same, boundCount, ← live]
  exact ⟨fun _ => ⟨banks.symm, rfl⟩, fun ⟨_, b, here, bound, gone⟩ => absurd ((retired b here).trans gone) bound⟩

section
variable {u y : State} {k : Nat} {ks : List Nat} {c : Call} {a : AnswerFacts} (sound : TariffSound u)
  (used : (u.slot k).call = some c) (answered : c.state = .answered) (facts : c.answer = some a)
include sound used answered facts

/-- R135: a call bound to the live bank counts there alone. -/
theorem boundCount_of_live (live : a.generation = u.tariff.live.number) :
    boundCount u u.tariff.live.number (k :: ks) = boundCount u u.tariff.live.number ks + 1 ∧
      ∀ b, u.tariff.retired = some b → boundCount u b.number (k :: ks) = boundCount u b.number ks := by
  refine ⟨?_, fun b retired => boundCount_cons_of_not ?_ ks⟩
  · rw [boundCount_cons, if_pos ((boundTo_iff used _).mpr ⟨answered, a, facts, live⟩)]
  · rw [boundTo_iff used]
    rintro ⟨-, x, same, number⟩
    obtain rfl := Option.some.inj (facts.symm.trans same)
    exact sound.retired_ne retired (live.symm.trans number)

/-- R135: a call bound to the retired bank counts there alone. -/
theorem boundCount_of_retired {b : BankRecord} (retired : u.tariff.retired = some b) (number : a.generation = b.number) :
    boundCount u u.tariff.live.number (k :: ks) = boundCount u u.tariff.live.number ks ∧
      boundCount u b.number (k :: ks) = boundCount u b.number ks + 1 := by
  refine ⟨boundCount_cons_of_not ?_ ks, ?_⟩
  · rw [boundTo_iff used]
    rintro ⟨-, x, same, live⟩
    obtain rfl := Option.some.inj (facts.symm.trans same)
    exact sound.retired_ne retired (live.symm.trans number)
  · rw [boundCount_cons, if_pos ((boundTo_iff used _).mpr ⟨answered, a, facts, number⟩)]

/-- R135, R144: the lowering for a bound call leaves the counts of the calls that are left. -/
theorem Clearing.lower (references : ReferencesSound u) (listed : k ∈ u.slotsInUse) (h : Clearing u (k :: ks) y) :
    Clearing u ks (lower a.generation y) := by
  obtain ⟨-, retiredCount, bound⟩ := references
  by_cases live : a.generation = u.tariff.live.number
  · obtain ⟨liveCount, others⟩ := boundCount_of_live (ks := ks) sound used answered facts live
    have retired : u.tariff.retired.map (fun b => { b with references := boundCount u b.number (k :: ks) }) =
        u.tariff.retired.map (fun b => { b with references := boundCount u b.number ks }) :=
      Option.map_congr fun b here => by rw [others b here]
    have frees : FreesHeld u (k :: ks) ↔ FreesHeld u ks :=
      and_congr_right fun _ => exists_congr fun b => and_congr_right fun here => by rw [others b here]
    refine ⟨fun stays => ?_, fun frees' g staged => ?_⟩
    · obtain ⟨tariff, memory⟩ := h.kept (mt frees.mp stays)
      rw [lower_live (by rw [tariff]; exact live.symm)]
      refine ⟨?_, memory⟩
      simp only [tariff, countedBanks, liveCount, retired, Nat.add_sub_cancel]
    · obtain ⟨tariff, memory⟩ := h.freed (frees.mpr frees') g staged
      rw [lower_retired (b := (countedBanks u (k :: ks)).live)]
      · refine ⟨?_, memory⟩
        simp only [tariff, countedBanks, liveCount, Nat.add_sub_cancel]
      · rw [tariff, live]
        exact sound.staged_ne staged
      · rw [tariff]
      · exact live.symm
      · rw [tariff]
        exact .inr (show Staging.empty.state ≠ .held by decide)
  · obtain ⟨b, retired, number⟩ := (bound k c a used facts).resolve_left live
    obtain ⟨liveCount, retiredOne⟩ := boundCount_of_retired (ks := ks) sound used answered facts retired number
    have positive : b.references ≠ 0 := by
      rw [retiredCount b retired]
      exact (List.countP_pos_iff.mpr ⟨k, listed, (boundTo_iff used _).mpr ⟨answered, a, facts, number⟩⟩).ne'
    have notYet : ¬FreesHeld u (k :: ks) := by
      rintro ⟨-, x, same, -, none⟩
      obtain rfl := Option.some.inj (retired.symm.trans same)
      omega
    obtain ⟨tariff, memory⟩ := h.kept notYet
    have here : y.tariff.retired = some { b with references := boundCount u b.number ks + 1 } := by
      rw [tariff, countedBanks, retired, Option.map_some, retiredOne]
    have other : y.tariff.live.number ≠ b.number := by
      rw [tariff]
      exact sound.retired_ne retired
    have staging : y.tariff.staging = u.tariff.staging := by rw [tariff]; rfl
    have banks : { y.tariff with retired := some { b with references := boundCount u b.number ks } } =
        countedBanks u ks := by
      simp only [tariff, countedBanks, liveCount, retired, Option.map_some]
    rw [number]
    refine ⟨fun stays => ?_, fun ⟨held, x, same, _, gone⟩ g staged => ?_⟩
    · rw [lower_retired other here rfl]
      · exact ⟨banks, memory⟩
      · rw [staging]
        by_contra both
        obtain ⟨last, held⟩ := not_or.mp both
        exact stays ⟨not_not.mp held, b, retired, positive, not_not.mp last⟩
    · obtain rfl := Option.some.inj (retired.symm.trans same)
      rw [lower_activates (b := { b with references := boundCount u b.number ks + 1 }) here other.symm (by rw [gone])
        (by rw [staging]; exact held), activate_of_some (by exact (congrArg _ staging).trans staged)]
      rw [(notifyAllUp_told _ _).tariff, (notifyAllUp_told _ _).memory]
      refine ⟨?_, ?_⟩
      · simp only [activated, invalidateAll, invalidate, tariff, countedBanks, liveCount]
      · simp only [activated, invalidateAll, invalidate, memory]

/-- R127: a bound call's generation keeps its contents until the call is ended. -/
theorem Clearing.contents (references : ReferencesSound u) (h : Clearing u (k :: ks) y) :
    ∃ t, tariffsOf u a.generation = some t ∧ tariffsOf y a.generation = some t := by
  obtain ⟨-, -, bound⟩ := references
  by_cases live : a.generation = u.tariff.live.number
  · refine ⟨u.tariff.live.tariffs, if_pos live.symm, ?_⟩
    by_cases frees : FreesHeld u (k :: ks)
    · obtain ⟨g, staged⟩ := sound.staged_of_held frees.1
      obtain ⟨tariff, -⟩ := h.freed frees g staged
      simp only [tariffsOf, tariff]
      rw [if_neg (live ▸ sound.staged_ne staged)]
      exact if_pos live.symm
    · obtain ⟨tariff, -⟩ := h.kept frees
      simp only [tariffsOf, tariff]
      exact if_pos live.symm
  · obtain ⟨b, retired, number⟩ := (bound k c a used facts).resolve_left live
    obtain ⟨-, retiredOne⟩ := boundCount_of_retired (ks := ks) sound used answered facts retired number
    have notYet : ¬FreesHeld u (k :: ks) := by
      rintro ⟨-, x, same, -, none⟩
      obtain rfl := Option.some.inj (retired.symm.trans same)
      omega
    obtain ⟨tariff, -⟩ := h.kept notYet
    refine ⟨b.tariffs, ?_, ?_⟩
    · simp only [tariffsOf, retired, if_pos number.symm]
      exact if_neg fun same => live same.symm
    · simp only [tariffsOf, tariff, countedBanks, retired, Option.map_some, if_pos number.symm]
      exact if_neg fun same => live same.symm

end

/-- R127: the end of one more record prices it and lowers its bank's count. -/
theorem Clearing.step {u y : State} {k : Nat} {ks : List Nat} (sound : TariffSound u) (references : ReferencesSound u)
    (fit : ∀ c, (u.slot k).call = some c → FieldsFit c) (listed : k ∈ u.slotsInUse) (as : SlotAsIn u y k)
    (h : Clearing u (k :: ks) y) :
    Clearing u ks (clearCall y k) ∧
      (clearCall y k).settlement =
        { y.settlement with handed := y.settlement.handed ++ (clearedPrice u k).toList } := by
  cases used : (u.slot k).call with
  | none =>
    rw [clearCall_of_none (by rw [as.slot, used])]
    refine ⟨h.congr (fun n => boundCount_cons_of_not (by simp [boundTo, used]) ks) rfl rfl, ?_⟩
    simp [clearedPrice, used]
  | some c =>
    obtain ⟨leg, -, -, -, facts, -⟩ := fit c used
    have ref : y.refOf k = u.refOf k := by rw [State.refOf, as.slot]; rfl
    rw [clearCall_of_some (by rw [as.slot, used]), as.now, ref]
    by_cases answered : c.state = .answered
    · obtain ⟨l, leg⟩ := Option.isSome_iff_exists.mp (leg (.inl answered))
      obtain ⟨a, facts⟩ := Option.isSome_iff_exists.mp (facts.mpr answered)
      obtain ⟨t, before, now⟩ := h.contents sound used answered facts references
      have lowered : Clearing u ks
          (priceAndLower (u.refOf k) c .trafficCleared u.now true y) := by
        rw [priceAndLower_of_answered _ _ _ _ _ _ answered facts leg,
          priceRelease_eq (r := pricedRelease (u.refOf k) c a l .trafficCleared u.now true) now]
        exact Clearing.lower sound used answered facts references listed (h.congr (fun _ => rfl) rfl rfl)
      refine ⟨lowered.congr (fun _ => rfl) rfl rfl, ?_⟩
      show (priceAndLower (u.refOf k) c .trafficCleared u.now true y).settlement = _
      rw [(priceAndLower_spec answered facts leg now (u.refOf k) .trafficCleared u.now true rfl).1]
      have price : (clearedPrice u k).toList =
          if c.inCarrier = 0 ∧ l.carrier = 0 then []
          else [price t (pricedRelease (u.refOf k) c a l .trafficCleared u.now true)] := by
        simp only [clearedPrice, used, answered, facts, leg, before]
        split <;> rfl
      rw [price]
    · rw [priceAndLower_of_not_answered _ _ _ _ _ _ answered]
      refine ⟨h.congr (fun n => boundCount_cons_of_not ?_ ks) rfl rfl, ?_⟩
      · rw [boundTo_iff used]
        exact fun both => answered both.1
      · have none : clearedPrice u k = none := by
          simp only [clearedPrice, used]
          split
          · next state _ _ => exact absurd state answered
          · rfl
        rw [none]
        exact congrArg (fun l => { y.settlement with handed := l }) (List.append_nil _).symm

/-- R127: the end of the records in some slots, with the prices handed on in the order of the slots. -/
theorem Clearing.fold {u : State} (sound : TariffSound u) (references : ReferencesSound u)
    (fit : ∀ k c, (u.slot k).call = some c → FieldsFit c) {ks : List Nat} (once : ks.Nodup)
    (listed : ∀ k ∈ ks, k ∈ u.slotsInUse) {y : State} (as : ∀ k ∈ ks, SlotAsIn u y k) (h : Clearing u ks y) :
    Clearing u [] (ks.foldl clearCall y) ∧
      (ks.foldl clearCall y).settlement =
        { y.settlement with handed := y.settlement.handed ++ ks.filterMap (clearedPrice u) } := by
  induction ks generalizing y with
  | nil => exact ⟨h, by simp⟩
  | cons k ks ih =>
    obtain ⟨apart, rest⟩ := List.nodup_cons.mp once
    obtain ⟨first, others⟩ := List.forall_mem_cons.mp listed
    obtain ⟨asFirst, asOthers⟩ := List.forall_mem_cons.mp as
    obtain ⟨step, settlement⟩ := h.step sound references (fit k) first asFirst
    have later : ∀ j ∈ ks, SlotAsIn u (clearCall y k) j := fun j listed =>
      { slot := (clearCall_onSlot.other y k j (ne_of_mem_of_not_mem listed apart)).trans (asOthers j listed).slot
        now := (clearCall_now y k).trans (asOthers j listed).now
        limit := (clearCall_onSlot.limit y k).trans (asOthers j listed).limit }
    obtain ⟨done, total⟩ := ih rest others later step
    refine ⟨done, total.trans ?_⟩
    rw [settlement]
    cases price : clearedPrice u k <;> simp [price]

/-! ## The plant after CLEAR_TRAFFIC (R26) -/

theorem definedGroups_nodup {s : State} (canonical : s.plant.groups.wf = true) : (definedGroups s).Nodup :=
  ((List.pairwise_map.mpr ((Table.wf_iff _).mp canonical).1).imp Nat.ne_of_lt).filter _

theorem rebuild_locked (s : State) (n : Nat) : (rebuild s n).plant.locked = s.plant.locked := by
  rw [rebuild_eq]
  cases s.group n <;> rfl

theorem foldl_rebuild_circuits (gs : List Nat) (s : State) :
    (gs.foldl rebuild s).plant.circuits = s.plant.circuits ∧ (gs.foldl rebuild s).plant.locked = s.plant.locked := by
  induction gs generalizing s with
  | nil => exact ⟨rfl, rfl⟩
  | cons n gs ih =>
    obtain ⟨circuits, locked⟩ := ih (rebuild s n)
    exact ⟨circuits.trans (rebuild_circuits s n), locked.trans (rebuild_locked s n)⟩

theorem rebuild_group_eq (s : State) (n m : Nat) :
    (rebuild s n).group m = if m = n then (s.group n).map (Group.counted (groupCircuits s n)) else s.group m := by
  rw [rebuild_eq]
  cases defined : s.group n with
  | none =>
    split
    · next here => rw [here]; exact defined
    · rfl
  | some g => exact setGroup_group s n m _

/-- R26: each of some different groups is rebuilt from its circuits. -/
theorem foldl_rebuild_group {gs : List Nat} (once : gs.Nodup) (s : State) (m : Nat) :
    (gs.foldl rebuild s).group m =
      if m ∈ gs then (s.group m).map (Group.counted (groupCircuits s m)) else s.group m := by
  induction gs generalizing s with
  | nil => rfl
  | cons n gs ih =>
    obtain ⟨apart, rest⟩ := List.nodup_cons.mp once
    have circuits : groupCircuits (rebuild s n) m = groupCircuits s m := by
      simp only [groupCircuits, (rebuild_circuits s n)]
    rw [List.foldl_cons, ih rest, circuits, rebuild_group_eq]
    by_cases here : m = n
    · rw [here, if_neg apart, if_pos rfl, if_pos List.mem_cons_self]
    · simp only [List.mem_cons, here, false_or, if_false]

/-- R26: with its circuits IDLE a group has none busy and none in guard. -/
theorem counted_of_idle {s : State} (canonical : s.plant.circuits.wf = true) (n : Nat) (g : Group)
    (idle : ∀ c e, s.circuit c = some e → e.occupancy = .idle) :
    ∃ i a b, g.counted (groupCircuits s n) =
      { g with idleSet := i, available := a, blockedIdle := b, busyIn := 0, busyOut := 0, inGuard := 0 } := by
  have none : ∀ k : Condition, k ≠ .blockedIdle → k ≠ .available → inCondition k (groupCircuits s n) = [] := by
    intro k notBlocked notAvailable
    refine inCondition_eq_nil canonical fun c e here _ => ?_
    rw [Equipped.condition_idle (idle c e here)]
    split
    · exact notBlocked.symm
    · exact notAvailable.symm
  refine ⟨(inCondition .available (groupCircuits s n)).map Prod.fst, (inCondition .available (groupCircuits s n)).length,
    (inCondition .blockedIdle (groupCircuits s n)).length, ?_⟩
  simp only [Group.counted, none .busyIn (by decide) (by decide), none .busyOut (by decide) (by decide),
    none .inGuard (by decide) (by decide), List.length_nil]

/-- R26: the plant with every circuit IDLE and every group rebuilt, before the groups' reports. -/
def idlePlant (s : State) : State := (definedGroups s).foldl rebuild (idleAll s)

theorem clearPlant_eq (s : State) : clearPlant s = takeReports (definedGroups s) s (idlePlant s) := rfl

theorem idlePlant_service (s : State) : (idlePlant s).service = s.service := (foldl_rebuild_spec _ _).1

theorem idlePlant_plant (s : State) :
    (idlePlant s).plant.circuits = (idleAll s).plant.circuits ∧ (idlePlant s).plant.locked = s.plant.locked :=
  foldl_rebuild_circuits _ _

theorem service_eq {x y : Service} {b : DrainBatch} (batch : x.batch = b) (sets : x.planSets = y.planSets)
    (losses : x.losses = y.losses) : x = { y with groups := x.groups, exhausted := x.exhausted, batch := b } := by
  rw [← batch, ← sets, ← losses]

section
variable {s : State} (sound : PlantSound s) (canonical : s.plant.groups.wf = true)
include sound

theorem idlePlant_circuit (c : Nat) : (idlePlant s).circuit c = idleRecord (s.circuit c) := by
  rw [State.circuit, (idlePlant_plant s).1]
  exact idleAll_circuit s c sound.1

include canonical

theorem idlePlant_group (n : Nat) :
    (s.group n = none → (idlePlant s).group n = none) ∧
    ∀ g, s.group n = some g → ∃ i a b, (idlePlant s).group n =
      some { g with idleSet := i, available := a, blockedIdle := b, busyIn := 0, busyOut := 0, inGuard := 0 } := by
  have group : (idlePlant s).group n = _ := foldl_rebuild_group (definedGroups_nodup canonical) (idleAll s) n
  have same : (idleAll s).group n = s.group n := rfl
  rw [same] at group
  refine ⟨fun undefined => ?_, fun g defined => ?_⟩
  · rw [group, undefined, Option.map_none, ite_self]
  · have idle : ∀ c e, (idleAll s).circuit c = some e → e.occupancy = .idle := fun c e here => by
      rw [idleAll_circuit s c sound.1] at here
      obtain ⟨x, -, rfl⟩ := Option.map_eq_some_iff.mp here
      rfl
    obtain ⟨i, a, b, counted⟩ := counted_of_idle (Table.mapValues_wf _ _ sound.1) n g idle
    refine ⟨i, a, b, ?_⟩
    rw [group, if_pos (mem_definedGroups (by rw [defined]; rfl)), defined, Option.map_some, counted]

theorem idlePlant_busyTotal (n : Nat) : (idlePlant s).busyTotal n = 0 := by
  obtain ⟨undefined, rebuilt⟩ := idlePlant_group sound canonical n
  cases defined : s.group n with
  | none => simp only [State.busyTotal, undefined defined]
  | some g =>
    obtain ⟨i, a, b, group⟩ := rebuilt g defined
    simp only [State.busyTotal, group, Group.busyTotal]

/-- R26, R37: with every circuit IDLE, a DRAINING batch completes with its pending groups out of service. -/
theorem clearPlant_batch (batch : BatchSound s) :
    (clearPlant s).service.batch =
        (if s.service.batch.state = .draining then .empty else s.service.batch) ∧
      ∀ n, (clearPlant s).svc n =
        { (derivedReport (definedGroups s) s (idlePlant s)).svc n with
          service :=
            if s.service.batch.state = .draining ∧ ⟨n, .pending⟩ ∈ s.service.batch.members then .outOfService
            else (s.svc n).service } := by
  obtain ⟨formed, -, running, fits⟩ := (batchSound_iff s).mp batch
  have service : ∀ n, ((derivedReport (definedGroups s) s (idlePlant s)).svc n).service = (s.svc n).service := fun n => by
    rw [derivedReport_state]
    simp only [State.svc, idlePlant_service]
  have same : (derivedReport (definedGroups s) s (idlePlant s)).service.batch = s.service.batch := by
    rw [derivedReport_batch, idlePlant_service]
  rw [clearPlant_eq, takeReports_eq]
  by_cases draining : s.service.batch.state = .draining
  · obtain ⟨result, out⟩ := completeIfDone_memberTests (s := derivedReport (definedGroups s) s (idlePlant s))
      (definedGroups s) (by rw [same]; exact formed.once) (by rw [same]; exact draining)
    have idle : ∀ n, (derivedReport (definedGroups s) s (idlePlant s)).busyTotal n = 0 := fun n => by
      rw [(derivedReport_served _ _ _).busyTotal, idlePlant_busyTotal sound canonical]
    have listed : ∀ n, ⟨n, .pending⟩ ∈ s.service.batch.members → n ∈ definedGroups s := fun n member => by
      obtain ⟨-, -, -, -, -, -, -, -, -, -, pending⟩ := batch
      exact mem_definedGroups ((pending n).1 member).1
    rw [completeIfDone_of_not_complete (foldl_memberTest_not_complete (by rw [same]; exact running) _)] at result out
    rw [same] at result out
    refine ⟨?_, fun n => ?_⟩
    · rw [result, if_pos draining]
      refine DrainBatch.settled_of_complete ((DrainBatch.complete_iff _).mpr ⟨.inl draining, fun m tested => ?_⟩)
      obtain ⟨x, member, rfl⟩ := List.mem_map.mp tested
      by_cases pending : x.result = .pending
      · rw [if_pos ⟨pending, listed x.group (pending ▸ member), idle x.group⟩]
        exact fun same => nomatch same
      · rwa [if_neg fun all => pending all.1]
    · rw [out n]
      by_cases member : ⟨n, .pending⟩ ∈ s.service.batch.members
      · rw [if_pos ⟨listed n member, member, idle n⟩, if_pos ⟨draining, member⟩]
      · rw [if_neg fun all => member all.2.1, if_neg fun both => member both.2, ← service n]
  · rw [foldl_memberTest_of_not_draining (by rw [same]; exact draining), same, if_neg draining]
    refine ⟨rfl, fun n => ?_⟩
    rw [if_neg fun both => draining both.1, ← service n]

/-- R26: what CLEAR_TRAFFIC does to the plant store and to the controller. -/
theorem clearPlant_spec (batch : BatchSound s) {v : State} (done : v = clearPlant s) :
    (∀ c, v.circuit c = (s.circuit c).map (fun e => { e with occupancy := .idle })) ∧ PlantSound v ∧
    (∀ n, s.group n = none → v.group n = none ∧ v.svc n = s.svc n) ∧
    (∀ n g, s.group n = some g →
      ∃ i a b,
        v.group n =
            some { g with idleSet := i, available := a, blockedIdle := b, busyIn := 0, busyOut := 0, inGuard := 0 } ∧
          v.svc n =
            { s.svc n with
              congestion := nextCongestion (s.svc n).congestion a g.threshold g.hysteresis
              service :=
                if s.service.batch.state = .draining ∧ ⟨n, .pending⟩ ∈ s.service.batch.members then .outOfService
                else (s.svc n).service }) ∧
    v.plant.locked = s.plant.locked ∧
    v.service =
      { s.service with
        groups := v.service.groups
        exhausted := v.service.exhausted
        batch := if s.service.batch.state = .draining then .empty else s.service.batch } := by
  obtain ⟨result, svc⟩ := clearPlant_batch sound canonical batch
  have served : Served (idlePlant s) (clearPlant s) := takeReports_served _ _ _
  have once := definedGroups_nodup canonical
  have before : ∀ n, (idlePlant s).svc n = s.svc n := fun n => by simp only [State.svc, idlePlant_service]
  subst done
  refine ⟨fun c => ?_, clearPlant_plantKept s sound, fun n undefined => ⟨?_, ?_⟩, fun n g defined => ?_, ?_, ?_⟩
  · rw [served.circuit, idlePlant_circuit sound]
    rfl
  · rw [served.group]
    exact (idlePlant_group sound canonical n).1 undefined
  · have apart : ⟨n, .pending⟩ ∉ s.service.batch.members := fun member => by
      obtain ⟨-, -, -, -, -, -, -, -, -, -, pending⟩ := batch
      have := ((pending n).1 member).1
      rw [undefined] at this
      cases this
    rw [svc, if_neg fun both => apart both.2, derivedReport_svc once,
      derivedSvc_of_none ((idlePlant_group sound canonical n).1 undefined), ite_self, before]
  · obtain ⟨i, a, b, group⟩ := (idlePlant_group sound canonical n).2 g defined
    refine ⟨i, a, b, (served.group n).trans group, ?_⟩
    rw [svc, derivedReport_svc once, if_pos (mem_definedGroups (by rw [defined]; rfl)), derivedSvc_of_some group, before]
  · rw [served.plant]
    exact (idlePlant_plant s).2
  · have rest := (foldl_memberTest_rest (definedGroups s) (derivedReport (definedGroups s) s (idlePlant s)))
    rw [← takeReports_eq, ← clearPlant_eq, derivedReport_service, idlePlant_service] at rest
    exact service_eq result rest.1 rest.2

end

/-! ## CLEAR_TRAFFIC (R127) -/

theorem exec_clearTraffic (r : Sender) (s : State) :
    exec (.clearTraffic r) s = request (.clearTraffic r) r RequestKind.clearTraffic.code handleClearTraffic s := rfl

theorem answeredIn_eq (s : State) (k : Nat) :
    answeredIn s k = (s.slot k).call.any (fun c => decide (c.state = .answered)) := by
  unfold answeredIn
  cases (s.slot k).call with
  | none => rfl
  | some c => cases h : c.state <;> rfl

/-- R127: the state with every record ended and the orphan list emptied, before the plant is cleared. -/
def recordsCleared (u : State) : State :=
  { u.slotsInUse.foldl clearCall u with
    calls := { (u.slotsInUse.foldl clearCall u).calls with orphans := [] } }

theorem clearTraffic_eq (u : State) : clearTraffic u = clearPlant (recordsCleared u) := rfl

/-- R127: each slot in use is freed under its next generation. -/
theorem recordsCleared_slot {u : State} (calls : CallsSound u) (k : Nat) :
    (recordsCleared u).slot k =
      if (u.slot k).call.isSome = true then ⟨nextGeneration (u.slot k).generation, none⟩ else u.slot k := by
  obtain ⟨canonical, -⟩ := calls
  have once : u.slotsInUse.Nodup := (slotsInUse_rising canonical).imp Nat.ne_of_lt
  have member := mem_slotsInUse canonical
  show (u.slotsInUse.foldl clearCall u).slot k = _
  split
  · next used =>
    refine clearCall_onSlot.foldl_mem once ((member k).mpr used) fun y as => ?_
    obtain ⟨c, used⟩ := Option.isSome_iff_exists.mp used
    rw [clearCall_slot (by rw [as.slot, used]), if_pos rfl, as.slot]
  · next free => exact clearCall_onSlot.foldl_other (mt (member k).mp free) u

/-- R127: no orphan and no queued reselection is left. -/
theorem recordsCleared_calls {u : State} (calls : CallsSound u) (legs : LegsSound u) :
    (recordsCleared u).calls =
      { u.calls with slots := (recordsCleared u).calls.slots, orphans := [], reselections := [] } := by
  obtain ⟨canonical, -⟩ := id calls
  obtain ⟨-, -, -, -, -, queued⟩ := legs
  have once : u.slotsInUse.Nodup := (slotsInUse_rising canonical).imp Nat.ne_of_lt
  have member := mem_slotsInUse canonical
  have none : (u.slotsInUse.foldl clearCall u).calls.reselections = [] := by
    refine List.eq_nil_iff_forall_not_mem.mpr fun r listed => ?_
    obtain ⟨before, apart⟩ := foldl_clearCall_reselections once (fun k listed => (member k).mp listed) listed
    obtain ⟨x, used, -⟩ := (queued r).mp before
    obtain ⟨generation, used⟩ := (u.call_eq_some_iff r x).mp used
    exact apart r.slot ((member _).mpr (by rw [used]; rfl)) (State.refOf_eq generation).symm
  show { (u.slotsInUse.foldl clearCall u).calls with orphans := [] } = _
  conv => lhs; rw [clearCall_onSlot.foldl_calls u.slotsInUse u, none]
  rfl

/-- R127: what the end of every record leaves: each slot free, no reselection queued, every price handed on, and the tariff
store with no call bound. -/
theorem recordsCleared_spec {u : State} (calls : CallsSound u) (legs : LegsSound u) (tariff : TariffSound u)
    (references : ReferencesSound u) :
    (∀ k, (recordsCleared u).slot k =
        if (u.slot k).call.isSome = true then ⟨nextGeneration (u.slot k).generation, none⟩ else u.slot k) ∧
      (recordsCleared u).calls =
        { u.calls with slots := (recordsCleared u).calls.slots, orphans := [], reselections := [] } ∧
      Clearing u [] (recordsCleared u) ∧
      (recordsCleared u).settlement =
        { u.settlement with
          handed := u.settlement.handed ++ u.slotsInUse.filterMap (clearedPrice u) } := by
  obtain ⟨canonical, -⟩ := id calls
  obtain ⟨-, -, fields, -⟩ := id legs
  have once : u.slotsInUse.Nodup := (slotsInUse_rising canonical).imp Nat.ne_of_lt
  obtain ⟨clearing, settlement⟩ := (Clearing.start references).fold tariff references
    (fun k c used => (fields k c used).2.2) once (fun _ listed => listed) (fun _ _ => ⟨rfl, rfl, rfl⟩)
  exact ⟨recordsCleared_slot calls, recordsCleared_calls calls legs, clearing.congr (fun _ => rfl) rfl rfl, settlement⟩

theorem recordsCleared_blocks (u : State) :
    (recordsCleared u).plant = u.plant ∧ (recordsCleared u).service = u.service ∧
      (recordsCleared u).analyser = u.analyser ∧ (recordsCleared u).routes = u.routes :=
  foldl_clearCall_blocks u.slotsInUse u

/-- R127: the slots in use priced in order are all slots priced in order. -/
theorem slotsInUse_filterMap {u : State} (sound : CallsSound u) {β : Type} {f : Nat → Option β}
    (free : ∀ k, (u.slot k).call = none → f k = none) : u.slotsInUse.filterMap f = (List.range 8192).filterMap f := by
  have none : ∀ k, ¬(u.slot k).call.any (fun _ => true) = true → f k = none := fun k unused => free k (by
    cases here : (u.slot k).call with
    | none => rfl
    | some c => exact absurd (by rw [here]; rfl) unused)
  have skip : ∀ l : List Nat, l.filterMap f = (l.filter (fun k => (u.slot k).call.any (fun _ => true))).filterMap f := by
    intro l
    rw [List.filterMap_filter]
    refine List.filterMap_congr fun k _ => ?_
    split
    · rfl
    · next unused => exact none k unused
  rw [skip u.slotsInUse, slotsInUse_filter sound, ← skip]

theorem clearedPrice_of_none {u : State} {k : Nat} (free : (u.slot k).call = none) : clearedPrice u k = none := by
  simp only [clearedPrice, free]

theorem boundCount_nil (u : State) (n : Nat) : boundCount u n [] = 0 := rfl

/-- Settles O37. -/
theorem clearTrafficEndsEveryCall : Obligations.ClearTrafficEndsEveryCall := by
  intro r s u plant calls legs levels tariff references batch takes
  have same := takes_blocks takes
  have plant : PlantSound u := by rw [same]; exact plant
  have calls : CallsSound u := by rw [same]; exact calls
  have legs : LegsSound u := by rw [same]; exact legs
  have canonical : u.plant.groups.wf = true := by rw [same]; exact levels.1
  have tariff : TariffSound u := by rw [same]; exact tariff
  have references : ReferencesSound u := by rw [same]; exact references
  have batch : BatchSound u := by rw [same]; exact batch
  obtain ⟨w, cleared⟩ : ∃ w, w = recordsCleared u := ⟨_, rfl⟩
  obtain ⟨slot, table, ⟨kept, freed⟩, settlement⟩ := recordsCleared_spec calls legs tariff references
  obtain ⟨plantSame, serviceSame, analyser, routes⟩ := recordsCleared_blocks u
  rw [← cleared] at slot table kept freed settlement plantSame serviceSame analyser routes
  have circuitSame : ∀ c, w.circuit c = u.circuit c := fun c => by simp only [State.circuit, plantSame]
  have groupSame : ∀ n, w.group n = u.group n := fun n => by simp only [State.group, plantSame]
  have svcSame : ∀ n, w.svc n = u.svc n := fun n => by simp only [State.svc, serviceSame]
  have batchW : BatchSound w := by
    simp only [BatchSound, serviceSame, svcSame, groupSame]
    exact batch
  obtain ⟨circuit, sound, undefined, defined, locked, service⟩ :=
    clearPlant_spec (plant.of_plant plantSame) (by rw [plantSame]; exact canonical) batchW (v := clearTraffic u)
      (by rw [cleared]; rfl)
  have planted : Planted w (clearTraffic u) := by
    rw [cleared]
    exact clearPlant_planted _
  obtain ⟨-, analyserV, routesV, memoryV, tariffV, settlementV, -⟩ := planted.sameElsewhere
  simp only [circuitSame, groupSame, svcSame, serviceSame, plantSame] at circuit undefined defined locked service
  have held : FreesHeld u [] ↔ u.tariff.staging.state = .held ∧ ∃ b, u.tariff.retired = some b ∧ b.references ≠ 0 := by
    simp only [FreesHeld, boundCount_nil, and_true]
  refine ⟨clearTraffic u, ?_, fun k => ?_, ?_, circuit, sound, undefined, defined, locked, service, ?_, fun free => ?_,
    fun b g isHeld retired bound staged => ?_, analyserV.trans analyser, routesV.trans routes, ?_⟩
  · refine answers_of rfl (exec_clearTraffic r s) takes ?_
    rw [handleClearTraffic, funext (answeredIn_eq u)]
  · show (clearTraffic u).calls.slots.get k = _
    rw [planted.calls]
    exact slot k
  · rw [planted.calls]
    exact table
  · rw [settlementV, settlement, slotsInUse_filterMap calls fun k => clearedPrice_of_none]
  · have stays : ¬FreesHeld u [] := by
      rw [held]
      rintro ⟨isHeld, b, retired, bound⟩
      exact free.elim (absurd isHeld) fun zero => bound (zero b retired)
    rw [tariffV, memoryV]
    exact kept stays
  · obtain ⟨tariffW, memoryW⟩ := freed (held.mpr ⟨isHeld, b, retired, bound⟩) g staged
    refine ⟨?_, fun memory k i e => ?_⟩
    · rw [tariffV, tariffW]
      rfl
    · have flushed : (clearTraffic u).memorySet k = (invalidateAll u).memorySet k := by
        rw [State.memorySet, memoryV, memoryW]
        rfl
      rw [flushed]
      exact way_invalidateAll_ne (by rw [same]; exact memory.1) k i e
  · exact (clearTraffic_kept u).1.1

end Sys2Proof.Machine
end

section
/-! ACCUMULATION and SET_EXPOSURE_LIMIT (R167, R168, R170, R173, R174), and the proof of O46. -/

namespace Sys2Proof.Machine

/-! ## Accumulation (R167) -/

theorem exec_accumulation_of_nil {s : State} (nothing : s.settlement.handed = []) : exec .accumulation s = .next s := by
  show execAccumulation s = _
  simp only [execAccumulation, nothing]

theorem exec_accumulation_of_cons {s : State} {x : PricedResult} {rest : List PricedResult}
    (oldest : s.settlement.handed = x :: rest) :
    exec .accumulation s = .next (accumulate x { s with settlement := { s.settlement with handed := rest } }) := by
  show execAccumulation s = _
  simp only [execAccumulation, oldest]

theorem State.pair_setPair (s : State) (k j : Nat) (t : PairTotals) :
    (s.setPair k t).pair j = if j = k then t else s.pair j := Table.get_set _ _ _ _

theorem State.carrier_setCarrier (s : State) (c d : Nat) (r : Carrier) :
    (s.setCarrier c r).carrier d = if d = c then r else s.carrier d := Table.get_set _ _ _ _

/-- R167 steps 1 and 2: the pair and the inbound carrier with their totals up. -/
def totalled (x : PricedResult) (s : State) : State :=
  let paired := s.setPair (pairKey x.inCarrier x.outCarrier)
    (addToPair x (s.pair (pairKey x.inCarrier x.outCarrier)))
  paired.setCarrier x.inCarrier (addToCarrier x (paired.carrier x.inCarrier))

theorem accumulate_eq (x : PricedResult) (s : State) :
    accumulate x s = evaluateHold (itemize x (totalled x s)) x.inCarrier := rfl

theorem totalled_settlementOnly (x : PricedResult) (s : State) : SettlementOnly s (totalled x s) :=
  (SettlementOnly.write s _).trans (SettlementOnly.write _ _)

theorem totalled_pair (x : PricedResult) (s : State) (j : Nat) :
    (totalled x s).pair j =
      if j = pairKey x.inCarrier x.outCarrier then addToPair x (s.pair j) else s.pair j := by
  show (s.setPair _ _).pair j = _
  rw [State.pair_setPair]
  split
  · next here => rw [here]
  · rfl

theorem totalled_carrier (x : PricedResult) (s : State) (c : Nat) :
    (totalled x s).carrier c = if c = x.inCarrier then addToCarrier x (s.carrier c) else s.carrier c := by
  rw [totalled, State.carrier_setCarrier]
  split
  · next here => rw [here]; rfl
  · rfl

theorem totalled_rest (x : PricedResult) (s : State) :
    (totalled x s).settlement =
      { s.settlement with pairs := (totalled x s).settlement.pairs, carriers := (totalled x s).settlement.carriers } := rfl

theorem itemize_settlementOnly (x : PricedResult) (s : State) : SettlementOnly s (itemize x s) := by
  unfold itemize
  split
  · exact (SettlementOnly.write s _).trans (judgeBacklog_settlementOnly _)
  · exact SettlementOnly.write s _

/-- R167 steps 3 and 4, R170: with room in the queue the record joins it and the backlog level is judged. -/
theorem itemize_of_room {x : PricedResult} {s : State} (room : s.settlement.queue.length < 4096) :
    (itemize x s).settlement =
      { s.settlement with
        queue := s.settlement.queue ++ [⟨s.settlement.period, x⟩]
        backlog := backlogAfter s.settlement.backlog (s.settlement.queue.length + 1) } := by
  have joins : itemize x s =
      judgeBacklog
        { s with settlement := { s.settlement with queue := s.settlement.queue ++ [⟨s.settlement.period, x⟩] } } :=
    if_pos room
  rw [joins, judgeBacklog_settlement, List.length_append]
  rfl

/-- R167 step 5: with the queue full its amounts go to the pair's unitemized fields. -/
theorem itemize_of_full {x : PricedResult} {s : State} (full : ¬s.settlement.queue.length < 4096) :
    itemize x s =
      s.setPair (pairKey x.inCarrier x.outCarrier) (addUnitemized x (s.pair (pairKey x.inCarrier x.outCarrier))) :=
  if_neg full

theorem itemize_pair (x : PricedResult) (s : State) (j : Nat) :
    (itemize x s).pair j =
      if j = pairKey x.inCarrier x.outCarrier ∧ ¬s.settlement.queue.length < 4096 then addUnitemized x (s.pair j)
      else s.pair j := by
  by_cases room : s.settlement.queue.length < 4096
  · rw [if_neg fun both => both.2 room, State.pair, itemize_of_room room]
    rfl
  · rw [itemize_of_full room, State.pair_setPair]
    by_cases here : j = pairKey x.inCarrier x.outCarrier
    · rw [if_pos here, if_pos ⟨here, room⟩, here]
    · rw [if_neg here, if_neg fun both => here both.1]

theorem itemize_carrier (x : PricedResult) (s : State) (c : Nat) : (itemize x s).carrier c = s.carrier c := by
  by_cases room : s.settlement.queue.length < 4096
  · rw [State.carrier, itemize_of_room room]
    rfl
  · rw [itemize_of_full room]
    rfl

theorem accumulate_settlementOnly (x : PricedResult) (s : State) : SettlementOnly s (accumulate x s) :=
  ((totalled_settlementOnly x s).trans (itemize_settlementOnly x _)).trans (evaluateHold_settlementOnly _ _)

theorem accumulate_pair (x : PricedResult) (s : State) (j : Nat) :
    (accumulate x s).pair j =
      if j = pairKey x.inCarrier x.outCarrier then
        if s.settlement.queue.length < 4096 then addToPair x (s.pair j) else addUnitemized x (addToPair x (s.pair j))
      else s.pair j := by
  have same : (accumulate x s).pair j = (itemize x (totalled x s)).pair j := by
    rw [State.pair, accumulate_eq, evaluateHold_rest]
    rfl
  have queue : (totalled x s).settlement.queue = s.settlement.queue := rfl
  rw [same, itemize_pair, totalled_pair, queue]
  by_cases here : j = pairKey x.inCarrier x.outCarrier
  · by_cases room : s.settlement.queue.length < 4096
    · rw [if_neg fun both => both.2 room, if_pos here, if_pos here, if_pos room]
    · rw [if_pos ⟨here, room⟩, if_pos here, if_pos here, if_neg room]
  · rw [if_neg fun both => here both.1, if_neg here, if_neg here]

theorem accumulate_carrier (x : PricedResult) (s : State) (c : Nat) :
    (accumulate x s).carrier c =
      if c = x.inCarrier then
        { addToCarrier x (s.carrier c) with
          hold := holdOf (s.carrier c).limit (addField (s.carrier c).total x.receivable) }
      else s.carrier c := by
  rw [accumulate_eq, carrier_evaluateHold]
  simp only [itemize_carrier, totalled_carrier]
  by_cases here : c = x.inCarrier
  · simp only [here, if_true]
    rfl
  · simp only [here, if_false]

/-- R167, R170: the rest of the settlement unit after an accumulation. -/
theorem accumulate_rest (x : PricedResult) (s : State) :
    (accumulate x s).settlement.handed = s.settlement.handed ∧
      (accumulate x s).settlement.period = s.settlement.period ∧
      (accumulate x s).settlement.closed = s.settlement.closed ∧
      (accumulate x s).settlement.queue =
        (if s.settlement.queue.length < 4096 then s.settlement.queue ++ [⟨s.settlement.period, x⟩]
         else s.settlement.queue) ∧
      (accumulate x s).settlement.backlog =
        if s.settlement.queue.length < 4096 then backlogAfter s.settlement.backlog (s.settlement.queue.length + 1)
        else s.settlement.backlog := by
  rw [accumulate_eq, evaluateHold_rest]
  by_cases room : s.settlement.queue.length < 4096
  · rw [if_pos room, if_pos room, itemize_of_room (s := totalled x s) room]
    exact ⟨rfl, rfl, rfl, rfl, rfl⟩
  · rw [if_neg room, if_neg room, itemize_of_full (s := totalled x s) room]
    exact ⟨rfl, rfl, rfl, rfl, rfl⟩

/-- R167, R168: what a priced result adds to its pair, by whether the queue has room for its record. -/
theorem accumulated_pair (x : PricedResult) (P : PairTotals) (room : Prop) [Decidable room] :
    (if room then addToPair x P else addUnitemized x (addToPair x P)) =
      { payable := addField P.payable x.payable
        receivable := addField P.receivable x.receivable
        calls := addField P.calls 1
        billed := addField P.billed x.billed
        unitemizedPayable :=
          if decide room = true then P.unitemizedPayable else addField P.unitemizedPayable x.payable
        unitemizedReceivable :=
          if decide room = true then P.unitemizedReceivable else addField P.unitemizedReceivable x.receivable
        unitemizedCalls := if decide room = true then P.unitemizedCalls else addField P.unitemizedCalls 1
        saturated :=
          P.saturated || reachesLimit P.payable x.payable || reachesLimit P.receivable x.receivable ||
            reachesLimit P.calls 1 || reachesLimit P.billed x.billed ||
            (!decide room &&
              (reachesLimit P.unitemizedPayable x.payable || reachesLimit P.unitemizedReceivable x.receivable ||
                reachesLimit P.unitemizedCalls 1)) } := by
  by_cases space : room
  · simp [space, addToPair]
  · simp [space, addToPair, addUnitemized, Bool.or_assoc]

/-! ## SET_EXPOSURE_LIMIT (R174) -/

theorem exec_setExposureLimit (r : Sender) (c : Nat) (limit : Option Nat) (s : State) :
    exec (.setExposureLimit r c limit) s =
      request (.setExposureLimit r c limit) r RequestKind.setExposureLimit.code (handleExposureLimit c limit) s := rfl

theorem handleExposureLimit_refuses {c : Nat} {limit : Option Nat} {u : State} {st : Status}
    (h : FirstOf [(63 < c, .outOfRange), (limit = none, .badRequest)] st) :
    handleExposureLimit c limit u = refuse st u := by
  rcases h with ⟨range, rfl⟩ | ⟨range, h⟩
  · exact if_pos range
  · have range : ¬Config.carriers ≤ c := range
    obtain ⟨rfl, rfl⟩ := h.resolve_right fun noCheck => noCheck.2
    exact if_neg range

theorem storeLimit_carrier (c l : Nat) (u : State) (d : Nat) :
    (storeLimit c l u).carrier d =
      if d = c then ⟨(u.carrier c).total, l, holdOf l (u.carrier c).total⟩ else u.carrier d := by
  rw [storeLimit, carrier_evaluateHold]
  simp only [State.carrier_setCarrier]
  split
  · next here => rfl
  · rfl

theorem storeLimit_settlementOnly (c l : Nat) (u : State) : SettlementOnly u (storeLimit c l u) :=
  (SettlementOnly.write u _).trans (evaluateHold_settlementOnly _ _)

theorem storeLimit_settlement (c l : Nat) (u : State) :
    (storeLimit c l u).settlement = { u.settlement with carriers := (storeLimit c l u).settlement.carriers } := by
  rw [storeLimit, evaluateHold_rest]
  rfl

/-- R173, R174: a limit that leaves the hold as it was is stored and nothing is told. -/
theorem storeLimit_of_same {c l : Nat} {u : State} (same : holdOf l (u.carrier c).total = (u.carrier c).hold) :
    (storeLimit c l u).ports = u.ports ∧ (storeLimit c l u).levels = u.levels := by
  rw [storeLimit, evaluateHold_of_same]
  · exact ⟨rfl, rfl⟩
  · rw [State.carrier_setCarrier_same]
    exact same

theorem storeLimit_level {c l : Nat} {u : State} (change : holdOf l (u.carrier c).total ≠ (u.carrier c).hold) :
    (storeLimit c l u).level ⟨.carrierHold, c⟩ = levelOf (holdOf l (u.carrier c).total) := by
  have limited : (u.setCarrier c { u.carrier c with limit := l }).carrier c = { u.carrier c with limit := l } :=
    State.carrier_setCarrier_same _ _ _
  rw [storeLimit, level_evaluateHold_same (by rw [limited]; exact change), limited]

theorem handleExposureLimit_stores {c n : Nat} (range : c ≤ 63) (u : State) :
    handleExposureLimit c (some n) u =
      ⟨storeLimit c (min n 1099511627775) u, if 1099511627775 < n then .adjusted else .ok,
        .exposure (u.carrier c).limit (min n 1099511627775) (u.carrier c).total
          (holdOf (min n 1099511627775) (u.carrier c).total)⟩ := by
  have inRange : ¬Config.carriers ≤ c := Nat.not_le.mpr (Nat.lt_succ_of_le range)
  have cap : Config.capMax = 1099511627775 := rfl
  rw [handleExposureLimit, if_neg inRange, clamp_zero, okOr_outside_zero, cap]
  simp only [storeLimit_carrier, if_true]

/-- Settles O46. -/
theorem accumulationAndHold : Obligations.AccumulationAndHold := by
  refine ⟨fun s x rest k P room pair totals space => ⟨exec_accumulation_of_nil, fun oldest => ?_⟩,
    fun r c limit s u takes => ⟨fun st h => ?_, ?_⟩⟩
  · obtain ⟨y, taken⟩ : ∃ y : State, y = { s with settlement := { s.settlement with handed := rest } } := ⟨_, rfl⟩
    have run := exec_accumulation_of_cons oldest
    rw [← taken] at run
    have pair : k = pairKey x.inCarrier x.outCarrier := pair
    have pairs : ∀ j, y.pair j = s.pair j := fun j => by rw [taken]; rfl
    have carriers : ∀ c, y.carrier c = s.carrier c := fun c => by rw [taken]; rfl
    have queue : y.settlement.queue = s.settlement.queue := by rw [taken]
    have backlog : y.settlement.backlog = s.settlement.backlog := by rw [taken]
    have written : SettlementOnly s y := by rw [taken]; exact SettlementOnly.write s _
    obtain ⟨handed, period, closed, joined, judged⟩ := accumulate_rest x y
    obtain ⟨frame, ports⟩ := written.trans (accumulate_settlementOnly x y)
    rw [queue, backlog] at judged
    rw [queue] at joined
    refine ⟨accumulate x y, run, by rw [handed, taken], ?_, fun j other => ?_, ?_, fun c other => ?_, ?_, ?_,
      by rw [period, taken], by rw [closed, taken], ports, frame⟩
    · rw [accumulate_pair, if_pos pair, pairs, queue, ← totals, space]
      exact accumulated_pair x P _
    · rw [accumulate_pair, if_neg (pair ▸ other), pairs]
    · rw [accumulate_carrier, if_pos rfl, carriers]
      simp only [holdOf, ← Bool.decide_and]
      rfl
    · rw [accumulate_carrier, if_neg other, carriers]
    · rw [joined, taken, space]
      simp only [decide_eq_true_eq]
    · rw [judged, space]
      simp only [backlogAfter, decide_eq_false_iff_not, ite_not]
      rfl
  · exact answers_of rfl (exec_setExposureLimit r c limit s) takes (handleExposureLimit_refuses h)
  · rintro n l h range rfl rfl rfl
    have hold : decide (min n 1099511627775 ≠ 0 ∧ min n 1099511627775 ≤ (u.carrier c).total) =
        holdOf (min n 1099511627775) (u.carrier c).total := Bool.decide_and _ _
    rw [hold]
    obtain ⟨frame, ports⟩ := storeLimit_settlementOnly c (min n 1099511627775) u
    refine ⟨storeLimit c (min n 1099511627775) u, ?_, ?_, fun d other => ?_, storeLimit_of_same,
      fun change => storeLimit_level change, ports, storeLimit_settlement _ _ _, frame⟩
    · exact answers_of rfl (exec_setExposureLimit r c _ s) takes (handleExposureLimit_stores range u)
    · rw [storeLimit_carrier, if_pos rfl]
    · rw [storeLimit_carrier, if_neg other]

end Sys2Proof.Machine
end

section
/-! The notice engine's scans (R190) and the look at the held responses (R193): what a scan of a port queues, and what it
leaves of the port's record. -/

namespace Sys2Proof.Machine

/-! ## Alarm sources in scan order (R190) -/

/-- R190: every source, in scan order. -/
def allSources : List AlarmSource := allClasses.flatMap sourcesOf

theorem mem_sourcesOf {c : AlarmClass} {a : AlarmSource} :
    a ∈ sourcesOf c ↔ a.cls = c ∧ a.number < AlarmSource.count c := by
  simp only [sourcesOf, List.mem_map, List.mem_range]
  constructor
  · rintro ⟨n, range, rfl⟩
    exact ⟨rfl, range⟩
  · rintro ⟨rfl, range⟩
    exact ⟨a.number, range, rfl⟩

theorem mem_allSources {a : AlarmSource} : a ∈ allSources ↔ a.number < AlarmSource.count a.cls := by
  have listed : a.cls ∈ allClasses := by
    cases a.cls <;> decide
  simp only [allSources, List.mem_flatMap, mem_sourcesOf]
  constructor
  · rintro ⟨c, -, rfl, range⟩
    exact range
  · exact fun range => ⟨a.cls, listed, rfl, range⟩

/-- R190: the sources in scan order take the places 0 to 1,344. -/
theorem allSources_index : allSources.map AlarmSource.index = List.range (256 + 1024 + 64 + 1) := by
  rw [List.range_add (n := 256 + 1024 + 64), List.range_add (n := 256 + 1024), List.range_add (n := 256)]
  simp only [allSources, allClasses, sourcesOf, List.flatMap_cons, List.flatMap_nil, List.map_append, List.map_map,
    List.append_nil, List.append_assoc]
  exact congrArg₂ (· ++ ·) (List.map_id _) rfl

theorem allSources_index_nodup : (allSources.map AlarmSource.index).Nodup := by
  rw [allSources_index]
  exact List.nodup_range

/-- R190: the place in scan order names the source. -/
theorem AlarmSource.index_inj {a b : AlarmSource} (ha : a.number < AlarmSource.count a.cls)
    (hb : b.number < AlarmSource.count b.cls) (same : a.index = b.index) : a = b :=
  List.inj_on_of_nodup_map allSources_index_nodup (mem_allSources.mpr ha) (mem_allSources.mpr hb) same

theorem sourcesOf_sublist (c : AlarmClass) : (sourcesOf c).Sublist allSources := by
  refine List.sublist_flatten_of_mem (List.mem_map.mpr ⟨c, ?_, rfl⟩)
  cases c <;> decide

theorem sourcesOf_index_nodup (c : AlarmClass) : ((sourcesOf c).map AlarmSource.index).Nodup :=
  allSources_index_nodup.sublist ((sourcesOf_sublist c).map _)

/-! ## Queueing alarms (R190) -/

theorem alarmRoom_iff_places (r : PortRecord) : alarmRoom r = true ↔ 0 < alarmPlaces r := by
  rw [alarmRoom_iff, alarmPlaces]
  show r.notices.length < 64 ∧ _ ↔ _
  by_cases none : r.drops = 0
  · rw [if_pos none]
    omega
  · rw [if_neg none]
    omega

section
variable (p : Port) (a : AlarmSource) (s : State)

theorem queueAlarm_port :
    (queueAlarm p a s).port p =
      { s.port p with
        notices := (s.port p).notices ++ [.alarm a (s.level a)]
        alarms := (s.port p).alarms.set a.index ⟨s.level a, true⟩
        held := (s.port p).held.map (markQueued a ((s.port p).notices.length + 1)) } := State.port_setPort_same _ _ _

theorem queueAlarm_port_other {q : Port} (other : q ≠ p) : (queueAlarm p a s).port q = s.port q :=
  State.port_setPort_other _ _ _ _ other

theorem queueAlarm_level (b : AlarmSource) : (queueAlarm p a s).level b = s.level b := rfl

theorem queueAlarm_ports : PortsOnly s (queueAlarm p a s) := PortsOnly.setPort s _ _

/-- R190: a queued source is not pending any more; another one is as it was. -/
theorem queueAlarm_pendingOn (b : AlarmSource) :
    pendingOn (queueAlarm p a s) p b = (decide (b.index ≠ a.index) && pendingOn s p b) := by
  simp only [pendingOn, queueAlarm_port, queueAlarm_level, Table.get_set]
  by_cases here : b.index = a.index
  · simp [here]
  · simp [here]

theorem queueAlarm_places : alarmPlaces ((queueAlarm p a s).port p) = alarmPlaces (s.port p) - 1 := by
  simp only [alarmPlaces, queueAlarm_port, List.length_append, List.length_singleton]
  split
  · omega
  · rfl

end

/-- R190: some sources are queued one after the other. -/
def queueAll (p : Port) (qs : List AlarmSource) (s : State) : State := qs.foldl (fun s a => queueAlarm p a s) s

theorem queueAll_cons (p : Port) (a : AlarmSource) (qs : List AlarmSource) (s : State) :
    queueAll p (a :: qs) s = queueAll p qs (queueAlarm p a s) := rfl

theorem testSource_of_queues {p : Port} {s : State} {a : AlarmSource} (pends : pendingOn s p a = true)
    (room : 0 < alarmPlaces (s.port p)) : testSource p s a = queueAlarm p a s := by
  rw [testSource, pends, (alarmRoom_iff_places _).mpr room]
  rfl

theorem testSource_of_not {p : Port} {s : State} {a : AlarmSource}
    (h : pendingOn s p a = false ∨ alarmPlaces (s.port p) = 0) : testSource p s a = s := by
  refine if_neg fun both => ?_
  obtain ⟨pends, room⟩ := Bool.and_eq_true_iff.mp both
  rcases h with quiet | full
  · rw [quiet] at pends
    cases pends
  · exact absurd ((alarmRoom_iff_places _).mp room) (by omega)

/-- R190: the tests of some sources queue those pending, in order, as far as the places go. -/
theorem foldl_testSource {as : List AlarmSource} (once : (as.map AlarmSource.index).Nodup) (p : Port) (s : State) :
    as.foldl (testSource p) s = queueAll p ((as.filter (pendingOn s p)).take (alarmPlaces (s.port p))) s := by
  induction as generalizing s with
  | nil => simp [queueAll]
  | cons a as ih =>
    obtain ⟨apart, rest⟩ := List.nodup_cons.mp once
    rw [List.foldl_cons, ih rest]
    cases pends : pendingOn s p a with
    | false => rw [testSource_of_not (.inl pends), List.filter_cons_of_neg (by simp [pends])]
    | true =>
      rw [List.filter_cons_of_pos pends]
      rcases Nat.eq_zero_or_pos (alarmPlaces (s.port p)) with full | room
      · rw [testSource_of_not (.inr full), full, List.take_zero, List.take_zero]
      · have later : as.filter (pendingOn (queueAlarm p a s) p) = as.filter (pendingOn s p) :=
          List.filter_congr fun b listed => by
            have ne : b.index ≠ a.index := fun same => apart (same ▸ List.mem_map_of_mem (f := AlarmSource.index) listed)
            rw [queueAlarm_pendingOn, decide_eq_true ne, Bool.true_and]
        obtain ⟨n, places⟩ := Nat.exists_eq_add_of_lt room
        rw [testSource_of_queues pends room, later, queueAlarm_places, places]
        simp [queueAll_cons]

theorem not_pendingOn_of_masked {s : State} {p : Port} {a : AlarmSource} (masked : (s.port p).mask.on a.cls = false) :
    pendingOn s p a = false := by
  simp [pendingOn, masked]

theorem queueAll_nil (p : Port) (s : State) : queueAll p [] s = s := rfl

/-- R190: the sources of a class that a scan of it queues. -/
theorem scanClass_eq_queueAll (p : Port) (s : State) (c : AlarmClass) :
    scanClass p s c = queueAll p (((sourcesOf c).filter (pendingOn s p)).take (alarmPlaces (s.port p))) s := by
  cases masked : (s.port p).mask.on c with
  | true => rw [← foldl_testSource (sourcesOf_index_nodup c), scanClass, if_pos masked]
  | false =>
    have none : (sourcesOf c).filter (pendingOn s p) = [] := List.filter_eq_nil_iff.mpr fun a listed => by
      rw [not_pendingOn_of_masked ((mem_sourcesOf.mp listed).1 ▸ masked)]
      exact Bool.false_ne_true
    rw [none, List.take_nil, queueAll_nil, scanClass, if_neg (by simp [masked])]

theorem scanClass_eq_foldl (p : Port) (s : State) (c : AlarmClass) :
    scanClass p s c = (sourcesOf c).foldl (testSource p) s := by
  rw [scanClass_eq_queueAll, foldl_testSource (sourcesOf_index_nodup c)]

theorem scanQueues_eq (s : State) (p : Port) :
    scanQueues s p = (allSources.filter (pendingOn s p)).take (alarmPlaces (s.port p)) := rfl

/-- R190: a scan of a port queues the sources pending on it, in scan order, as far as the places go. -/
theorem scanPort_eq (p : Port) (s : State) : scanPort p s = queueAll p (scanQueues s p) s := by
  have all : allClasses.foldl (scanClass p) s = queueAll p (scanQueues s p) s := by
    rw [scanQueues_eq, ← foldl_testSource allSources_index_nodup, allSources, List.foldl_flatMap]
    congr 1
    funext t c
    exact scanClass_eq_foldl p t c
  unfold scanPort
  split
  · exact all
  · next idle =>
    have none : scanQueues s p = [] := by
      rw [scanQueues_eq]
      by_cases up : (s.port p).state = .up
      · have full : alarmPlaces (s.port p) = 0 := by
          by_contra room
          refine idle (Bool.and_eq_true_iff.mpr ⟨?_, (alarmRoom_iff_places _).mpr (Nat.pos_of_ne_zero room)⟩)
          simp [State.isUp, up]
        rw [full, List.take_zero]
      · rw [List.filter_eq_nil_iff.mpr fun a _ pends => up (pendingOn_up pends), List.take_nil]
    rw [none, queueAll_nil]

/-! ## What the held responses wait for (R193) -/

/-- R193: what a noted source waits for once some sources are queued behind `n` notices. -/
def NotedSource.marked (qs : List AlarmSource) (n : Nat) (x : NotedSource) : NotedSource :=
  if x.sends.isSome = true then x
  else if x.source ∈ qs then { x with sends := some (n + qs.idxOf x.source + 1) }
  else x

/-- R193: a held response with the sources that it waits for changed. -/
def Held.mapSources (f : List NotedSource → List NotedSource) (h : Held) : Held :=
  { h with wait := h.wait.map (fun w => { w with sources := f w.sources }) }

theorem markQueued_eq (a : AlarmSource) (place : Nat) (h : Held) :
    markQueued a place h =
      h.mapSources (List.map (fun n => if n.source = a ∧ n.sends = none then { n with sends := some place } else n)) := by
  obtain ⟨x, wait⟩ := h
  cases wait <;> rfl

theorem dropCeased_eq (s : State) (p : Port) (h : Held) :
    dropCeased s p h = h.mapSources (List.filter (fun n => n.sends.isSome || pendingOn s p n.source)) := by
  obtain ⟨x, wait⟩ := h
  cases wait <;> rfl

theorem Held.mapSources_mapSources (f g : List NotedSource → List NotedSource) (h : Held) :
    (h.mapSources f).mapSources g = h.mapSources (g ∘ f) := by
  simp only [Held.mapSources, Option.map_map]
  rfl

theorem NotedSource.marked_cons (a : AlarmSource) (qs : List AlarmSource) (n : Nat) (x : NotedSource) :
    NotedSource.marked qs (n + 1) (if x.source = a ∧ x.sends = none then { x with sends := some (n + 1) } else x) =
      NotedSource.marked (a :: qs) n x := by
  obtain ⟨b, sends⟩ := x
  cases sends with
  | some k => simp [NotedSource.marked]
  | none =>
    by_cases here : b = a
    · simp [NotedSource.marked, here]
    · have there : a ≠ b := fun same => here same.symm
      have count : n + 1 + qs.idxOf b + 1 = n + (a :: qs).idxOf b + 1 := by
        rw [List.idxOf_cons_ne qs there]
        omega
      simp [NotedSource.marked, here, count]

theorem NotedSource.marked_nil (n : Nat) (x : NotedSource) : NotedSource.marked [] n x = x := by
  simp [NotedSource.marked]

/-- R193: `heldAfterScan` in the two steps in which the engine makes it. -/
theorem heldAfterScan_eq (qs : List AlarmSource) (n : Nat) (pends : AlarmSource → Bool) (h : Held) :
    heldAfterScan qs n pends h =
      h.mapSources
        (fun xs => (xs.map (NotedSource.marked qs n)).filter (fun x => x.sends.isSome || pends x.source)) := by
  have sources : ∀ xs : List NotedSource,
      xs.filterMap (fun x =>
          if x.sends.isSome = true then some x
          else if x.source ∈ qs then some { x with sends := some (n + qs.idxOf x.source + 1) }
          else if pends x.source = true then some x
          else none) =
        (xs.map (NotedSource.marked qs n)).filter (fun x => x.sends.isSome || pends x.source) := fun xs => by
    rw [List.filter_map, ← List.filterMap_eq_map, ← List.filterMap_eq_filter, List.filterMap_filterMap]
    refine List.filterMap_congr fun x _ => ?_
    obtain ⟨b, sends⟩ := x
    cases sends with
    | some k => simp [NotedSource.marked]
    | none =>
      by_cases queued : b ∈ qs
      · simp [NotedSource.marked, queued]
      · cases pending : pends b <;> simp [NotedSource.marked, queued, pending, Option.guard]
  simp only [heldAfterScan, Held.mapSources, sources]

/-! ## The record after alarms are queued -/

theorem queueAll_levels (p : Port) (qs : List AlarmSource) (s : State) : (queueAll p qs s).levels = s.levels := by
  induction qs generalizing s with
  | nil => rfl
  | cons a qs ih => exact ih (queueAlarm p a s)

theorem queueAll_ports (p : Port) (qs : List AlarmSource) (s : State) : PortsOnly s (queueAll p qs s) := by
  induction qs generalizing s with
  | nil => exact PortsOnly.refl s
  | cons a qs ih => exact (queueAlarm_ports p a s).trans (ih _)

theorem queueAll_port_other {p q : Port} (other : q ≠ p) (qs : List AlarmSource) (s : State) :
    (queueAll p qs s).port q = s.port q := by
  induction qs generalizing s with
  | nil => rfl
  | cons a qs ih => exact (ih (queueAlarm p a s)).trans (queueAlarm_port_other p a s other)

/-- R190: the alarm records of a port once some sources are queued. -/
def alarmsQueued (s : State) (qs : List AlarmSource) (t : Table AlarmRecord .initial) : Table AlarmRecord .initial :=
  qs.foldl (fun t a => t.set a.index ⟨s.level a, true⟩) t

theorem alarmsQueued_get {qs : List AlarmSource} (once : (qs.map AlarmSource.index).Nodup) (s : State)
    (t : Table AlarmRecord .initial) :
    (∀ a ∈ qs, (alarmsQueued s qs t).get a.index = ⟨s.level a, true⟩) ∧
      ∀ i, i ∉ qs.map AlarmSource.index → (alarmsQueued s qs t).get i = t.get i := by
  induction qs generalizing t with
  | nil => exact ⟨fun _ none => (List.not_mem_nil none).elim, fun _ _ => rfl⟩
  | cons b qs ih =>
    obtain ⟨apart, rest⟩ := List.nodup_cons.mp once
    obtain ⟨queued, others⟩ := ih rest (t.set b.index ⟨s.level b, true⟩)
    refine ⟨List.forall_mem_cons.mpr ⟨(others b.index apart).trans (Table.get_set_same _ _ _), queued⟩, fun i absent => ?_⟩
    obtain ⟨ne, absent⟩ := List.ne_and_not_mem_of_not_mem_cons absent
    exact (others i absent).trans (Table.get_set_other _ _ _ _ ne)

/-- R190, R193: the record of a port once some sources are queued on it. -/
theorem queueAll_port (p : Port) (qs : List AlarmSource) (s : State) :
    (queueAll p qs s).port p =
      { s.port p with
        notices := (s.port p).notices ++ qs.map (fun a => .alarm a (s.level a))
        alarms := alarmsQueued s qs (s.port p).alarms
        held := (s.port p).held.map
          (Held.mapSources (List.map (NotedSource.marked qs (s.port p).notices.length))) } := by
  induction qs generalizing s with
  | nil =>
    have same : ∀ h : Held, h.mapSources (List.map (NotedSource.marked [] (s.port p).notices.length)) = h := fun h => by
      obtain ⟨x, wait⟩ := h
      cases wait <;> simp [Held.mapSources, funext (NotedSource.marked_nil _)]
    simp [queueAll_nil, alarmsQueued, funext same]
  | cons a qs ih =>
    have marks : ∀ h : Held,
        (markQueued a ((s.port p).notices.length + 1) h).mapSources
            (List.map (NotedSource.marked qs ((s.port p).notices.length + 1))) =
          h.mapSources (List.map (NotedSource.marked (a :: qs) (s.port p).notices.length)) := fun h => by
      rw [markQueued_eq, Held.mapSources_mapSources]
      congr 1
      funext xs
      exact (List.map_map).trans (List.map_congr_left fun x _ => NotedSource.marked_cons a qs _ x)
    rw [queueAll_cons, ih, queueAlarm_port]
    simp only [List.length_append, List.length_singleton, List.map_map, Function.comp_def, marks, List.map_cons,
      List.append_assoc, List.singleton_append]
    rfl

/-! ## Held responses are released (R193) -/

theorem Held.not_ready_iff (h : Held) : h.ready = false ↔ Waits h := by
  obtain ⟨x, wait⟩ := h
  cases wait with
  | none => simp [Held.ready, Waits]
  | some w => by_cases none : w.unsent = 0 <;> simp [Held.ready, Waits, none]

theorem releaseHeld_released (waiting : List Held) (r : PortRecord) :
    Released waiting r (releaseHeld { r with held := waiting }) := by
  refine ⟨waiting.takeWhile Held.ready, waiting.dropWhile Held.ready, (List.takeWhile_append_dropWhile).symm,
    fun h gone waits => ?_, fun h first => ?_, rfl, rfl⟩
  · have ready := List.mem_takeWhile_imp gone
    rw [(Held.not_ready_iff h).mpr waits] at ready
    cases ready
  · refine (Held.not_ready_iff h).mp ?_
    have := List.head?_dropWhile_not Held.ready waiting
    rw [first] at this
    exact this

theorem settleSync_port (p : Port) (s : State) :
    (settleSync p s).port p = releaseHeld { s.port p with held := (s.port p).held.map (dropCeased s p) } :=
  State.port_setPort_same _ _ _

theorem settleSync_port_other {p q : Port} (other : q ≠ p) (s : State) : (settleSync p s).port q = s.port q :=
  State.port_setPort_other _ _ _ _ other

theorem settleSync_pendingOn (p : Port) (s : State) (a : AlarmSource) :
    pendingOn (settleSync p s) p a = pendingOn s p a := by
  simp only [pendingOn, settleSync_port]
  rfl

/-- R190, R193: alarms queued on a port, with the look at its held responses. -/
theorem queueAll_scanned {qs : List AlarmSource} (once : (qs.map AlarmSource.index).Nodup) (p : Port) (s : State) :
    Scanned qs s (settleSync p (queueAll p qs s)) p := by
  have port := queueAll_port p qs s
  obtain ⟨queued, others⟩ := alarmsQueued_get once s (s.port p).alarms
  have settled := settleSync_port p (queueAll p qs s)
  have held : ((queueAll p qs s).port p).held.map (dropCeased (queueAll p qs s) p) =
      (s.port p).held.map
        (heldAfterScan qs (s.port p).notices.length (pendingOn (settleSync p (queueAll p qs s)) p)) := by
    rw [port, List.map_map]
    refine List.map_congr_left fun h _ => ?_
    simp only [Function.comp, dropCeased_eq, Held.mapSources_mapSources, heldAfterScan_eq, settleSync_pendingOn]
    rfl
  have told := (queueAll_ports p qs s).trans (settleSync_ports p _)
  refine ⟨?_, fun a listed => ?_, fun i absent => ?_, ?_, ?_, ?_, fun q other => ?_, told⟩
  · rw [settled, port]
    rfl
  · rw [settled, port]
    exact queued a listed
  · rw [settled, port]
    exact others i absent
  · rw [settled, held, port]
    exact releaseHeld_released _ (s.port p)
  · rw [settled, port]
    rfl
  · rw [settled, port]
    simp [SamePortFacts, releaseHeld]
  · rw [settleSync_port_other other, queueAll_port_other other]

theorem scanQueues_index_nodup (s : State) (p : Port) : ((scanQueues s p).map AlarmSource.index).Nodup :=
  allSources_index_nodup.sublist (((List.take_sublist _ _).trans List.filter_sublist).map _)

theorem rescan_eq (p : Port) (s : State) : rescan p s = settleSync p (queueAll p (scanQueues s p) s) := by
  rw [rescan, scanPort_eq]

theorem rescan_scanned (p : Port) (s : State) : Scanned (scanQueues s p) s (rescan p s) p := by
  rw [rescan_eq]
  exact queueAll_scanned (scanQueues_index_nodup s p) p s

theorem settleSync_scanned (p : Port) (s : State) : Scanned [] s (settleSync p s) p :=
  queueAll_scanned (qs := []) List.nodup_nil p s

/-- R190: what is still pending after a scan of some sources found no room. -/
theorem no_room_of_pending {as : List AlarmSource} (once : (as.map AlarmSource.index).Nodup) {p : Port} {s : State}
    {a : AlarmSource} (listed : a ∈ as)
    (pends : pendingOn (settleSync p (queueAll p ((as.filter (pendingOn s p)).take (alarmPlaces (s.port p))) s)) p a =
      true) :
    alarmRoom ((settleSync p (queueAll p ((as.filter (pendingOn s p)).take (alarmPlaces (s.port p))) s)).port p) =
      false := by
  obtain ⟨qs, taken⟩ : ∃ qs, qs = (as.filter (pendingOn s p)).take (alarmPlaces (s.port p)) := ⟨_, rfl⟩
  rw [← taken] at pends ⊢
  have sublist : qs.Sublist as := taken ▸ (List.take_sublist _ _).trans List.filter_sublist
  obtain ⟨notices, queued, others, -, drops, facts, -, frame⟩ :=
    queueAll_scanned (once.sublist (sublist.map _)) p s
  generalize settleSync p (queueAll p qs s) = t at *
  have level : t.level a = s.level a := by rw [frame]; rfl
  have absent : a.index ∉ qs.map AlarmSource.index := fun member => by
    obtain ⟨b, member, same⟩ := List.mem_map.mp member
    have outstanding := queued b member
    rw [same] at outstanding
    simp [pendingOn, outstanding] at pends
  have before : pendingOn s p a = true := by
    obtain ⟨state, -, -, -, -, -, mask, -⟩ := facts
    simpa only [pendingOn, state, mask, others _ absent, level] using pends
  have cut : qs.length = alarmPlaces (s.port p) := by
    by_contra other
    have short : (as.filter (pendingOn s p)).length ≤ alarmPlaces (s.port p) := by
      have := congrArg List.length taken
      rw [List.length_take] at this
      omega
    rw [List.take_of_length_le short] at taken
    exact absent (List.mem_map_of_mem (taken ▸ List.mem_filter.mpr ⟨listed, before⟩))
  refine Bool.eq_false_iff.mpr fun room => ?_
  obtain ⟨fewer, none⟩ := (alarmRoom_iff _).mp room
  have fewer : (t.port p).notices.length < 64 := fewer
  rw [notices, List.length_append, List.length_map, cut, alarmPlaces, if_pos (drops ▸ none)] at fewer
  omega

end Sys2Proof.Machine
end

section
/-! ATTACH, DETACH, the frames of a link and its end (R181 to R185), and the proofs of O52 and O51. -/

namespace Sys2Proof.Machine

/-! ## Notices to the other ports -/

theorem notifyOthersUp_port (p : Port) (n : Notice) (s : State) (o : Port) :
    (notifyOthersUp p n s).port o =
      if o ≠ p ∧ (s.port o).state = .up then (s.port o).withNotice n else s.port o := by
  have listed : o ∈ allPorts.filter (fun q => decide (q ≠ p)) ↔ o ≠ p := by simp [mem_allPorts]
  rw [notifyOthersUp, notifyUp_port (allPorts_nodup.filter _)]
  simp only [listed]

theorem notify_port_up {o : Port} {n : Notice} {s : State} (up : (s.port o).state = .up) :
    (notify o n s).port o = (s.port o).withNotice n := notify_port_self (by rw [up]; decide) n

theorem notifyOthersUp_port_eq (p : Port) (n : Notice) (s : State) (o : Port) :
    (notifyOthersUp p n s).port o =
      if o ≠ p ∧ (s.port o).state = .up then (notify o n s).port o else s.port o := by
  rw [notifyOthersUp_port]
  split
  · next both => rw [notify_port_up both.2]
  · rfl

/-- R182 to R184: a notice to the other ports finds them as they were before the port's own record was written. -/
theorem notifyOthersUp_setPort_other {p o : Port} (other : o ≠ p) (n : Notice) {s x : State}
    (same : x.port o = s.port o) :
    (notifyOthersUp p n x).port o = if (s.port o).state = .up then (notify o n s).port o else s.port o := by
  rw [notifyOthersUp_port, same]
  by_cases up : (s.port o).state = .up
  · rw [if_pos ⟨other, up⟩, if_pos up, notify_port_up up]
  · rw [if_neg fun both => up both.2, if_neg up]

/-! ## ATTACH (R182) -/

theorem exec_attach (r : Sender) (partner : Arg Port) (s : State) :
    exec (.attach r partner) s =
      request (.attach r partner) r RequestKind.attach.code (handleAttach r.port partner) s := rfl

theorem handleAttach_of_value {p : Port} {partner : Arg Port} {x : Option Port} (value : partner.value? = x)
    (known : partner ≠ .undefined) (other : x ≠ some p) (u : State) : handleAttach p partner u = attachTo p x u := by
  subst value
  cases partner with
  | undefined => exact absurd rfl known
  | absent => rfl
  | given q => exact if_neg fun same => other (congrArg some same)

theorem attachTo_of_down {p : Port} {u : State} (down : (u.port p).state = .down) (x : Option Port) :
    attachTo p x u = ⟨comeUp p x u, .ok, .attached p x⟩ := by
  simp only [attachTo, down]

theorem attachTo_of_up {p : Port} {u : State} (up : (u.port p).state = .up) (x : Option Port) :
    attachTo p x u = ⟨replacePartner p x u, .ok, .partnerChanged (u.port p).partner x⟩ := by
  simp only [attachTo, up]

/-! ## DETACH (R183) -/

theorem exec_detach_of_takes {r : Sender} {s u : State} (takes : Takes (.detach r) s u) :
    exec (.detach r) s = .next (startDetach r u) := by
  have taken : taken (.detach r) r RequestKind.detach.code s = some u := takes
  show execDetach r s = _
  simp only [execDetach, taken]

theorem not_pendingOn_of_not_up {s : State} {p : Port} (notUp : (s.port p).state ≠ .up) (a : AlarmSource) :
    pendingOn s p a = false := Bool.eq_false_iff.mpr fun pends => notUp (pendingOn_up pends)

theorem dropCeased_eq_heldAfterScan {s : State} {p : Port} {pends : AlarmSource → Bool}
    (same : ∀ a, pendingOn s p a = pends a) (n : Nat) : dropCeased s p = heldAfterScan [] n pends := by
  funext h
  simp only [dropCeased_eq, heldAfterScan_eq, same, funext (NotedSource.marked_nil n), List.map_id_fun', id]

/-- R193: on a port that is not UP no held response waits for a source that was not queued. -/
theorem heldAfterScan_sends {h : Held} {qs : List AlarmSource} {n : Nat} {w : SyncWait}
    (wait : (heldAfterScan qs n (fun _ => false) h).wait = some w) : ∀ x ∈ w.sources, x.sends ≠ none := by
  intro x listed sends
  rw [heldAfterScan_eq] at wait
  obtain ⟨v, -, rfl⟩ := Option.map_eq_some_iff.mp wait
  have kept := (List.mem_filter.mp listed).2
  rw [sends] at kept
  cases kept

theorem heldAfterScan_response (qs : List AlarmSource) (n : Nat) (pends : AlarmSource → Bool) (h : Held) :
    (heldAfterScan qs n pends h).response = h.response := rfl

/-- R193: what a release of held responses leaves of them, in their order. -/
theorem Released.responses {waiting : List Held} {r q : PortRecord} (h : Released waiting r q) :
    q.outbox ++ q.held.map (·.response) = r.outbox ++ waiting.map (·.response) ∧ ∀ x ∈ q.held, x ∈ waiting := by
  obtain ⟨gone, kept, split, -, -, outbox, held⟩ := h
  refine ⟨?_, fun x member => ?_⟩
  · rw [outbox, held, split, List.map_append, List.append_assoc]
  · rw [split]
    exact List.mem_append_right _ (held ▸ member)

/-- R183: what the taking of DETACH leaves of its port. -/
theorem startDetach_port (r : Sender) (u : State) :
    (startDetach r u).port r.port =
      releaseHeld
        { u.port r.port with
          state := .detaching
          requests := []
          inProgress := some ⟨r.tag, 145, .command (.detach r)⟩
          held := (u.port r.port).held.map
            (heldAfterScan [] (u.port r.port).notices.length (fun _ => false)) } := by
  obtain ⟨x, detaching⟩ : ∃ x, x = notifyOthersUp r.port (.portState r.port .detaching .detach)
      (u.setPort r.port
        { u.port r.port with
          state := .detaching
          requests := []
          inProgress := some (waiting (.detach r) r RequestKind.detach.code) }) := ⟨_, rfl⟩
  have port : x.port r.port =
      { u.port r.port with
        state := .detaching
        requests := []
        inProgress := some (waiting (.detach r) r RequestKind.detach.code) } := by
    rw [detaching, notifyOthersUp_port_self, State.port_setPort_same]
  have quiet : ∀ a, pendingOn x r.port a = false := not_pendingOn_of_not_up (by rw [port]; exact fun same => nomatch same)
  rw [startDetach, ← detaching, settleSync_port, port,
    dropCeased_eq_heldAfterScan (pends := fun _ => false) quiet (u.port r.port).notices.length]
  rfl

/-- Settles O52. -/
theorem attachAndDetach : Obligations.AttachAndDetach := by
  refine ⟨fun r partner s u q takes port => ⟨?_, ?_, fun x value known other => ⟨fun down => ?_, fun up => ?_⟩⟩,
    notifyOthersUp_port_eq, fun r s u q takes port => ?_⟩
  · rintro rfl
    exact answers_of rfl (exec_attach r _ s) takes rfl
  · rintro rfl
    exact answers_of rfl (exec_attach r _ s) takes (if_pos rfl)
  · subst port
    refine answers_of rfl (exec_attach r _ s) takes ?_
    rw [handleAttach_of_value value known other, attachTo_of_down down]
    rfl
  · subst port
    refine answers_of rfl (exec_attach r _ s) takes ?_
    rw [handleAttach_of_value value known other, attachTo_of_up up]
    rfl
  · subst port
    have detached := startDetach_port r u
    have released := releaseHeld_released
      ((u.port r.port).held.map (heldAfterScan [] (u.port r.port).notices.length (fun _ => false))) (u.port r.port)
    have released : Released
        ((u.port r.port).held.map (heldAfterScan [] (u.port r.port).notices.length (fun _ => false))) (u.port r.port)
        ((startDetach r u).port r.port) := by
      rw [detached]
      exact released
    obtain ⟨responses, kept⟩ := released.responses
    refine ⟨startDetach r u, ((startDetach r u).port r.port).outbox, ((startDetach r u).port r.port).held,
      exec_detach_of_takes takes, ?_, ?_, fun empty => ?_, fun h member w wait => ?_, released, fun o other => ?_,
      startDetach_ports r u⟩
    · rw [detached]
      rfl
    · rw [responses, List.map_map]
      rfl
    · refine List.eq_nil_iff_forall_not_mem.mpr fun h member => ?_
      have listed := kept h member
      rw [empty] at listed
      cases listed
    · obtain ⟨x, -, rfl⟩ := List.mem_map.mp (kept h member)
      exact heldAfterScan_sends wait
    · exact (settleSync_port_other other _).trans
        (notifyOthersUp_setPort_other other _ (State.port_setPort_other _ _ _ _ other))

/-! ## Frames of the link (R181, R185) -/

theorem exec_frameReceived (p : Port) (bytes : List Byte) (s : State) :
    exec (.frameReceived p bytes) s = .next (if s.resetLine then s else takeFrame p (judgeFrame bytes) s) := rfl

theorem exec_frameReceived_of_running {p : Port} {bytes : List Byte} {s : State} {j : Judged}
    (running : s.resetLine = false) (judged : judgeFrame bytes = j) :
    exec (.frameReceived p bytes) s = .next (takeFrame p j s) := by
  rw [exec_frameReceived, running, judged, if_neg Bool.false_ne_true]

theorem enqueue_of_room {p : Port} {q : Request} {s : State} (room : (s.port p).requests.length < 16) :
    enqueue p q s = s.setPort p { s.port p with requests := (s.port p).requests ++ [q] } := if_pos room

theorem enqueue_of_full {p : Port} {q : Request} {s : State} (full : 16 ≤ (s.port p).requests.length) :
    enqueue p q s = s.setPort p { s.port p with answers := (s.port p).answers ++ [⟨q.code, q.tag, .queueFull, .nothing⟩] } :=
  if_neg (Nat.not_lt.mpr full)

section
variable {p : Port} {q : Request} {s : State} (running : s.resetLine = false)
include running

theorem arrive_of_up (up : (s.port p).state = .up) : arrive p q s = enqueue p q s := by
  simp only [arrive, running, up]
  rfl

theorem arrive_of_detaching (detaching : (s.port p).state = .detaching) :
    arrive p q s = s.setPort p { s.port p with answers := (s.port p).answers ++ [⟨q.code, q.tag, .detaching, .nothing⟩] } := by
  have made : arrive p q s = answerAtOnce p q .detaching s := by
    simp only [arrive, running, detaching]
    rfl
  exact made

theorem arrive_of_down (down : (s.port p).state = .down) :
    arrive p q s =
      if q.code = 144 then enqueue p q s
      else s.setPort p { s.port p with answers := (s.port p).answers ++ [⟨q.code, q.tag, .notAttached, .nothing⟩] } := by
  have made : arrive p q s =
      if q.code = RequestKind.attach.code then enqueue p q s else answerAtOnce p q .notAttached s := by
    simp only [arrive, running, down]
    rfl
  exact made

end

theorem restartCount_of_not_down {p : Port} {s : State} (up : (s.port p).state ≠ .down) :
    restartCount p s = s.setPort p { s.port p with silence := 0 } := if_neg up

/-- R181, R185: a request frame at a port that is not DOWN restarts the count, and then changes its record by its arrival. -/
theorem takeFrame_of_not_down {p : Port} {q : Request} {s : State} (up : (s.port p).state ≠ .down)
    {f : PortRecord → PortRecord}
    (arrives : ∀ x : State, x.resetLine = s.resetLine → (x.port p).state = (s.port p).state →
      (x.port p).requests = (s.port p).requests → arrive p q x = x.setPort p (f (x.port p))) :
    (∀ o, o ≠ p → (takeFrame p (.request q) s).port o = s.port o) ∧
      (takeFrame p (.request q) s).port p = f { s.port p with silence := 0 } ∧
      takeFrame p (.request q) s = { s with ports := (takeFrame p (.request q) s).ports } := by
  have made : takeFrame p (.request q) s =
      (s.setPort p { s.port p with silence := 0 }).setPort p (f { s.port p with silence := 0 }) := by
    show arrive p q (restartCount p s) = _
    have same := State.port_setPort_same s p { s.port p with silence := 0 }
    rw [restartCount_of_not_down up, arrives (s.setPort p { s.port p with silence := 0 }) rfl (by rw [same]) (by rw [same]),
      same]
  refine ⟨fun o other => ?_, ?_, takeFrame_ports _ _ _⟩
  · rw [made, State.port_setPort_other _ _ _ _ other, State.port_setPort_other _ _ _ _ other]
  · rw [made, State.port_setPort_same]

theorem takeFrame_of_down {p : Port} {q : Request} {s : State} (down : (s.port p).state = .down) :
    takeFrame p (.request q) s = arrive p q s := by
  show arrive p q (restartCount p s) = _
  rw [restartCount, if_pos down]

/-! ## The end of a link (R181, R183, R184) -/

theorem exec_linkLoss (p : Port) (s : State) :
    exec (.linkLoss p) s =
      .next (if s.resetLine = false ∧ (s.port p).state ≠ .down ∧ 20 ≤ (s.port p).silence then portDown p .linkLoss none s
        else s) := by
  have silent : linkSilent s p = true ↔ s.resetLine = false ∧ (s.port p).state ≠ .down ∧ 20 ≤ (s.port p).silence := by
    simp only [linkSilent, Bool.and_eq_true, Bool.not_eq_true', bne_iff_ne, decide_eq_true_eq, and_assoc]
    exact Iff.rfl
  show Host.Outcome.next (if linkSilent s p then portDown p .linkLoss none s else s) = _
  simp only [silent]

theorem exec_detachComplete (p : Port) (s : State) :
    exec (.detachComplete p) s =
      .next
        (if (s.port p).state = .detaching ∧ (s.port p).outbox = [] ∧ (s.port p).held = [] then
          portDown p .detach ((s.port p).inProgress.map (·.tag)) s
        else s) := by
  have drained : detachDrained s p = true ↔
      (s.port p).state = .detaching ∧ (s.port p).outbox = [] ∧ (s.port p).held = [] := by
    simp [detachDrained, and_assoc]
  show Host.Outcome.next
    (if detachDrained s p then portDown p .detach ((s.port p).inProgress.map (·.tag)) s else s) = _
  simp only [drained]

/-- R184: what the loss of a port leaves. -/
theorem portDown_spec (p : Port) (cause : PortCause) (tag : Option Byte) {s t : State}
    (down : t = portDown p cause tag s) :
    t.port p = { PortRecord.initial with answers := (s.port p).answers } ∧
      (∀ o, o ≠ p →
        t.port o = (if (s.port o).state = .up then (notify o (.portState p .down cause) s).port o else s.port o)) ∧
      t =
        { s with
          ports := t.ports
          calls :=
            { s.calls with
              losses := s.calls.losses ++ [⟨p, (s.port p).partner, tag⟩]
              offers := s.calls.offers.map (fun o => if o.sender.port = p then { o with discarded := true } else o) }
          tariff := { s.tariff with losses := s.tariff.losses ++ [p] }
          service := { s.service with losses := s.service.losses ++ [p] } } := by
  obtain ⟨x, lost⟩ : ∃ x, x = handLoss ⟨p, (s.port p).partner, tag⟩ (s.setPort p (s.port p).lost) := ⟨_, rfl⟩
  have made : t = notifyOthersUp p (.portState p .down cause) x := by rw [down, lost]; rfl
  have mine : x.port p = (s.port p).lost := by rw [lost]; exact State.port_setPort_same _ _ _
  have others : ∀ o, o ≠ p → x.port o = s.port o := fun o other => by
    rw [lost]
    exact State.port_setPort_other _ _ _ _ other
  refine ⟨?_, fun o other => ?_, ?_⟩
  · rw [made, notifyOthersUp_port_self, mine]
    rfl
  · rw [made, notifyOthersUp_setPort_other other _ (others o other)]
  · have told := notifyOthersUp_ports p (.portState p .down cause) x
    rw [← made] at told
    refine Eq.trans told ?_
    rw [lost]
    rfl

/-- Settles O51. -/
theorem framesAndTheEndOfALink : Obligations.FramesAndTheEndOfALink := by
  rintro s p bytes r rfl
  refine ⟨fun lost => ?_, fun running judged => ?_, fun q running judged => ⟨fun up => ⟨fun room => ?_, fun full => ?_⟩,
    fun detaching => ?_, fun down code => ?_, fun down code room => ?_, fun down code full => ?_⟩, fun c cause tag due is => ?_⟩
  · rw [exec_frameReceived]
    rcases lost with held | invalid
    · rw [if_pos held]
    · rw [invalid]
      exact congrArg Host.Outcome.next (ite_self s)
  · rw [exec_frameReceived_of_running running judged]
    rfl
  · refine ⟨_, exec_frameReceived_of_running running judged,
      takeFrame_of_not_down (f := fun r => { r with requests := r.requests ++ [q] }) (by rw [up]; decide)
        fun x line state queue => ?_⟩
    rw [arrive_of_up (line.trans running) (state.trans up), enqueue_of_room (queue.symm ▸ room)]
  · refine ⟨_, exec_frameReceived_of_running running judged,
      takeFrame_of_not_down (f := fun r => { r with answers := r.answers ++ [⟨q.code, q.tag, .queueFull, .nothing⟩] })
        (by rw [up]; decide) fun x line state queue => ?_⟩
    rw [arrive_of_up (line.trans running) (state.trans up), enqueue_of_full (queue.symm ▸ full)]
  · refine ⟨_, exec_frameReceived_of_running running judged,
      takeFrame_of_not_down (f := fun r => { r with answers := r.answers ++ [⟨q.code, q.tag, .detaching, .nothing⟩] })
        (by rw [detaching]; decide) fun x line state _ => ?_⟩
    rw [arrive_of_detaching (line.trans running) (state.trans detaching)]
  · rw [exec_frameReceived_of_running running judged, takeFrame_of_down down, arrive_of_down running down, if_neg code]
  · rw [exec_frameReceived_of_running running judged, takeFrame_of_down down, arrive_of_down running down, if_pos code,
      enqueue_of_room room]
  · rw [exec_frameReceived_of_running running judged, takeFrame_of_down down, arrive_of_down running down, if_pos code,
      enqueue_of_full full]
  · rcases is with ⟨rfl, rfl, rfl, rfl⟩ | ⟨rfl, rfl, rfl, rfl⟩
    · refine ⟨fun early => ?_, fun due => ⟨_, ?_, portDown_spec p .linkLoss none rfl⟩⟩
      · rw [exec_linkLoss, if_neg early]
      · rw [exec_linkLoss, if_pos due]
    · refine ⟨fun early => ?_, fun due => ⟨_, ?_, portDown_spec p .detach _ rfl⟩⟩
      · rw [exec_detachComplete, if_neg early]
      · rw [exec_detachComplete, if_pos due]

end Sys2Proof.Machine
end

section
/-! Reports of levels, SUBSCRIBE, ACK_ALARM, SYNC, and what leaves the link (R186, R188 to R193), and the proofs of O53 and
O54. -/

namespace Sys2Proof.Machine

/-! ## Port records -/

theorem State.setPort_port_self (s : State) (p : Port) : s.setPort p (s.port p) = s := by
  cases p <;> rfl

theorem State.setPort_setPort (s : State) (p : Port) (r q : PortRecord) : (s.setPort p r).setPort p q = s.setPort p q := by
  cases p <;> rfl

/-- A state that differs from another one in one port's record alone. -/
theorem eq_setPort {s t : State} {p : Port} (ports : PortsOnly s t) (others : ∀ q, q ≠ p → t.port q = s.port q) :
    t = s.setPort p (t.port p) := by
  have same : t.ports = (s.setPort p (t.port p)).ports := by
    have each : ∀ q, t.port q = (s.setPort p (t.port p)).port q := fun q => by
      rw [State.port_setPort]
      split
      · next here => rw [here]
      · next other => exact others q other
    calc t.ports = ⟨t.port .a, t.port .b, t.port .c, t.port .d⟩ := rfl
      _ = ⟨(s.setPort p (t.port p)).port .a, (s.setPort p (t.port p)).port .b, (s.setPort p (t.port p)).port .c,
            (s.setPort p (t.port p)).port .d⟩ := by rw [← each .a, ← each .b, ← each .c, ← each .d]
      _ = (s.setPort p (t.port p)).ports := rfl
  refine Eq.trans ports ?_
  rw [same]
  rfl

/-! ## Scans and reports (R190) -/

theorem pendingOn_congr {s t : State} {p : Port} (levels : t.levels = s.levels) (port : t.port p = s.port p) (a : AlarmSource) :
    pendingOn t p a = pendingOn s p a := by
  simp only [pendingOn, port, State.level, levels]

theorem queueAlarm_congr {s t : State} {p : Port} (levels : t.levels = s.levels) (port : t.port p = s.port p)
    (a : AlarmSource) : (queueAlarm p a t).port p = (queueAlarm p a s).port p := by
  simp only [queueAlarm_port, port, State.level, levels]

theorem queueAll_congr {s t : State} {p : Port} (levels : t.levels = s.levels) (port : t.port p = s.port p)
    (qs : List AlarmSource) : (queueAll p qs t).port p = (queueAll p qs s).port p := by
  induction qs generalizing s t with
  | nil => exact port
  | cons a qs ih => exact ih (s := queueAlarm p a s) (t := queueAlarm p a t) levels (queueAlarm_congr levels port a)

theorem settleSync_congr {s t : State} {p : Port} (levels : t.levels = s.levels) (port : t.port p = s.port p) :
    (settleSync p t).port p = (settleSync p s).port p := by
  have same : dropCeased t p = dropCeased s p := by
    funext h
    simp only [dropCeased_eq, pendingOn_congr levels port]
  rw [settleSync_port, settleSync_port, port, same]

/-- R190: a scan of a port reads its own record and the levels alone. -/
theorem rescan_congr {s t : State} {p : Port} (levels : t.levels = s.levels) (port : t.port p = s.port p) :
    (rescan p t).port p = (rescan p s).port p := by
  have queues : scanQueues t p = scanQueues s p := by
    rw [scanQueues_eq, scanQueues_eq, port, funext (pendingOn_congr levels port)]
  rw [rescan_eq, rescan_eq, queues]
  exact settleSync_congr (by rw [queueAll_levels, queueAll_levels, levels]) (queueAll_congr levels port _)

theorem rescan_port_other {p q : Port} (other : q ≠ p) (s : State) : (rescan p s).port q = s.port q := by
  rw [rescan_eq, settleSync_port_other other, queueAll_port_other other]

theorem foldl_rescan_port {ps : List Port} (once : ps.Nodup) {w s : State} (levels : s.levels = w.levels)
    (same : ∀ p ∈ ps, s.port p = w.port p) (p : Port) :
    (ps.foldl (fun s p => rescan p s) s).port p = if p ∈ ps then (rescan p w).port p else s.port p := by
  induction ps generalizing s with
  | nil => rfl
  | cons q ps ih =>
    obtain ⟨apart, rest⟩ := List.nodup_cons.mp once
    obtain ⟨first, others⟩ := List.forall_mem_cons.mp same
    have kept : ∀ o ∈ ps, (rescan q s).port o = w.port o := fun o listed =>
      (rescan_port_other (ne_of_mem_of_not_mem listed apart) s).trans (others o listed)
    rw [List.foldl_cons, ih rest ((rescan_levels q s).trans levels) kept]
    by_cases here : p = q
    · subst here
      rw [if_neg apart, if_pos List.mem_cons_self, rescan_congr levels first]
    · simp only [List.mem_cons, here, false_or, rescan_port_other here]

theorem reportLevel_spec (a : AlarmSource) (n : Nat) {s t w : State} (told : t = reportLevel a n s)
    (written : w = { s with levels := s.levels.set a.index n }) :
    (∀ p, t.port p = (rescan p w).port p) ∧ t = { w with ports := t.ports } ∧
      ∀ b, a.number < AlarmSource.count a.cls → b.number < AlarmSource.count b.cls →
        t.level b = if b = a then n else s.level b := by
  have made : t = allPorts.foldl (fun s p => rescan p s) w := by rw [told, written]; rfl
  refine ⟨fun p => ?_, ?_, fun b rangeA rangeB => ?_⟩
  · rw [made, foldl_rescan_port allPorts_nodup rfl (fun _ _ => rfl), if_pos (mem_allPorts p)]
  · have frame := (Told.foldl _ (fun s p => rescan_told p s) allPorts w).portsOnly
      (foldl_levels _ (fun s p => rescan_levels p s) allPorts w)
    rw [← made] at frame
    exact frame
  · by_cases here : b = a
    · rw [told, here, level_reportLevel_same, if_pos rfl]
    · rw [told, level_reportLevel_other fun same => here (AlarmSource.index_inj rangeB rangeA same), if_neg here]

/-! ## SUBSCRIBE (R191) -/

theorem exec_subscribe (r : Sender) (cls : Arg AlarmClass) (on : Option Bool) (s : State) :
    exec (.subscribe r cls on) s =
      request (.subscribe r cls on) r RequestKind.subscribe.code (handleSubscribe r.port cls on) s := rfl

theorem handleSubscribe_refuses {cls : Arg AlarmClass} {on : Option Bool} (h : cls.value? = none ∨ on = none) (p : Port)
    (u : State) : handleSubscribe p cls on u = refuse .badRequest u := by
  unfold handleSubscribe
  rcases h with none | none
  · rw [none]
  · rw [none]
    cases cls.value? <;> rfl

theorem Mask.on_set (m : Mask) (c d : AlarmClass) (b : Bool) : (m.set c b).on d = if d = c then b else m.on d := by
  cases c <;> cases d <;> rfl

theorem Scanned.mask {qs : List AlarmSource} {s t : State} {p : Port} (h : Scanned qs s t p) :
    (t.port p).mask = (s.port p).mask := by
  obtain ⟨-, -, -, -, -, ⟨-, -, -, -, -, -, mask, -⟩, -⟩ := h
  exact mask

/-- R191: what turning a class off leaves of the notices and the alarm records. -/
theorem settleSync_alarms (p : Port) (s : State) :
    ((settleSync p s).port p).notices = (s.port p).notices ∧ ((settleSync p s).port p).alarms = (s.port p).alarms := by
  rw [settleSync_port]
  exact ⟨rfl, rfl⟩

/-! ## ACK_ALARM (R192) -/

theorem exec_ackAlarm (r : Sender) (cls : Arg AlarmClass) (source : Option Nat) (s : State) :
    exec (.ackAlarm r cls source) s =
      request (.ackAlarm r cls source) r RequestKind.ackAlarm.code (handleAckAlarm r.port cls source) s := rfl

/-- R192: the state with the outstanding flags of some sources cleared. -/
def flagsCleared (p : Port) (as : List AlarmSource) (s : State) : State := as.foldl (clearFlag p) s

theorem clearFlag_port_other {p q : Port} (other : q ≠ p) (s : State) (a : AlarmSource) :
    (clearFlag p s a).port q = s.port q := by
  unfold clearFlag
  split
  · exact State.port_setPort_other _ _ _ _ other
  · rfl

theorem clearFlag_port (p : Port) (s : State) (a : AlarmSource) :
    (clearFlag p s a).port p = { s.port p with alarms := ((clearFlag p s a).port p).alarms } ∧
      ∀ i, ((clearFlag p s a).port p).alarms.get i =
        if i = a.index then { (s.port p).alarms.get i with outstanding := false } else (s.port p).alarms.get i := by
  unfold clearFlag
  split
  · next set =>
    rw [State.port_setPort_same]
    refine ⟨rfl, fun i => ?_⟩
    rw [Table.get_set]
    split
    · next here => rw [here]
    · rfl
  · next clear =>
    refine ⟨rfl, fun i => ?_⟩
    split
    · next here =>
      rw [here]
      have off : ((s.port p).alarms.get a.index).outstanding = false := by simpa using clear
      rw [← off]
    · rfl

theorem flagsCleared_port (p : Port) (as : List AlarmSource) (s : State) :
    (∀ q, q ≠ p → (flagsCleared p as s).port q = s.port q) ∧ PortsOnly s (flagsCleared p as s) ∧
      (flagsCleared p as s).port p = { s.port p with alarms := ((flagsCleared p as s).port p).alarms } ∧
      ∀ i, ((flagsCleared p as s).port p).alarms.get i =
        if i ∈ as.map AlarmSource.index then { (s.port p).alarms.get i with outstanding := false }
        else (s.port p).alarms.get i := by
  induction as generalizing s with
  | nil => exact ⟨fun _ _ => rfl, PortsOnly.refl s, rfl, fun _ => rfl⟩
  | cons a as ih =>
    obtain ⟨others, frame, record, alarms⟩ := ih (clearFlag p s a)
    obtain ⟨record', alarms'⟩ := clearFlag_port p s a
    have step : flagsCleared p (a :: as) s = flagsCleared p as (clearFlag p s a) := rfl
    rw [step]
    refine ⟨fun q other => (others q other).trans (clearFlag_port_other other s a), (clearFlag_ports p s a).trans frame,
      ?_, fun i => ?_⟩
    · conv => lhs; rw [record, record']
    · rw [alarms, alarms']
      by_cases here : i = a.index
      · simp only [List.map_cons, List.mem_cons, here, true_or, if_true, ite_self]
      · simp only [List.map_cons, List.mem_cons, here, false_or, if_false]

theorem ackSources_eq (p : Port) (c : AlarmClass) (as : List AlarmSource) (s : State) :
    ackSources p c as s = scanClass p (flagsCleared p as s) c := rfl

theorem mem_ackedSources {c : AlarmClass} {source : Option Nat} (range : ∀ n, source = some n → n < AlarmSource.count c)
    (a : AlarmSource) :
    a ∈ ackedSources c source ↔
      a.cls = c ∧ a.number < AlarmSource.count c ∧ (source = none ∨ source = some a.number) := by
  cases source with
  | none => simp [ackedSources, mem_sourcesOf]
  | some n =>
    have range := range n rfl
    obtain ⟨d, m⟩ := a
    simp only [ackedSources, List.mem_singleton, AlarmSource.mk.injEq, reduceCtorEq, false_or, Option.some.injEq]
    constructor
    · rintro ⟨rfl, rfl⟩
      exact ⟨rfl, range, rfl⟩
    · rintro ⟨rfl, -, rfl⟩
      exact ⟨rfl, rfl⟩

theorem ackedSources_index_nodup (c : AlarmClass) (source : Option Nat) :
    ((ackedSources c source).map AlarmSource.index).Nodup := by
  cases source with
  | none => exact sourcesOf_index_nodup c
  | some n => exact List.nodup_singleton _

theorem handleAckAlarm_outOfRange {c : AlarmClass} {n : Nat} (range : AlarmSource.count c ≤ n) (p : Port) (u : State) :
    handleAckAlarm p (.given c) (some n) u = refuse .outOfRange u :=
  if_pos (by simpa using range)

/-- R192: what an ACK_ALARM in range clears and queues. -/
theorem handleAckAlarm_spec {c : AlarmClass} {source : Option Nat}
    (range : ∀ n, source = some n → n < AlarmSource.count c) (p : Port) (u : State) {w v : State}
    {cleared queued : List AlarmSource} (flags : w = flagsCleared p (ackedSources c source) u)
    (clears : cleared = (ackedSources c source).filter (fun a => ((u.port p).alarms.get a.index).outstanding))
    (queues : queued = ((sourcesOf c).filter (pendingOn w p)).take (alarmPlaces (u.port p)))
    (settled : v = settleSync p (queueAll p queued w)) :
    handleAckAlarm p (.given c) source u = ⟨v, .ok, .acknowledged cleared.length queued.length⟩ := by
  have inRange : ¬source.any (fun n => decide (AlarmSource.count c ≤ n)) = true := by
    intro out
    obtain ⟨n, named, out⟩ := (Option.any_eq_true _ _).mp out
    exact absurd (range n named) (Nat.not_lt.mpr (of_decide_eq_true out))
  obtain ⟨-, -, record, -⟩ := flagsCleared_port p (ackedSources c source) u
  rw [← flags] at record
  have places : alarmPlaces (w.port p) = alarmPlaces (u.port p) := by rw [record]; rfl
  have scanned : ackSources p c (ackedSources c source) u = queueAll p queued w := by
    rw [ackSources_eq, ← flags, scanClass_eq_queueAll, places, ← queues]
  have count : ((queueAll p queued w).port p).notices.length - (u.port p).notices.length = queued.length := by
    rw [queueAll_port, record]
    simp
  refine (if_neg inRange).trans ?_
  simp only [scanned, count, flagsSet, List.countP_eq_length_filter, ← clears, ← settled]

theorem ackAlarm_spec {c : AlarmClass} {source : Option Nat} {p : Port} {u : State} {q : PortRecord} (port : q = u.port p) {w v : State} {cleared queued : List AlarmSource}
    (flags : w = flagsCleared p (ackedSources c source) u)
    (clears : cleared = (ackedSources c source).filter (fun a => (q.alarms.get a.index).outstanding))
    (queues : queued = ((sourcesOf c).filter (pendingOn w p)).take (alarmPlaces q))
    (settled : v = settleSync p (queueAll p queued w)) :
    (∀ i, (w.port p).alarms.get i =
        if i ∈ cleared.map AlarmSource.index then ⟨(q.alarms.get i).lastSent, false⟩ else q.alarms.get i) ∧
      w = u.setPort p { q with alarms := (w.port p).alarms } ∧ Scanned queued w v p ∧ (w.port p).notices = q.notices ∧
      (∀ a, w.level a = u.level a) ∧ ((w.port p).mask = q.mask) ∧
      ∀ a, a.cls = c → a.number < AlarmSource.count c → pendingOn v p a = true → alarmRoom (v.port p) = false := by
  obtain ⟨others, frame, record, alarms⟩ := flagsCleared_port p (ackedSources c source) u
  rw [← flags] at others frame record alarms
  rw [← port] at record alarms
  have once : (queued.map AlarmSource.index).Nodup := by
    rw [queues]
    exact (sourcesOf_index_nodup c).sublist (((List.take_sublist _ _).trans List.filter_sublist).map _)
  have places : alarmPlaces (w.port p) = alarmPlaces q := by rw [record]; rfl
  refine ⟨fun i => ?_, ?_, ?_, ?_, fun a => ?_, ?_, fun a cls number pends => ?_⟩
  · have member : i ∈ cleared.map AlarmSource.index ↔
        i ∈ (ackedSources c source).map AlarmSource.index ∧ (q.alarms.get i).outstanding = true := by
      simp only [clears, List.mem_map, List.mem_filter]
      constructor
      · rintro ⟨a, ⟨listed, set⟩, rfl⟩
        exact ⟨⟨a, listed, rfl⟩, set⟩
      · rintro ⟨⟨a, listed, rfl⟩, set⟩
        exact ⟨a, ⟨listed, set⟩, rfl⟩
    rw [alarms]
    by_cases listed : i ∈ (ackedSources c source).map AlarmSource.index
    · rw [if_pos listed]
      cases set : (q.alarms.get i).outstanding with
      | true => rw [if_pos (member.mpr ⟨listed, set⟩)]
      | false => rw [if_neg fun both => absurd (set.symm.trans (member.mp both).2) Bool.false_ne_true, ← set]
    · rw [if_neg listed, if_neg fun both => listed (member.mp both).1]
  · rw [← record]
    exact eq_setPort frame others
  · rw [settled]
    exact queueAll_scanned once p w
  · rw [record]
  · rw [State.level, frame]
    rfl
  · rw [record]
  · have listed : a ∈ sourcesOf c := mem_sourcesOf.mpr ⟨cls, number⟩
    rw [settled, queues, ← places] at pends ⊢
    exact no_room_of_pending (sourcesOf_index_nodup c) listed pends

/-! ## SYNC (R193) -/

theorem exec_sync_of_takes {r : Sender} {s u : State} (takes : Takes (.sync r) s u) :
    exec (.sync r) s = .next (holdSync r u) := by
  have taken : taken (.sync r) r RequestKind.sync.code s = some u := takes
  show execSync r s = _
  simp only [execSync, taken]

/-- R193: the response to SYNC as it is held before the held responses are looked at. -/
def syncHeld (r : Sender) (q : PortRecord) (noted : List AlarmSource) : Held :=
  ⟨⟨148, r.tag, .ok, .synced q.notices.length noted.length⟩,
    some ⟨q.notices.length, noted.map (fun a => ⟨a, none⟩)⟩⟩

/-- R193: the noted sources pend, so the look at the held responses leaves them all. -/
theorem dropCeased_syncHeld {s : State} {p : Port} {noted : List AlarmSource} (pend : ∀ a ∈ noted, pendingOn s p a = true)
    (r : Sender) (q : PortRecord) : dropCeased s p (syncHeld r q noted) = syncHeld r q noted := by
  rw [dropCeased_eq]
  have all : (noted.map (fun a => (⟨a, none⟩ : NotedSource))).filter (fun n => n.sends.isSome || pendingOn s p n.source) =
      noted.map (fun a => ⟨a, none⟩) := by
    refine List.filter_eq_self.mpr fun x listed => ?_
    obtain ⟨a, source, rfl⟩ := List.mem_map.mp listed
    simp [pend a source]
  simp only [Held.mapSources, syncHeld, Option.map_some, all]

theorem syncHeld_ready_iff (r : Sender) (q : PortRecord) (noted : List AlarmSource) :
    (syncHeld r q noted).ready = true ↔ q.notices = [] ∧ noted = [] := by
  simp [syncHeld, Held.ready]

/-- R193: what SYNC leaves of its port. -/
theorem holdSync_spec (r : Sender) {u : State} {q : PortRecord} (port : q = u.port r.port) {noted : List AlarmSource}
    (notes : noted = (allClasses.flatMap sourcesOf).filter (pendingOn u r.port)) :
    holdSync r u =
      u.setPort r.port
        (releaseHeld { q with held := q.held.map (dropCeased u r.port) ++ [syncHeld r q noted] }) := by
  have pend : ∀ a ∈ noted, pendingOn u r.port a = true := fun a listed => by
    rw [notes] at listed
    exact (List.mem_filter.mp listed).2
  have held : heldSync r u = syncHeld r q noted := by rw [notes, port]; rfl
  have drops : dropCeased (u.setPort r.port { q with held := q.held ++ [heldSync r u] }) r.port =
      dropCeased u r.port := by
    funext h
    simp only [dropCeased_eq, pendingOn, State.port_setPort_same, State.level_setPort, port]
  rw [holdSync, ← port, settleSync, drops, State.setPort_setPort, State.port_setPort_same, List.map_append, held]
  simp only [List.map_cons, List.map_nil, dropCeased_syncHeld pend]

theorem sync_spec (r : Sender) {u : State} {q : PortRecord} (port : q = u.port r.port) {noted : List AlarmSource}
    (notes : noted = (allClasses.flatMap sourcesOf).filter (pendingOn u r.port)) :
    (∃ (outbox : List Response) (held : List Held),
      holdSync r u = u.setPort r.port { q with outbox := outbox, held := held } ∧
        outbox ++ held.map (·.response) =
          q.outbox ++ q.held.map (·.response) ++ [⟨148, r.tag, .ok, .synced q.notices.length noted.length⟩]) ∧
      (q.held = [] → q.notices = [] → noted = [] →
        holdSync r u = u.setPort r.port { q with outbox := q.outbox ++ [⟨148, r.tag, .ok, .synced 0 0⟩] }) ∧
      (q.held = [] → q.notices ≠ [] ∨ noted ≠ [] →
        holdSync r u = u.setPort r.port { q with held := [syncHeld r q noted] }) := by
  have made := holdSync_spec r port notes
  refine ⟨?_, fun none quiet empty => ?_, fun none waits => ?_⟩
  · have released := releaseHeld_released (q.held.map (dropCeased u r.port) ++ [syncHeld r q noted]) q
    refine ⟨_, _, made, released.responses.1.trans ?_⟩
    rw [List.map_append, List.map_map, ← List.append_assoc]
    congr 2
    refine List.map_congr_left fun h _ => ?_
    rw [Function.comp, dropCeased_eq]
    rfl
  · have ready : (syncHeld r q noted).ready = true := (syncHeld_ready_iff r q noted).mpr ⟨quiet, empty⟩
    rw [made, none, List.map_nil, List.nil_append, releaseHeld]
    simp only [List.takeWhile_cons, ready, if_true, List.takeWhile_nil, List.dropWhile_cons, List.dropWhile_nil]
    simp [syncHeld, quiet, empty]
  · have waiting : (syncHeld r q noted).ready = false := Bool.eq_false_iff.mpr fun ready => by
      obtain ⟨quiet, empty⟩ := (syncHeld_ready_iff r q noted).mp ready
      exact waits.elim (absurd quiet) (absurd empty)
    rw [made, none, List.map_nil, List.nil_append, releaseHeld]
    simp [waiting]

/-- Settles O53. -/
theorem alarmRequests : Obligations.AlarmRequests := by
  refine ⟨fun s t p scanned => ?_, fun s t w a n told written => reportLevel_spec a n told written,
    fun r cls s u q port => ⟨fun on takes => ⟨fun bad => ?_, ?_⟩, fun source takes => ⟨fun bad => ?_, ?_⟩,
      fun noted takes notes => ?_, fun code takes => ?_⟩⟩
  · subst scanned
    refine ⟨rescan_scanned p s, (scanQueues_index_nodup s p).of_map _, fun a listed => ?_, fun a range pends => ?_,
      settleSync_scanned p s⟩
    · exact (List.mem_filter.mp (List.mem_of_mem_take listed)).2
    · rw [rescan_eq, scanQueues_eq] at pends ⊢
      exact no_room_of_pending allSources_index_nodup (mem_allSources.mpr range) pends
  · exact answers_of rfl (exec_subscribe r cls on s) takes (handleSubscribe_refuses bad r.port u)
  · rintro c b v w rfl rfl rfl made
    have scanned : ∃ qs, Scanned qs (u.setPort r.port { q with mask := q.mask.set c b }) v r.port := by
      rw [made]
      split
      · exact ⟨_, rescan_scanned _ _⟩
      · exact ⟨_, settleSync_scanned _ _⟩
    obtain ⟨qs, scanned⟩ := scanned
    refine ⟨?_, fun d => ?_, ?_⟩
    · refine answers_of rfl (exec_subscribe r _ _ s) takes ?_
      rw [made, port]
      rfl
    · rw [scanned.mask, State.port_setPort_same, Mask.on_set]
    · rintro rfl
      obtain ⟨notices, alarms⟩ := settleSync_alarms r.port (u.setPort r.port { q with mask := q.mask.set c false })
      rw [made, if_neg Bool.false_ne_true, notices, alarms, State.port_setPort_same]
      exact ⟨rfl, rfl⟩
  · have refused : handleAckAlarm r.port cls source u = refuse .badRequest u := by
      unfold handleAckAlarm
      rw [bad]
    exact answers_of rfl (exec_ackAlarm r cls source s) takes refused
  · rintro c rfl
    refine ⟨fun n is range => ?_, fun named names range => ?_⟩
    · subst is
      exact answers_of rfl (exec_ackAlarm r _ _ s) takes (handleAckAlarm_outOfRange range r.port u)
    · obtain ⟨w, flags⟩ : ∃ w, w = flagsCleared r.port (ackedSources c source) u := ⟨_, rfl⟩
      obtain ⟨cleared, clears⟩ : ∃ cleared, cleared =
          (ackedSources c source).filter (fun a => (q.alarms.get a.index).outstanding) := ⟨_, rfl⟩
      obtain ⟨queued, queues⟩ : ∃ queued, queued =
          ((sourcesOf c).filter (pendingOn w r.port)).take (alarmPlaces q) := ⟨_, rfl⟩
      obtain ⟨v, settled⟩ : ∃ v, v = settleSync r.port (queueAll r.port queued w) := ⟨_, rfl⟩
      obtain ⟨flagsNow, frame, scanned, notices, levels, mask, full⟩ := ackAlarm_spec port flags clears queues settled
      have listed : ∀ a ∈ queued, a ∈ sourcesOf c := fun a member => by
        rw [queues] at member
        exact List.mem_of_mem_filter (List.mem_of_mem_take member)
      have inRange : ∀ a ∈ queued, a.cls = c ∧ a.number < AlarmSource.count c := fun a member =>
        mem_sourcesOf.mp (listed a member)
      have index : ∀ {a : AlarmSource} {as : List AlarmSource}, a.number < AlarmSource.count a.cls →
          (∀ b ∈ as, b.cls = c ∧ b.number < AlarmSource.count c) → (a.index ∈ as.map AlarmSource.index ↔ a ∈ as) := by
        intro a as range within
        refine ⟨fun member => ?_, List.mem_map_of_mem⟩
        obtain ⟨b, member, same⟩ := List.mem_map.mp member
        obtain ⟨cls, number⟩ := within b member
        rwa [← AlarmSource.index_inj (cls ▸ number) range same]
      have acked := mem_ackedSources range
      have clearedRange : ∀ a ∈ cleared, a.cls = c ∧ a.number < AlarmSource.count c := fun a member => by
        rw [clears] at member
        obtain ⟨cls, number, -⟩ := (acked a).mp (List.mem_of_mem_filter member)
        exact ⟨cls, number⟩
      obtain ⟨queuedNotices, queuedAlarms, otherAlarms, -⟩ := id scanned
      refine ⟨v, cleared, queued, ?_, ?_, fun a => ?_, ?_, inRange, ?_, fun a member => ?_, fun a range apart => ?_,
        fun masked => ?_, ⟨w, frame, flagsNow, queues, scanned⟩, full⟩
      · subst port
        exact answers_of rfl (exec_ackAlarm r _ _ s) takes
          (handleAckAlarm_spec range r.port u flags clears queues settled)
      · rw [clears]
        exact ((ackedSources_index_nodup c source).of_map _).filter _
      · rw [clears, List.mem_filter, acked, names]
      · rw [queues]
        exact ((sourcesOf_index_nodup c).of_map _).sublist ((List.take_sublist _ _).trans List.filter_sublist)
      · rw [queuedNotices, notices]
        simp only [levels]
      · rw [queuedAlarms a member, levels]
      · rw [otherAlarms _ (mt (index range inRange).mp apart), flagsNow]
        simp only [index range clearedRange]
        by_cases member : a ∈ cleared
        · simp [member]
        · simp [member]
      · rw [queues, List.filter_eq_nil_iff.mpr fun a member => ?_, List.take_nil]
        rw [not_pendingOn_of_masked (by rw [mask, (mem_sourcesOf.mp member).1]; exact masked)]
        exact Bool.false_ne_true
  · obtain ⟨all, atOnce, later⟩ := sync_spec r port notes
    rw [exec_sync_of_takes takes]
    refine ⟨?_, fun none quiet empty => by rw [atOnce none quiet empty], fun none waits => by rw [later none waits]; rfl⟩
    obtain ⟨outbox, held, made, order⟩ := all
    exact ⟨outbox, held, by rw [made], order⟩
  · exact answers_of (f := refuse .badRequest) rfl rfl takes rfl

/-! ## What leaves the link (R186, R188 to R190) -/

theorem exec_noticeSent (p : Port) (s : State) :
    exec (.noticeSent p) s =
      .next
        (if s.resetLine = false ∧ (s.port p).answers = [] ∧ (s.port p).outbox = [] then noticeLeft p s else s) := by
  have free : (!s.resetLine && linkFree (s.port p)) = true ↔
      s.resetLine = false ∧ (s.port p).answers = [] ∧ (s.port p).outbox = [] := by
    simp [linkFree]
  show Host.Outcome.next (if !s.resetLine && linkFree (s.port p) then noticeLeft p s else s) = _
  simp only [free]

theorem noticeLeft_of_nil {p : Port} {s : State} (empty : (s.port p).notices = []) : noticeLeft p s = s := by
  simp only [noticeLeft, empty]

theorem countSent_eq (h : Held) : countSent h = heldAfterSend h := by
  have sources : ∀ xs : List NotedSource,
      (xs.map (fun n => { n with sends := n.sends.map (· - 1) })).filter (fun n => n.sends != some 0) =
        xs.filterMap (fun x =>
          match x.sends with
          | none => some x
          | some k => if k ≤ 1 then none else some { x with sends := some (k - 1) }) := fun xs => by
    induction xs with
    | nil => rfl
    | cons x xs ih =>
      obtain ⟨a, sends⟩ := x
      rw [List.map_cons, List.filter_cons, List.filterMap_cons, ih]
      cases sends with
      | none => rfl
      | some k =>
        by_cases last : k ≤ 1
        · simp [last]
        · have more : k - 1 ≠ 0 := by omega
          simp [last, more]
  obtain ⟨x, wait⟩ := h
  cases wait with
  | none => rfl
  | some w => simp only [countSent, heldAfterSend, Option.map_some, sources] <;> rfl

/-- R188: the record of a port whose oldest notice has left, before a freed place is filled. -/
def PortRecord.sentNotice (rest : List Notice) (r : PortRecord) : PortRecord :=
  { r with notices := rest, held := r.held.map heldAfterSend }

theorem noticeLeft_of_cons {p : Port} {s : State} {n : Notice} {rest : List Notice} (oldest : (s.port p).notices = n :: rest) :
    noticeLeft p s = rescan p (s.setPort p (fillOverflow ((s.port p).sentNotice rest))) := by
  simp only [noticeLeft, oldest, funext countSent_eq]
  rfl

theorem fillOverflow_of_zero {r : PortRecord} (none : r.drops = 0) : fillOverflow r = r := if_pos none

theorem fillOverflow_of_drops {r : PortRecord} (some : 0 < r.drops) :
    fillOverflow r = { r with notices := r.notices ++ [.noticeOverflow r.drops], drops := 0 } := if_neg some.ne'

theorem scanQueues_of_full {s : State} {p : Port} (full : alarmPlaces (s.port p) = 0) : scanQueues s p = [] := by
  rw [scanQueues_eq, full, List.take_zero]

/-- R189: with notices dropped the freed place goes to a NOTICE_OVERFLOW, and no alarm is queued. -/
theorem noticeLeft_overflow {p : Port} {s t : State} {n : Notice} {rest : List Notice} (sound : (s.port p).Sound)
    (oldest : (s.port p).notices = n :: rest) (dropped : 0 < (s.port p).drops) (left : t = noticeLeft p s) :
    (t.port p).notices = rest ++ [.noticeOverflow (s.port p).drops] ∧ (t.port p).alarms = (s.port p).alarms ∧
      Released (((s.port p).held.map heldAfterSend).map (heldAfterScan [] 64 (pendingOn t p))) (s.port p) (t.port p) ∧
      (t.port p).drops = 0 ∧ SamePortFacts (s.port p) (t.port p) ∧ ∀ o, o ≠ p → t.port o = s.port o := by
  obtain ⟨-, -, -, atDrops, -⟩ := sound
  have length : (s.port p).notices.length = 64 := atDrops dropped
  rw [oldest, List.length_cons] at length
  obtain ⟨x, filled⟩ : ∃ x, x = s.setPort p (fillOverflow ((s.port p).sentNotice rest)) := ⟨_, rfl⟩
  have port : x.port p =
      { (s.port p).sentNotice rest with notices := rest ++ [.noticeOverflow (s.port p).drops], drops := 0 } := by
    rw [filled, State.port_setPort_same, fillOverflow_of_drops (r := (s.port p).sentNotice rest) dropped]
    rfl
  have many : (x.port p).notices.length = 64 := by
    rw [port, List.length_append, List.length_singleton]
    exact length
  have full : scanQueues x p = [] := scanQueues_of_full (by rw [alarmPlaces, many]; exact ite_self 0)
  have made : t = settleSync p x := by
    rw [left, noticeLeft_of_cons oldest, ← filled, rescan_eq, full, queueAll_nil]
  obtain ⟨notices, alarms⟩ := settleSync_alarms p x
  obtain ⟨-, -, -, released, drops, facts, others, -⟩ := settleSync_scanned p x
  rw [← made] at notices alarms released drops facts others
  refine ⟨by rw [notices, port], by rw [alarms, port]; rfl, ?_, by rw [drops, port], ?_, fun o other => ?_⟩
  · rw [many, port] at released
    exact released
  · rw [port] at facts
    exact facts
  · rw [others o other, filled, State.port_setPort_other _ _ _ _ other]

/-- R190: with none dropped the freed places go to pending alarms. -/
theorem noticeLeft_alarms {p : Port} {s t w : State} {n : Notice} {rest : List Notice} {queued : List AlarmSource}
    (oldest : (s.port p).notices = n :: rest) (none : (s.port p).drops = 0) (left : t = noticeLeft p s)
    (sent : w = s.setPort p ((s.port p).sentNotice rest))
    (queues : queued = ((allClasses.flatMap sourcesOf).filter (pendingOn s p)).take (64 - rest.length)) :
    Scanned queued w t p ∧
      ∀ a, a.number < AlarmSource.count a.cls → pendingOn t p a = true → alarmRoom (t.port p) = false := by
  have port : w.port p = (s.port p).sentNotice rest := by rw [sent, State.port_setPort_same]
  have made : t = rescan p w := by
    rw [left, noticeLeft_of_cons oldest, fillOverflow_of_zero (r := (s.port p).sentNotice rest) none, sent]
  have pending : pendingOn w p = pendingOn s p := by
    funext a
    rw [pendingOn, port, sent]
    rfl
  have places : alarmPlaces (w.port p) = 64 - rest.length := by
    rw [port]
    exact if_pos none
  have scan : scanQueues w p = queued := by
    rw [scanQueues_eq, pending, places, queues]
    rfl
  refine ⟨?_, fun a range pends => ?_⟩
  · rw [made, ← scan]
    exact rescan_scanned p w
  · rw [made, rescan_eq, scanQueues_eq] at pends ⊢
    exact no_room_of_pending allSources_index_nodup (mem_allSources.mpr range) pends

theorem exec_responseSent (p : Port) (s : State) :
    exec (.responseSent p) s = .next (if s.resetLine then s else s.setPort p (responseLeft (s.port p))) := rfl

theorem exec_responseSent_of_running {p : Port} {s : State} (running : s.resetLine = false) :
    exec (.responseSent p) s = .next (s.setPort p (responseLeft (s.port p))) := by
  rw [exec_responseSent, if_neg (by simp [running])]

/-- Settles O54. -/
theorem linkSends : Obligations.LinkSends := by
  rintro s p r sound rfl
  refine ⟨fun held => ⟨?_, ?_⟩, fun nothing => ?_, fun n rest running noAnswer noOutbox oldest w queued sent queues => ?_,
    fun x rest running answers => ?_, fun x rest running noAnswer outbox => ?_, fun noAnswer noOutbox => ?_⟩
  · rw [exec_noticeSent, if_neg (by simp [held])]
  · rw [exec_responseSent, if_pos held]
  · rw [exec_noticeSent]
    split
    · next free =>
      obtain ⟨-, noAnswer, noOutbox⟩ := free
      have empty := (nothing.resolve_left (not_not.mpr noAnswer)).resolve_left (not_not.mpr noOutbox)
      rw [noticeLeft_of_nil empty]
    · rfl
  · have run : exec (.noticeSent p) s = .next (noticeLeft p s) := by
      rw [exec_noticeSent, if_pos ⟨running, noAnswer, noOutbox⟩]
    rcases Nat.eq_zero_or_pos (s.port p).drops with none | dropped
    · obtain ⟨scanned, full⟩ := noticeLeft_alarms oldest none rfl sent queues
      obtain ⟨-, -, -, -, drops, facts, others, -⟩ := id scanned
      have port : w.port p = (s.port p).sentNotice rest := by rw [sent]; exact State.port_setPort_same _ _ _
      refine ⟨noticeLeft p s, run, fun o other => ?_, noticeLeft_ports p s, fun dropped => absurd none dropped.ne',
        fun _ => ⟨scanned, full⟩, ?_, ?_⟩
      · rw [others o other, sent, State.port_setPort_other _ _ _ _ other]
      · rw [drops, port]
        exact none
      · rw [port] at facts
        exact facts
    · obtain ⟨notices, alarms, released, drops, facts, others⟩ := noticeLeft_overflow (sound p) oldest dropped rfl
      have held : (w.port p).held = (s.port p).held.map heldAfterSend := by rw [sent, State.port_setPort_same]
      refine ⟨noticeLeft p s, run, others, noticeLeft_ports p s, fun _ => ⟨notices, alarms, ?_⟩,
        fun none => absurd none dropped.ne', drops, facts⟩
      rw [held]
      exact released
  · rw [exec_responseSent_of_running running]
    simp only [responseLeft, answers]
  · rw [exec_responseSent_of_running running]
    simp only [responseLeft, noAnswer, outbox, List.drop_one, List.tail_cons]
  · have left : responseLeft (s.port p) = s.port p := by
      obtain ⟨q, here⟩ : ∃ q, q = s.port p := ⟨_, rfl⟩
      rw [← here] at noAnswer noOutbox ⊢
      unfold responseLeft
      rw [noAnswer, noOutbox]
      cases q
      simp_all
    rw [exec_responseSent, left, State.setPort_port_self]
    exact congrArg Host.Outcome.next (ite_self s)

end Sys2Proof.Machine
end

section
/-! When a port takes a request, what becomes of one that it does not take, and what a waiting body can stand for (R184 to R186,
R196, R197): the proof of O49. -/

namespace Sys2Proof.Machine

/-! ## Taking (R185, R186) -/

theorem takesCode_iff (st : PortState) (code : Nat) : takesCode st code = true ↔ st = .up ∨ (st = .down ∧ code = 144) := by
  refine ⟨takesCode_cases, ?_⟩
  rintro (rfl | ⟨rfl, rfl⟩)
  · rfl
  · rfl

theorem occupied_eq_false_iff (s : State) (p : Port) :
    occupied s p = false ↔
      (s.port p).inProgress = none ∧ (∀ o ∈ s.calls.offers, o.sender.port ≠ p) ∧
        ∀ l ∈ s.calls.losses, l.port = p → l.detachTag = none := by
  simp [occupied, and_assoc]

theorem mustWait_eq_false_iff (code : Nat) (s : State) : mustWait code s = false ↔ (code = 103 → s.calls.offers = []) := by
  simp [mustWait, RequestKind.code]

theorem ready_iff (r : Sender) (code : Nat) (s : State) :
    ready r code s = true ↔
      ((s.port r.port).state = .up ∨ ((s.port r.port).state = .down ∧ code = 144)) ∧ (s.port r.port).inProgress = none ∧
        (∀ o ∈ s.calls.offers, o.sender.port ≠ r.port) ∧ (∀ l ∈ s.calls.losses, l.port = r.port → l.detachTag = none) ∧
        (code = 103 → s.calls.offers = []) ∧ s.resetLine = false := by
  rw [ready, Bool.and_eq_true, Bool.and_eq_true, Bool.and_eq_true, Bool.not_eq_true', Bool.not_eq_true', Bool.not_eq_true',
    takesCode_iff, occupied_eq_false_iff, mustWait_eq_false_iff]
  tauto

theorem taken_eq_some_iff (c : Instr) (r : Sender) (code : Nat) (s u : State) :
    taken c r code s = some u ↔
      ready r code s = true ∧
        (((s.port r.port).requests = [] ∧ u = s) ∨
          ∃ x rest, (s.port r.port).requests = x :: rest ∧ standsFor x c r code = true ∧
            u = s.setPort r.port { s.port r.port with requests := rest }) := by
  refine ⟨taken_cases, ?_⟩
  rintro ⟨isReady, ⟨empty, rfl⟩ | ⟨x, rest, queue, stands, rfl⟩⟩
  · simp only [taken, isReady, if_true, empty]
  · simp only [taken, isReady, if_true, queue, stands]

theorem request_of_not_taken {c : Instr} {r : Sender} {code : Nat} {f : State → Reply} {s : State}
    (none : taken c r code s = none) : request c r code f s = .next (arrive r.port (waiting c r code) s) := by
  simp only [request, none]

/-- R185: a request that its port does not take arrives. -/
theorem exec_of_not_taken {c : Instr} {r : Sender} {code : Nat} {s : State} (request : requestOf c = some (r, code))
    (none : taken c r code s = none) : exec c s = .next (arrive r.port (waiting c r code) s) := by
  cases c with
  | offer step circuit digits cls =>
    obtain ⟨q, part⟩ := step
    cases part with
    | whole =>
      cases request
      exact request_of_not_taken none
    | walk =>
      cases request
      show execOffer ⟨r, .walk⟩ circuit digits cls s = _
      simp only [execOffer, none]
    | keep => cases request
  | detach q =>
    cases request
    show execDetach r s = _
    simp only [execDetach, none]
  | sync q =>
    cases request
    show execSync r s = _
    simp only [execSync, none]
  | _ => cases request <;> exact request_of_not_taken none

/-! ## What a waiting body can stand for (R186, R196, R197) -/

theorem standsFor_command {x : Request} {d : Instr} (body : x.body = .command d) (c : Instr) (r : Sender) (code : Nat) :
    standsFor x c r code = true ↔ x.code = code ∧ x.tag = r.tag ∧ d = asSent c := by
  simp [standsFor, body, and_assoc]

theorem standsFor_bytes {x : Request} {bs : List Byte} (body : x.body = .bytes bs) (c : Instr) (r : Sender) (code : Nat) :
    standsFor x c r code = true ↔ x.code = code ∧ x.tag = r.tag ∧ spells c code bs = true := by
  simp [standsFor, body, and_assoc]

/-- R196: a body that stands for a command of the table is long enough for what it carries. -/
theorem leastBytes_le_of_spells {c : Instr} {code : Nat} {bs : List Byte} (known : ∀ p n, c ≠ .unknownRequest p n)
    (h : spells c code bs = true) : leastBytes c ≤ bs.length := by
  cases c with
  | unknownRequest p n => exact absurd rfl (known p n)
  | subscribe p cls on => exact of_decide_eq_true (Bool.and_eq_true_iff.mp h).1
  | ackAlarm p cls source => exact of_decide_eq_true (Bool.and_eq_true_iff.mp (Bool.and_eq_true_iff.mp h).1).1
  | _ => exact of_decide_eq_true h

theorem le_numberField {k top : Nat} (pos : top ≠ 0) (wide : 2 ^ (8 * k) ≤ top) (n : Nat) : k + 1 ≤ numberField top n := by
  have bits : 8 * k ≤ (max top n).log2 := (Nat.le_log2 (by omega)).mpr (wide.trans (Nat.le_max_left top n))
  simp only [numberField, bytesFor]
  omega

theorem two_le_field_destination (n : Nat) : 2 ≤ numberField 2047 n := le_numberField (k := 1) (by decide) (by decide) n

theorem mem_knownCodes (n : Nat) :
    n ∈ knownCodes ↔
      (16 ≤ n ∧ n ≤ 24) ∨ (32 ≤ n ∧ n ≤ 37) ∨ (48 ≤ n ∧ n ≤ 53) ∨ (64 ≤ n ∧ n ≤ 66) ∨ (80 ≤ n ∧ n ≤ 81) ∨
        (96 ≤ n ∧ n ≤ 104) ∨ (112 ≤ n ∧ n ≤ 120) ∨ (128 ≤ n ∧ n ≤ 134) ∨ (144 ≤ n ∧ n ≤ 149) := by
  simp only [knownCodes, List.mem_append, List.mem_range'_1]
  omega

theorem bareCodes_eq : bareCodes = [21, 24, 34, 35, 37, 80, 103, 113, 119, 129, 131, 145, 148, 149] := rfl

theorem formMayFail_iff (code : Nat) (bs : List Byte) :
    formMayFail code bs = true ↔
      code ∉ knownCodes ∨
        (code ∉ bareCodes ∧ (code = 146 → bs.length < 2) ∧ (code = 147 → bs.length < 3)) := by
  have sub : RequestKind.subscribe.code = 146 := rfl
  have ack : RequestKind.ackAlarm.code = 147 := rfl
  unfold formMayFail
  rw [sub, ack]
  by_cases known : code ∈ knownCodes
  · rw [if_neg (not_not.mpr known)]
    by_cases bare : code ∈ bareCodes
    · simp [known, bare]
    · rw [if_neg bare]
      by_cases subscribe : code = 146
      · subst subscribe
        simp [known, bare]
      · rw [if_neg subscribe]
        by_cases ackAlarm : code = 147
        · subst ackAlarm
          simp [known, bare]
        · simp [bare, subscribe, ackAlarm]
  · simp [known]

/-- R197: the class that a byte spells. -/
theorem alarmClassArg_toNat (b : Byte) :
    alarmClassArg b.toNat =
      if b = 0 then .given .groupCongestion else if b = 1 then .given .planExhausted
      else if b = 2 then .given .carrierHold else if b = 3 then .given .settlementBacklog else .undefined := by
  have spelled : ∀ n : Nat, n < 256 → (b = BitVec.ofNat 8 n ↔ b.toNat = n) := fun n small => by
    rw [← BitVec.toNat_inj, BitVec.toNat_ofNat, Nat.mod_eq_of_lt small]
  by_cases zero : b = 0
  · subst zero; rfl
  by_cases one : b = 1
  · subst one; rfl
  by_cases two : b = 2
  · subst two; rfl
  by_cases three : b = 3
  · subst three; rfl
  rw [if_neg zero, if_neg one, if_neg two, if_neg three]
  have zero : b.toNat ≠ 0 := mt (spelled 0 (by decide)).mpr zero
  have one : b.toNat ≠ 1 := mt (spelled 1 (by decide)).mpr one
  have two : b.toNat ≠ 2 := mt (spelled 2 (by decide)).mpr two
  have three : b.toNat ≠ 3 := mt (spelled 3 (by decide)).mpr three
  unfold alarmClassArg
  split <;> first | contradiction | rfl

theorem spelledClass_cons (b : Byte) (rest : List Byte) :
    spelledClass (b :: rest) =
      if b = 0 then .given .groupCongestion else if b = 1 then .given .planExhausted
      else if b = 2 then .given .carrierHold else if b = 3 then .given .settlementBacklog else .undefined := by
  rw [← alarmClassArg_toNat]
  show alarmClassArg (0 * 256 + b.toNat) = _
  rw [Nat.zero_mul, Nat.zero_add]

theorem codeField_spelledClass (bs : List Byte) : codeField (spelledClass bs) = 1 := by
  unfold spelledClass alarmClassArg
  split <;> rfl

/-- R191, R197: a body of SUBSCRIBE spells its class in its first byte; its on or off takes another one. -/
theorem spells_subscribe_iff (p : Sender) (k : Arg AlarmClass) (on : Option Bool) (code : Nat) (bs : List Byte) :
    spells (.subscribe p k on) code bs = true ↔
      ∃ b rest, bs = b :: rest ∧ (on ≠ none → rest ≠ []) ∧ k = spelledClass bs := by
  simp only [spells, Bool.and_eq_true, decide_eq_true_eq, beq_iff_eq]
  simp only [leastBytes]
  constructor
  · rintro ⟨long, rfl⟩
    rw [codeField_spelledClass] at long
    cases bs with
    | nil => exact absurd long (by simp)
    | cons b rest =>
      refine ⟨b, rest, rfl, fun given empty => ?_, rfl⟩
      obtain ⟨x, rfl⟩ := Option.ne_none_iff_exists'.mp given
      rw [empty] at long
      simp [flagField] at long
  · rintro ⟨b, rest, rfl, given, rfl⟩
    refine ⟨?_, rfl⟩
    rw [codeField_spelledClass, List.length_cons]
    cases on with
    | none => simp [flagField]
    | some x =>
      have := List.length_pos_iff.mpr (given (by simp))
      simp only [flagField, Option.isSome_some, if_true]
      omega

/-- R192, R197: a body of ACK_ALARM spells its class in its first byte and its source in the next two. -/
theorem spells_ackAlarm_iff (p : Sender) (k : Arg AlarmClass) (source : Option Nat) (code : Nat) (bs : List Byte) :
    spells (.ackAlarm p k source) code bs = true ↔
      ∃ b hi lo rest, bs = b :: hi :: lo :: rest ∧ k = spelledClass bs ∧
        source = if hi.toNat * 256 + lo.toNat = 65535 then none else some (hi.toNat * 256 + lo.toNat) := by
  have spelled : ∀ hi lo : Byte, beNat [hi, lo] = hi.toNat * 256 + lo.toNat := fun hi lo => by
    show (0 * 256 + hi.toNat) * 256 + lo.toNat = _
    rw [Nat.zero_mul, Nat.zero_add]
  simp only [spells, Bool.and_eq_true, decide_eq_true_eq, beq_iff_eq]
  simp only [leastBytes]
  constructor
  · rintro ⟨⟨long, rfl⟩, rfl⟩
    rw [codeField_spelledClass] at long
    obtain ⟨b, hi, lo, rest, rfl⟩ : ∃ b hi lo rest, bs = b :: hi :: lo :: rest := by
      match bs, long with
      | b :: hi :: lo :: rest, _ => exact ⟨b, hi, lo, rest, rfl⟩
    refine ⟨b, hi, lo, rest, rfl, rfl, ?_⟩
    rw [← spelled]
    rfl
  · rintro ⟨b, hi, lo, rest, rfl, rfl, rfl⟩
    refine ⟨⟨?_, rfl⟩, ?_⟩
    · rw [codeField_spelledClass]
      simp
    · rw [← spelled]
      rfl

/-- Settles O49. -/
theorem requestArrival : Obligations.RequestArrival := by
  refine ⟨?_, fun c r code x request => ⟨fun d body => standsFor_command body c r code, fun bs body => ?_⟩⟩
  · rintro c r code s q request rfl
    have takes : ∀ u, Takes c s u ↔ taken c r code s = some u := fun u => by rw [Takes, request]
    have arrives : (∀ u, ¬Takes c s u) → exec c s = .next (arrive r.port (waiting c r code) s) := fun not =>
      exec_of_not_taken request (Option.eq_none_iff_forall_ne_some.mpr fun u taken => not u ((takes u).mpr taken))
    refine ⟨fun u => ?_, fun not held => ?_, fun not running => ⟨fun here => ⟨fun room => ?_, fun full => ?_⟩,
      fun detaching => ?_, fun down other => ?_⟩⟩
    · rw [takes, taken_eq_some_iff, ready_iff]
      tauto
    · rw [arrives not, arrive, if_pos held]
    · have queued : arrive r.port (waiting c r code) s = enqueue r.port (waiting c r code) s := by
        rcases here with up | ⟨down, attach⟩
        · exact arrive_of_up running up
        · exact (arrive_of_down running down).trans (if_pos attach)
      rw [arrives not, queued, enqueue_of_room room]
      rfl
    · have queued : arrive r.port (waiting c r code) s = enqueue r.port (waiting c r code) s := by
        rcases here with up | ⟨down, attach⟩
        · exact arrive_of_up running up
        · exact (arrive_of_down running down).trans (if_pos attach)
      rw [arrives not, queued, enqueue_of_full full]
      rfl
    · rw [arrives not, arrive_of_detaching running detaching]
      rfl
    · rw [arrives not]
      exact congrArg Host.Outcome.next ((arrive_of_down running down).trans (if_neg other))
  · have long : (∀ p n, c ≠ .unknownRequest p n) → standsFor x c r code = true → leastBytes c ≤ bs.length :=
      fun known stands => leastBytes_le_of_spells known ((standsFor_bytes body c r code).mp stands).2.2
    refine ⟨fun known stands => ?_, ?_, ?_, ?_, ?_, ?_, ?_, ?_⟩
    · obtain ⟨same, tag, -⟩ := (standsFor_bytes body c r code).mp stands
      exact ⟨same, tag, long known stands⟩
    · rw [standsFor_bytes body, ← mem_knownCodes, ← bareCodes_eq]
      refine ⟨fun ⟨_, tag, form⟩ => ⟨tag, (formMayFail_iff _ _).mp form⟩,
        fun ⟨tag, form⟩ => ⟨rfl, tag, (formMayFail_iff _ _).mpr form⟩⟩
    · rintro d n b i rfl stands
      have least := long (fun _ _ => nofun) stands
      have first := two_le_field_destination d
      have second : 2 ≤ numberField 1023 n := le_numberField (k := 1) (by decide) (by decide) n
      simp only [leastBytes, optionField, flagField, Option.isSome_some, if_true] at least
      omega
    · rintro d n m rfl stands
      have least := long (fun _ _ => nofun) stands
      have first := two_le_field_destination d
      have second : 2 ≤ numberField 6000 n := le_numberField (k := 1) (by decide) (by decide) n
      have third : 3 ≤ numberField 86400 m := le_numberField (k := 2) (by decide) (by decide) m
      simp only [leastBytes, optionField] at least
      omega
    · rintro d cause rfl stands
      have least := long (fun _ _ => nofun) stands
      have first : 2 ≤ numberField 8191 d.slot := le_numberField (k := 1) (by decide) (by decide) _
      have second : 1 ≤ numberField 255 d.generation := le_numberField (k := 0) (by decide) (by decide) _
      simp only [leastBytes, callField, codeField] at least
      omega
    · rintro n m rfl stands
      have least := long (fun _ _ => nofun) stands
      have first : 1 ≤ numberField 63 n := le_numberField (k := 0) (by decide) (by decide) n
      have second : 5 ≤ numberField Config.capMax m := le_numberField (k := 4) (by decide) (by decide) m
      simp only [leastBytes, optionField] at least
      omega
    · rintro k on rfl
      cases request
      rw [standsFor_bytes body, spells_subscribe_iff]
      refine and_congr_right fun _ => and_congr_right fun _ => exists_congr fun b => exists_congr fun rest => ?_
      refine and_congr_right fun is => and_congr_right fun _ => ?_
      rw [is, spelledClass_cons]
    · rintro k source rfl
      cases request
      rw [standsFor_bytes body, spells_ackAlarm_iff]
      refine and_congr_right fun _ => and_congr_right fun _ => exists_congr fun b => exists_congr fun hi =>
        exists_congr fun lo => exists_congr fun rest => and_congr_right fun is => ?_
      rw [is, spelledClass_cons]

end Sys2Proof.Machine
end

section
/-! Frames from a processor (R181, R196): a frame is judged valid exactly when it is the layout with its check value; the proof
of O50. -/

namespace Sys2Proof.Machine

/-! ## The length of a body in two bytes (R196) -/

theorem beNat_two (x y : Byte) : beNat [x, y] = x.toNat * 256 + y.toNat := by
  show (0 * 256 + x.toNat) * 256 + y.toNat = _
  rw [Nat.zero_mul, Nat.zero_add]

theorem beBytes_two (n : Nat) : beBytes 2 n = [BitVec.ofNat 8 (n / 256), BitVec.ofNat 8 n] := by
  simp [beBytes]

theorem beNat_beBytes_two {n : Nat} (small : n < 65536) : beNat (beBytes 2 n) = n := by
  rw [beBytes_two, beNat_two, BitVec.toNat_ofNat, BitVec.toNat_ofNat]
  omega

theorem beBytes_two_beNat (x y : Byte) : beBytes 2 (beNat [x, y]) = [x, y] := by
  have high := x.isLt
  have low := y.isLt
  rw [beBytes_two, beNat_two]
  congr 1
  · refine BitVec.eq_of_toNat_eq ?_
    rw [BitVec.toNat_ofNat]
    omega
  · congr 1
    refine BitVec.eq_of_toNat_eq ?_
    rw [BitVec.toNat_ofNat]
    omega

theorem beBytes_length (n x : Nat) : (beBytes n x).length = n := by
  induction n with
  | zero => rfl
  | succ n ih => rw [beBytes, List.length_cons, ih]

/-! ## Judging (R181, R196) -/

/-- R196: the check value of a header and a body, as two bytes. -/
def checkBytes (kind tag l1 l0 code status : Byte) (body : List Byte) : List Byte :=
  beBytes 2 (checkValue (kind :: tag :: l1 :: l0 :: code :: status :: body)).toNat

theorem encodeFrame_eq {l1 l0 : Byte} {body : List Byte} (length : beBytes 2 body.length = [l1, l0])
    (kind tag code status : Byte) :
    encodeFrame kind tag code status body =
      kind :: tag :: l1 :: l0 :: code :: status :: (body ++ checkBytes kind tag l1 l0 code status body) := by
  simp only [encodeFrame, length, List.cons_append, List.nil_append, checkBytes]

/-- R196: what makes a frame with a whole header more than invalid. -/
theorem judgeFrame_header (kind tag l1 l0 code status : Byte) (rest : List Byte) :
    judgeFrame (kind :: tag :: l1 :: l0 :: code :: status :: rest) =
      if 4096 < beNat [l1, l0] ∨ rest.length ≠ beNat [l1, l0] + 2 then .invalid
      else if rest.drop (beNat [l1, l0]) ≠ checkBytes kind tag l1 l0 code status (rest.take (beNat [l1, l0])) then .invalid
      else judgeKind kind tag code (rest.take (beNat [l1, l0])) := rfl

/-- R196: a frame of the layout is judged by its kind. -/
theorem judgeFrame_encodeFrame {body : List Byte} (short : body.length ≤ 4096) (kind tag code status : Byte) :
    judgeFrame (encodeFrame kind tag code status body) = judgeKind kind tag code body := by
  obtain ⟨l1, l0, length⟩ : ∃ l1 l0, beBytes 2 body.length = [l1, l0] := ⟨_, _, beBytes_two _⟩
  have spelled : beNat [l1, l0] = body.length := by rw [← length, beNat_beBytes_two (by omega)]
  have whole : (body ++ checkBytes kind tag l1 l0 code status body).length = body.length + 2 := by
    rw [List.length_append, checkBytes, beBytes_length]
  rw [encodeFrame_eq length, judgeFrame_header, spelled, List.drop_left, List.take_left,
    if_neg (not_or.mpr ⟨Nat.not_lt.mpr short, not_not.mpr whole⟩), if_neg (not_not.mpr rfl)]

/-- R196: a frame that is not invalid is of the layout. -/
theorem eq_encodeFrame_of_judgeFrame {bytes : List Byte} (valid : judgeFrame bytes ≠ .invalid) :
    ∃ kind tag code status body, body.length ≤ 4096 ∧ bytes = encodeFrame kind tag code status body := by
  unfold judgeFrame at valid
  split at valid
  · next kind tag l1 l0 code status rest =>
    by_cases long : 4096 < beNat [l1, l0] ∨ rest.length ≠ beNat [l1, l0] + 2
    · exact absurd (if_pos long) valid
    · obtain ⟨short, length⟩ := not_or.mp long
      have valid : (if rest.drop (beNat [l1, l0]) ≠
          checkBytes kind tag l1 l0 code status (rest.take (beNat [l1, l0])) then Judged.invalid
          else judgeKind kind tag code (rest.take (beNat [l1, l0]))) ≠ .invalid := fun invalid =>
        valid ((if_neg long).trans invalid)
      have check : rest.drop (beNat [l1, l0]) = checkBytes kind tag l1 l0 code status (rest.take (beNat [l1, l0])) := by
        by_contra wrong
        exact valid (if_pos wrong)
      have bodyLength : (rest.take (beNat [l1, l0])).length = beNat [l1, l0] := by
        rw [List.length_take]
        omega
      refine ⟨kind, tag, code, status, rest.take (beNat [l1, l0]), by rw [bodyLength]; omega, ?_⟩
      rw [encodeFrame_eq (l1 := l1) (l0 := l0) (by rw [bodyLength, beBytes_two_beNat]), ← check, List.take_append_drop]
  · exact absurd rfl valid

/-- R196: a frame cut short is invalid. -/
theorem judgeFrame_take {body : List Byte} (short : body.length ≤ 4096) (kind tag code status : Byte) {n : Nat}
    (cut : n < 8 + body.length) : judgeFrame ((encodeFrame kind tag code status body).take n) = .invalid := by
  obtain ⟨l1, l0, length⟩ : ∃ l1 l0, beBytes 2 body.length = [l1, l0] := ⟨_, _, beBytes_two _⟩
  have spelled : beNat [l1, l0] = body.length := by rw [← length, beNat_beBytes_two (by omega)]
  rw [encodeFrame_eq length]
  obtain few | ⟨m, rfl⟩ : n < 6 ∨ ∃ m, n = m + 6 := by
    rcases Nat.lt_or_ge n 6 with few | many
    · exact .inl few
    · exact .inr ⟨n - 6, by omega⟩
  · interval_cases n <;> rfl
  · have fewer : ((body ++ checkBytes kind tag l1 l0 code status body).take m).length ≠ beNat [l1, l0] + 2 := by
      rw [List.length_take, spelled]
      omega
    simp only [List.take_succ_cons, judgeFrame_header]
    exact if_pos (.inr fewer)

theorem judgeKind_zero (tag code : Byte) (body : List Byte) :
    judgeKind 0 tag code body = if body.isEmpty then .fill else .invalid := rfl

theorem judgeKind_one (tag code : Byte) (body : List Byte) :
    judgeKind 1 tag code body = .request ⟨tag, code.toNat, .bytes body⟩ := rfl

theorem judgeKind_of_other {kind : Byte} (zero : kind ≠ 0) (one : kind ≠ 1) (tag code : Byte) (body : List Byte) :
    judgeKind kind tag code body = .invalid := by
  rw [judgeKind, if_neg zero, if_neg one]

/-- Settles O50. -/
theorem framesRoundTrip : Obligations.FramesRoundTrip := by
  refine ⟨fun tag code status body short => judgeFrame_encodeFrame short 1 tag code status,
    fun tag code status => judgeFrame_encodeFrame (Nat.zero_le _) 0 tag code status, fun bytes q judged => ?_,
    fun bytes judged => ?_, fun kind tag code status body short => ⟨fun bad => ?_, fun n => judgeFrame_take short _ _ _ _⟩⟩
  · obtain ⟨kind, tag, code, status, body, short, rfl⟩ := eq_encodeFrame_of_judgeFrame (by rw [judged]; exact nofun)
    rw [judgeFrame_encodeFrame short] at judged
    by_cases zero : kind = 0
    · rw [zero, judgeKind_zero] at judged
      split at judged <;> cases judged
    · by_cases one : kind = 1
      · rw [one, judgeKind_one] at judged
        cases judged
        refine ⟨code.isLt, status, body, rfl, short, ?_⟩
        rw [one, BitVec.ofNat_toNat, BitVec.setWidth_eq]
      · rw [judgeKind_of_other zero one] at judged
        cases judged
  · obtain ⟨kind, tag, code, status, body, short, rfl⟩ := eq_encodeFrame_of_judgeFrame (by rw [judged]; exact nofun)
    rw [judgeFrame_encodeFrame short] at judged
    by_cases zero : kind = 0
    · rw [zero, judgeKind_zero] at judged
      split at judged
      · next empty => exact ⟨tag, code, status, by rw [zero, List.isEmpty_iff.mp empty]⟩
      · cases judged
    · by_cases one : kind = 1
      · rw [one, judgeKind_one] at judged
        cases judged
      · rw [judgeKind_of_other zero one] at judged
        cases judged
  · rw [judgeFrame_encodeFrame short]
    rcases bad with big | ⟨rfl, full⟩
    · refine judgeKind_of_other ?_ ?_ _ _ _
      · rintro rfl
        exact absurd big (by decide)
      · rintro rfl
        exact absurd big (by decide)
    · rw [judgeKind_zero, if_neg (by simpa using full)]

end Sys2Proof.Machine
end

section
/-! What the operations of every chapter leave of the tables (R45, R48, R52, R56, R63, R85, R88, R89): the plan sets, the
plans, the destinations, and the invariants of the analyser, the route memory and the call table. -/

namespace Sys2Proof.Machine

/-! ## The plan sets (R45): only WRITE_PLAN moves them -/

/-- The plan sets are as they were. -/
def SetsKept (s t : State) : Prop := t.service.planSets = s.service.planSets

theorem SetsKept.refl (s : State) : SetsKept s s := rfl

theorem SetsKept.trans {s t u : State} (h : SetsKept s t) (g : SetsKept t u) : SetsKept s u := Eq.trans g h

theorem SetsKept.foldl {α : Type} (f : State → α → State) (hf : ∀ s x, SetsKept s (f s x)) (l : List α) (s : State) :
    SetsKept s (l.foldl f s) := by
  induction l generalizing s with
  | nil => exact SetsKept.refl s
  | cons x l ih => exact (hf s x).trans (ih (f s x))

theorem SetsKept.of_service {s t : State} (h : t.service = s.service) : SetsKept s t := by rw [SetsKept, h]

theorem Told.setsKept {s t : State} (h : Told s t) : SetsKept s t := .of_service h.service

theorem ExhaustionOnly.setsKept {s t : State} (h : ExhaustionOnly s t) : SetsKept s t := by rw [SetsKept, h.2]

theorem SetsKept.setSvc (s : State) (n : Nat) (v : GroupService) : SetsKept s (s.setSvc n v) := rfl

theorem SetsKept.setBatch (s : State) (b : DrainBatch) : SetsKept s (s.setBatch b) := rfl

theorem reevaluate_setsKept (gs : List Nat) (b s : State) : SetsKept s (reevaluate gs b s) :=
  (reevaluate_exhaustionOnly gs b s).setsKept

theorem deriveCongestion_setsKept (s : State) (n : Nat) : SetsKept s (deriveCongestion s n) := by
  simp only [deriveCongestion]
  split
  · exact SetsKept.refl s
  split
  · exact SetsKept.refl s
  · exact (SetsKept.setSvc s _ _).trans (reportLevel_told _ _ _).setsKept

theorem rederive_setsKept (n : Nat) (s : State) : SetsKept s (rederive n s) :=
  (deriveCongestion_setsKept s n).trans (reevaluate_setsKept _ _ _)

theorem completeBatch_setsKept (s : State) : SetsKept s (completeBatch s) :=
  (notifyUp_told _ _ s).setsKept.trans (SetsKept.setBatch _ _)

theorem completeIfDone_setsKept (s : State) : SetsKept s (completeIfDone s) := by
  unfold completeIfDone
  split
  · exact completeBatch_setsKept s
  · exact SetsKept.refl s

theorem memberTest_setsKept (s : State) (n : Nat) : SetsKept s (memberTest s n) := (memberTest_rest s n).1

theorem closeWindow_setsKept (s : State) : SetsKept s (closeWindow s) := by
  simp only [closeWindow]
  split
  · exact SetsKept.refl s
  split
  · exact completeBatch_setsKept s
  · exact ((SetsKept.setBatch s _).trans (SetsKept.foldl _ memberTest_setsKept _ _)).trans (completeIfDone_setsKept _)

theorem takeReports_setsKept (gs : List Nat) (b s : State) : SetsKept s (takeReports gs b s) :=
  ((SetsKept.foldl _ deriveCongestion_setsKept gs s).trans (reevaluate_setsKept _ _ _)).trans
    (SetsKept.foldl _ memberTest_setsKept _ _)

theorem report_setsKept (gs : List Nat) (b s : State) : SetsKept s (report gs b s) := takeReports_setsKept _ b s

theorem movePending_setsKept (gs : List Nat) (v : ServiceState) (b s : State) : SetsKept s (movePending gs v b s) :=
  (SetsKept.foldl _ (fun s n => SetsKept.setSvc s n _) gs s).trans (reevaluate_setsKept _ _ _)

theorem suspendBatch_setsKept (x : Option Nat) (s : State) : SetsKept s (suspendBatch x s) :=
  (SetsKept.setBatch s _).trans (movePending_setsKept _ _ _ _)

theorem resumeBatch_setsKept (s : State) : SetsKept s (resumeBatch s) :=
  (((SetsKept.setBatch s _).trans (movePending_setsKept _ _ _ _)).trans (SetsKept.foldl _ memberTest_setsKept _ _)).trans
    (completeIfDone_setsKept _)

theorem toService_setsKept (n : Nat) (s : State) : SetsKept s (toService n s) :=
  (SetsKept.setSvc s _ _).trans (reevaluate_setsKept _ _ _)

theorem returnGroup_setsKept (n : Nat) (s : State) : SetsKept s (returnGroup n s) := by
  unfold returnGroup
  split
  · exact ((SetsKept.setBatch s _).trans (toService_setsKept _ _)).trans (completeIfDone_setsKept _)
  split
  · exact toService_setsKept n s
  · exact SetsKept.refl s

theorem farReport_setsKept (n level : Nat) (s : State) : SetsKept s (farReport n level s) := by
  unfold farReport
  split
  · exact SetsKept.refl s
  · exact SetsKept.setSvc s _ _

/-! ### The plant store -/

theorem changeAndReport_setsKept (c : Nat) (f : Equipped → Equipped) (s : State) : SetsKept s (changeAndReport c f s) := by
  unfold changeAndReport
  split
  · exact SetsKept.refl s
  · exact (SetsKept.of_service (changeCircuit_service c f s)).trans (report_setsKept _ _ _)

theorem markSeized_setsKept (n c : Nat) (s : State) : SetsKept s (markSeized n c s) := by
  unfold markSeized
  split
  · exact SetsKept.of_service rfl
  · exact SetsKept.refl s

theorem occupyOut_setsKept (n c : Nat) (call : CallRef) (s : State) : SetsKept s (occupyOut n c call s) :=
  ((SetsKept.of_service (changeCircuit_service c _ s)).trans (markSeized_setsKept _ _ _)).trans (report_setsKept _ _ _)

theorem releaseLeg_setsKept (c : Nat) (call : CallRef) (fault : Bool) (s : State) :
    SetsKept s (releaseLeg c call fault s) := by
  unfold releaseLeg
  split
  · exact SetsKept.refl s
  split
  · exact changeAndReport_setsKept _ _ s
  · exact SetsKept.refl s

theorem expireGuard_setsKept (c : Nat) (s : State) : SetsKept s (expireGuard c s) := by
  unfold expireGuard
  repeat' split
  all_goals first
    | exact SetsKept.refl s
    | exact changeAndReport_setsKept _ _ s

theorem flagRange_setsKept (r : Range) (k : FlagKind) (v : Bool) (s : State) : SetsKept s (flagRange r k v s) :=
  (SetsKept.foldl (fun s (e : Nat × Equipped) => changeCircuit e.1 (withFlag k v) s)
      (fun s e => SetsKept.of_service (changeCircuit_service e.1 _ s)) (equippedIn s r) s).trans (report_setsKept _ s _)

theorem clearPlant_setsKept (s : State) : SetsKept s (clearPlant s) :=
  (SetsKept.of_service (idlePlant_service s)).trans (takeReports_setsKept _ _ _)

/-! ## What is kept of the tables -/

/-- The plans, the destinations and the plan sets are as they were, and the analyser, the route memory and the call table
stay sound. -/
structure TablesKept (s t : State) : Prop where
  analyser : AnalyserSound s → AnalyserSound t
  destinations : t.analyser.destinations = s.analyser.destinations
  routes : t.routes = s.routes
  sets : SetsKept s t
  memory : MemorySound s → MemorySound t
  calls : CallsSound s → CallsSound t

theorem TablesKept.trans {s t u : State} (h : TablesKept s t) (g : TablesKept t u) : TablesKept s u where
  analyser := g.analyser ∘ h.analyser
  destinations := g.destinations.trans h.destinations
  routes := g.routes.trans h.routes
  sets := h.sets.trans g.sets
  memory := g.memory ∘ h.memory
  calls := g.calls ∘ h.calls

theorem AnalyserSound.of_analyser {s t : State} (same : t.analyser = s.analyser) (h : AnalyserSound s) : AnalyserSound t := by
  unfold AnalyserSound State.gap State.dest at h ⊢
  rw [same]
  exact h

/-- R103, R104, R122: the call table is sound by its slots, its orphans and its OFFERs in progress alone. -/
theorem CallsSound.of_same {s t : State} (slots : t.calls.slots = s.calls.slots)
    (limit : t.calls.orphanLimit = s.calls.orphanLimit) (orphans : t.calls.orphans = s.calls.orphans)
    (offers : t.calls.offers = s.calls.offers) (h : CallsSound s) : CallsSound t := by
  unfold CallsSound State.slot at h ⊢
  rw [slots, limit, orphans, offers]
  exact h

theorem CallsSound.of_calls {s t : State} (same : t.calls = s.calls) (h : CallsSound s) : CallsSound t :=
  h.of_same (by rw [same]) (by rw [same]) (by rw [same]) (by rw [same])

/-- Operations on other blocks keep the tables. -/
theorem TablesKept.of_same {s t : State} (analyser : t.analyser = s.analyser) (routes : t.routes = s.routes)
    (memory : t.memory = s.memory) (calls : t.calls = s.calls) (sets : SetsKept s t) : TablesKept s t where
  analyser := .of_analyser analyser
  destinations := by rw [analyser]
  routes := routes
  sets := sets
  memory sound := sound.of_same memory (by rw [analyser]) (by rw [routes])
  calls := .of_calls calls

theorem TablesKept.refl (s : State) : TablesKept s s := .of_same rfl rfl rfl rfl rfl

theorem TablesKept.foldl {α : Type} (f : State → α → State) (hf : ∀ s x, TablesKept s (f s x)) (l : List α) (s : State) :
    TablesKept s (l.foldl f s) := by
  induction l generalizing s with
  | nil => exact TablesKept.refl s
  | cons x l ih => exact (hf s x).trans (ih (f s x))

/-- An operation on the call table alone. -/
theorem TablesKept.of_calls {s : State} {x : CallTable} (calls : CallsSound s → CallsSound { s with calls := x }) :
    TablesKept s { s with calls := x } where
  analyser h := h
  destinations := rfl
  routes := rfl
  sets := rfl
  memory h := h.of_same rfl rfl rfl
  calls := calls

/-- An operation on the route memory alone. -/
theorem OnlyMemory.tablesKept {s t : State} (h : OnlyMemory s t) (memory : MemorySound s → MemorySound t) :
    TablesKept s t where
  analyser := .of_analyser (by rw [h])
  destinations := by rw [h]
  routes := by rw [h]
  sets := by rw [SetsKept, h]
  memory := memory
  calls := .of_calls (by rw [h])

theorem Planted.tablesKept {s t : State} (h : Planted s t) (sets : SetsKept s t) : TablesKept s t :=
  .of_same (by rw [h.1]) (by rw [h.1]) (by rw [h.1]) h.calls sets

theorem Served.tablesKept {s t : State} (h : Served s t) (sets : SetsKept s t) : TablesKept s t := h.planted.tablesKept sets

theorem Told.tablesKept {s t : State} (h : Told s t) : TablesKept s t := h.served.tablesKept h.setsKept

theorem Billed.tablesKept {s t : State} (h : Billed s t) : TablesKept s t where
  analyser := .of_analyser h.analyser
  destinations := by rw [h.analyser]
  routes := h.routes
  sets := .of_service h.service
  memory := h.2
  calls := .of_calls h.calls

/-! ## The route memory (R88, R89, R93, R96) -/

/-- One set is replaced by a sound one. -/
theorem MemorySound.setMemorySet {s : State} (h : MemorySound s) {k : Nat} {m : MemorySet} (sound : SetSound s k m) :
    MemorySound (s.setMemorySet k m) := by
  obtain ⟨canonical, sets⟩ := (memorySound_iff s).mp h
  refine (memorySound_iff _).mpr ⟨Table.set_wf _ _ _ canonical, fun j => ?_⟩
  by_cases here : j = k
  · subst here
    rw [State.memorySet_setMemorySet_same]
    exact ⟨sound.four, sound.pointer, sound.entries, sound.once⟩
  · rw [State.memorySet_setMemorySet_other _ _ _ _ here]
    exact ⟨(sets j).four, (sets j).pointer, (sets j).entries, (sets j).once⟩

/-- R89, R96: an entry takes the place of a valid one of the same tag, or of one way of a set without that tag. -/
theorem SetSound.setWay {s : State} {k : Nat} {m : MemorySet} (h : SetSound s k m) {way : Nat} {e : MemoryEntry}
    (fits : EntryFits s k e) (apart : ∀ (i : Nat) (f : MemoryEntry), i ≠ way → m.ways[i]? = some (some f) → f.tag ≠ e.tag)
    {pointer : Nat} (inside : pointer < 4) : SetSound s k ⟨m.ways.set way (some e), pointer⟩ := by
  have read : ∀ (i : Nat) (f : MemoryEntry), (m.ways.set way (some e))[i]? = some (some f) →
      (i = way ∧ f = e) ∨ (i ≠ way ∧ m.ways[i]? = some (some f)) := fun i f here => by
    rw [List.getElem?_set] at here
    split at here
    · next same =>
      subst same
      split at here
      · exact .inl ⟨rfl, (Option.some.inj (Option.some.inj here)).symm⟩
      · cases here
    · next other => exact .inr ⟨Ne.symm other, here⟩
  refine ⟨(List.length_set).trans h.four, inside, fun i f here => ?_, fun i j f g hi hj same => ?_⟩
  · rcases read i f here with ⟨-, rfl⟩ | ⟨-, before⟩
    · exact fits
    · exact h.entries i f before
  · rcases read i f hi with ⟨rfl, rfl⟩ | ⟨otherI, beforeI⟩ <;> rcases read j g hj with ⟨rfl, rfl⟩ | ⟨otherJ, beforeJ⟩
    · rfl
    · exact absurd same.symm (apart j g otherJ beforeJ)
    · exact absurd same (apart i f otherI beforeI)
    · exact h.once i j f g beforeI beforeJ same

theorem placeEntry_cases (m : MemorySet) (e : MemoryEntry) :
    ∃ way, placeEntry m e = ⟨m.ways.set way (some e), m.pointer⟩ ∨
      placeEntry m e = ⟨m.ways.set way (some e), (m.pointer + 1) % 4⟩ := by
  unfold placeEntry
  split
  · exact ⟨_, .inl rfl⟩
  · exact ⟨_, .inr rfl⟩

theorem setOf_tagOf (d : Nat) : tagOf d * Config.memorySets + setOf d = d := Nat.div_add_mod' d Config.memorySets

theorem setOf_lt (d : Nat) : setOf d < Config.memorySets := Nat.mod_lt d (by decide)

/-- R93: an allocation for a destination without an entry, whose plan is the one allocated for and has a pool. -/
theorem allocate_memorySound {s : State} (h : MemorySound s) {d p : Nat} (noEntry : entryOf s d = none)
    (plan : (s.dest d).plan = p) (pool : poolSteps (s.plan p) ≠ []) : MemorySound (allocate d p s) := by
  obtain ⟨-, sets⟩ := (memorySound_iff s).mp h
  obtain ⟨st, listed⟩ := chooseMember_mem pool
  have fits : EntryFits s (setOf d) ⟨tagOf d, p, chooseMember s p, 2⟩ :=
    ⟨show 2 ≤ 4 by decide, setOf_lt d, (congrArg (fun i => (s.dest i).plan) (setOf_tagOf d)).trans plan, st,
      (mem_poolSteps_iff _ _ _).mp listed⟩
  have apart : ∀ (way i : Nat) (f : MemoryEntry), i ≠ way → (s.memorySet (setOf d)).ways[i]? = some (some f) →
      f.tag ≠ tagOf d := fun _ _ f _ here => (entryOf_eq_none_iff s d).mp noEntry f (List.mem_of_getElem? here)
  refine h.setMemorySet ?_
  obtain ⟨way, placed | placed⟩ := placeEntry_cases (s.memorySet (setOf d)) ⟨tagOf d, p, chooseMember s p, 2⟩ <;> rw [placed]
  · exact (sets _).setWay fits (apart way) (sets _).pointer
  · exact (sets _).setWay fits (apart way) (Nat.mod_lt _ (by decide))

theorem afterLookup_memorySound {s : State} (h : MemorySound s) {d p : Nat} (pool : poolSteps (s.plan p) ≠ []) :
    MemorySound (afterLookup d p s) := by
  cases entry : entryOf s d with
  | some x => rw [afterLookup_of_entry entry]; exact h
  | none =>
    by_cases plan : (s.dest d).plan = p
    · cases gap : s.gap d with
      | none =>
        rw [afterLookup_of_allocated (lookup_of_noGap entry plan gap)]
        exact allocate_memorySound h entry plan pool
      | some g =>
        rw [afterLookup_of_ne fun m => by rw [lookup_of_gap entry plan (by rw [gap]; rfl)]; exact Lookup.noConfusion]
        exact h
    · rw [afterLookup_of_ne fun m => by rw [lookup_of_otherPlan entry plan]; exact Lookup.noConfusion]
      exact h

theorem afterChoice_memorySound {s : State} (h : MemorySound s) {c : WalkCall} (pool : poolSteps (s.plan c.plan) ≠ []) :
    MemorySound (afterChoice s c) := by
  unfold afterChoice
  split
  · exact afterLookup_memorySound h pool
  · exact h

/-- R96: an outcome that keeps the tag and the plan of an entry, and leaves it within its values. -/
theorem outcome_memorySound {s : State} (h : MemorySound s) {f : MemoryEntry → MemoryEntry} {d p i : Nat}
    (tag : ∀ e, (f e).tag = e.tag) (plan : ∀ e, (f e).plan = e.plan) (confidence : ∀ e, e.confidence ≤ 4 → (f e).confidence ≤ 4)
    (member : ∀ e st, e.plan = p → (s.plan p)[e.member]? = some st → st.kind = .pool →
      ∃ x, (s.plan p)[(f e).member]? = some x ∧ x.kind = .pool) : MemorySound (outcome f d p i s) := by
  obtain ⟨-, sets⟩ := (memorySound_iff s).mp h
  cases entry : entryOf s d with
  | none => rw [outcome_dropped fun _ _ some => by rw [entry] at some; cases some]; exact h
  | some x =>
    obtain ⟨way, e⟩ := x
    by_cases same : e.plan = p ∧ e.member = i
    · obtain ⟨rfl, rfl⟩ := same
      obtain ⟨here, -⟩ := (entryOf_eq_some_iff h d way e).mp entry
      obtain ⟨most, inside, dest, st, step, ofPool⟩ := (sets _).entries way e here
      rw [outcome_of_entry entry]
      refine h.setMemorySet ((sets _).setWay ⟨confidence e most, inside, ?_, ?_⟩ (fun j g other there same => ?_)
        (sets _).pointer)
      · rw [tag, plan]; exact dest
      · rw [plan]; exact member e st rfl step ofPool
      · exact other ((sets _).once j way g e there here (same.trans (tag e)))
    · rw [outcome_dropped fun w g some => by rw [entry] at some; cases some; exact same]
      exact h

/-- R97: the POOL step after a POOL step is one. -/
theorem nextMember_pool {steps : List PlanStep} {i : Nat} {st : PlanStep} (step : steps[i]? = some st)
    (ofPool : st.kind = .pool) : ∃ x, steps[nextMember steps i]? = some x ∧ x.kind = .pool := by
  unfold nextMember
  split
  · next j x found => exact ⟨x, (mem_poolSteps_iff _ _ _).mp (List.mem_of_find?_eq_some found)⟩
  · split
    · next j x rest pools => exact ⟨x, (mem_poolSteps_iff steps j x).mp (pools ▸ List.mem_cons_self)⟩
    · exact ⟨st, step, ofPool⟩

theorem failureOutcome_memorySound {s : State} (h : MemorySound s) (d p i : Nat) : MemorySound (failureOutcome d p i s) := by
  refine outcome_memorySound h (fun e => ?_) (fun e => ?_) (fun e most => ?_) (fun e st _ step ofPool => ?_) <;>
    by_cases low : e.confidence = 0
  all_goals first
    | rw [failEntry_of_zero low]
    | rw [failEntry_of_pos (Nat.pos_of_ne_zero low)]
  · exact show 2 ≤ 4 by decide
  · exact (Nat.sub_le _ _).trans most
  · exact nextMember_pool step ofPool
  · exact ⟨st, step, ofPool⟩

theorem successOutcome_memorySound {s : State} (h : MemorySound s) (d p i : Nat) : MemorySound (successOutcome d p i s) :=
  outcome_memorySound h (fun _ => rfl) (fun _ => rfl) (fun _ _ => Nat.min_le_right _ _)
    (fun _ st _ step ofPool => ⟨st, step, ofPool⟩)

theorem failureOutcome_tablesKept (d p i : Nat) (s : State) : TablesKept s (failureOutcome d p i s) :=
  (failureOutcome_onlyMemory d p i s).tablesKept fun h => failureOutcome_memorySound h d p i

theorem successOutcome_onlyMemory (d p i : Nat) (s : State) : OnlyMemory s (successOutcome d p i s) := by
  simp only [successOutcome, outcome]
  split
  · exact OnlyMemory.refl s
  split
  · rfl
  · exact OnlyMemory.refl s

theorem successOutcome_tablesKept (d p i : Nat) (s : State) : TablesKept s (successOutcome d p i s) :=
  (successOutcome_onlyMemory d p i s).tablesKept fun h => successOutcome_memorySound h d p i

/-! ## The walk (R73 to R79) -/

theorem occupyOut_tablesKept (n c : Nat) (call : CallRef) (s : State) : TablesKept s (occupyOut n c call s) :=
  (occupyOut_planted n c call s).tablesKept (occupyOut_setsKept n c call s)

theorem tryStep_tablesKept (c : WalkCall) (i : Nat) (st : PlanStep) (s : State) :
    TablesKept s (tryStep c i st s).state := by
  simp only [tryStep]
  split
  · split
    · exact occupyOut_tablesKept _ _ _ s
    · exact TablesKept.refl s
  · exact TablesKept.refl s

theorem trySteps_tablesKept (c : WalkCall) (l : List (Nat × PlanStep)) (s : State) :
    TablesKept s (trySteps c l s).state := by
  induction l generalizing s with
  | nil => exact TablesKept.refl s
  | cons x l ih =>
    obtain ⟨i, st⟩ := x
    have tried := tryStep_tablesKept c i st s
    simp only [trySteps]
    split
    · next e => rw [e] at tried; exact tried
    · next e => rw [e] at tried; exact tried.trans (ih _)

theorem tryIndex_tablesKept (c : WalkCall) (steps : List PlanStep) (i : Option Nat) (s : State) :
    TablesKept s (tryIndex c steps i s).state := by
  simp only [tryIndex]
  split
  · exact TablesKept.refl s
  · split
    · exact tryStep_tablesKept _ _ _ s
    · exact TablesKept.refl s

theorem poolPart_tablesKept {c : WalkCall} {s : State} (pool : poolSteps (s.plan c.plan) ≠ []) (steps : List PlanStep) :
    TablesKept s (poolPart c steps s).state := by
  have tried := ((afterChoice_onlyMemory s c).tablesKept fun h => afterChoice_memorySound h pool).trans
    (tryIndex_tablesKept c steps (poolChoice s c steps).step (afterChoice s c))
  simp only [poolPart]
  split
  · exact tried
  · refine tried.trans (TablesKept.trans ?_ (trySteps_tablesKept _ _ _))
    simp only [handPoolFailure]
    split
    · exact failureOutcome_tablesKept _ _ _ _
    · exact TablesKept.refl _

/-- R73: a walk over its plan's steps keeps the tables: it allocates only where the plan has a pool. -/
theorem walk_tablesKept (c : WalkCall) (s : State) : TablesKept s (walk c (s.plan c.plan) s).state := by
  have primary := trySteps_tablesKept c (partSteps .primary c.start (s.plan c.plan)) s
  simp only [walk]
  split
  · exact primary
  split
  · next made =>
    refine primary.trans (poolPart_tablesKept ?_ _)
    obtain ⟨-, _, _, -, step, ofPool⟩ := (poolPartMade_iff _ _).mp made
    rw [State.plan, primary.routes]
    exact poolSteps_ne_nil step ofPool
  · exact primary.trans (trySteps_tablesKept _ _ _)

end Sys2Proof.Machine
end

section
/-! What the operations of the call table leave of the tables (R103, R104, R106, R116, R118, R122). -/

namespace Sys2Proof.Machine

/-! ## One slot of the call table is written (R103, R104, R122) -/

/-- R104, R122: what is asked of a record in a slot. -/
def RecordFits (k : Nat) (c : Call) : Prop :=
  k < Config.slots ∧ (c.owner = none ↔ c.orphanDeadline.isSome = true) ∧ (c.owner = none → c.former.isSome = true)

theorem CallsSound.recordFits {s : State} (h : CallsSound s) {k : Nat} {c : Call} (used : (s.slot k).call = some c) :
    RecordFits k c := by
  obtain ⟨-, -, -, -, -, records, -⟩ := h
  exact records k c used

/-- R107: a slot in use is held by no OFFER in progress. -/
theorem CallsSound.apart {s : State} (h : CallsSound s) {k : Nat} {c : Call} (used : (s.slot k).call = some c) :
    ∀ o ∈ s.calls.offers, o.ref.slot ≠ k := by
  obtain ⟨-, -, -, -, -, -, -, offers⟩ := h
  rintro o listed rfl
  obtain ⟨-, free, -⟩ := offers o listed
  rw [free] at used
  cases used

theorem CallsSound.mem_orphans {s : State} (h : CallsSound s) {k : Nat} {c : Call} (used : (s.slot k).call = some c) :
    k ∈ s.calls.orphans ↔ c.owner = none := by
  obtain ⟨-, -, -, -, orphans, -⟩ := h
  simp [orphans, used]

/-- The slot takes a value whose record fits, the orphan list follows it, and no OFFER in progress holds the slot. -/
theorem CallsSound.write {s t : State} (h : CallsSound s) {k : Nat} {v : Slot} (slots : t.calls.slots = s.calls.slots.set k v)
    (limit : t.calls.orphanLimit = s.calls.orphanLimit) (offers : t.calls.offers = s.calls.offers)
    (apart : ∀ o ∈ s.calls.offers, o.ref.slot ≠ k) (generation : v.generation < 256)
    (record : ∀ c, v.call = some c → RecordFits k c) (once : t.calls.orphans.Nodup)
    (others : ∀ j, j ≠ k → (j ∈ t.calls.orphans ↔ j ∈ s.calls.orphans))
    (here : k ∈ t.calls.orphans ↔ ∃ c, v.call = some c ∧ c.owner = none) : CallsSound t := by
  obtain ⟨canonical, most, -, generations, orphans, records, distinct, held⟩ := h
  have read : ∀ j, t.slot j = if j = k then v else s.slot j := fun j => by
    simp only [State.slot, slots, Table.get_set]
  refine ⟨by rw [slots]; exact Table.set_wf _ _ _ canonical, by rw [limit]; exact most, once, fun j => ?_, fun j => ?_,
    fun j c used => ?_, by rw [offers]; exact distinct, fun o listed => ?_⟩
  · rw [read]
    split
    · exact generation
    · exact generations j
  · rw [read]
    by_cases same : j = k
    · rw [same, if_pos rfl]
      exact here
    · rw [if_neg same, others j same]
      exact orphans j
  · rw [read] at used
    split at used
    · next same => subst same; exact record c used
    · exact records j c used
  · rw [offers] at listed
    rw [read, if_neg (apart o listed)]
    exact held o listed

/-- R104: a record in use is replaced by one that fits and has an owner exactly as it had. -/
theorem CallsSound.setCall {s : State} (h : CallsSound s) {k : Nat} {x y : Call} (used : (s.slot k).call = some x)
    (owner : y.owner = none ↔ x.owner = none) (deadline : y.orphanDeadline.isSome = x.orphanDeadline.isSome)
    (former : y.former = x.former) : CallsSound (s.setCall k y) := by
  obtain ⟨inside, due, lost⟩ := h.recordFits used
  obtain ⟨-, -, once, generations, -⟩ := id h
  refine h.write rfl rfl rfl (h.apart used) (generations k) (fun c same => ?_) once (fun _ _ => Iff.rfl) ?_
  · obtain rfl : y = c := Option.some.inj same
    exact ⟨inside, by rw [owner, deadline]; exact due, fun none => by rw [former]; exact lost (owner.mp none)⟩
  · exact (h.mem_orphans used).trans (owner.symm.trans (by simp))

/-- R116 step 4: the end of a call that a reference names. -/
theorem CallsSound.ended {s t : State} (h : CallsSound s) {r : CallRef} {c : Call} (used : s.call r = some c)
    (calls : t.calls = s.calls.ended r) : CallsSound t := by
  obtain ⟨-, slot⟩ := (s.call_eq_some_iff r c).mp used
  obtain ⟨-, -, once, -⟩ := id h
  refine h.write (k := r.slot) (v := ⟨nextGeneration r.generation, none⟩) (by rw [calls]; rfl) (by rw [calls]; rfl)
    (by rw [calls]; rfl) (h.apart slot) (Nat.mod_lt _ (by decide)) (fun c none => by cases none) ?_ (fun j other => ?_) ?_
  all_goals rw [calls]
  · exact once.filter _
  · simp [CallTable.ended, other]
  · simp [CallTable.ended]

/-- R118, R120: OFFERs in progress are marked, their references, records and senders as they were. -/
theorem CallsSound.mapOffers {s t : State} (h : CallsSound s) {f : OfferInProgress → OfferInProgress}
    (same : ∀ o, (f o).ref = o.ref ∧ (f o).record = o.record ∧ (f o).sender = o.sender)
    (slots : t.calls.slots = s.calls.slots) (limit : t.calls.orphanLimit = s.calls.orphanLimit)
    (orphans : t.calls.orphans = s.calls.orphans) (offers : t.calls.offers = s.calls.offers.map f) : CallsSound t := by
  have slot : ∀ k, t.slot k = s.slot k := fun k => by simp only [State.slot, slots]
  obtain ⟨canonical, most, once, generations, listed, records, distinct, held⟩ := h
  refine ⟨by rw [slots]; exact canonical, by rw [limit]; exact most, by rw [orphans]; exact once,
    fun k => by rw [slot]; exact generations k, fun k => by rw [orphans, slot]; exact listed k,
    fun k c => by rw [slot]; exact records k c, ?_, ?_⟩
  · have refs : (fun o : OfferInProgress => o.ref.slot) ∘ f = fun o => o.ref.slot :=
      funext fun o => congrArg CallRef.slot (same o).1
    rw [offers, List.map_map, refs]
    exact distinct
  · intro o here
    rw [offers] at here
    obtain ⟨a, before, rfl⟩ := List.mem_map.mp here
    obtain ⟨ref, record, sender⟩ := same a
    rw [slot, ref, record, sender]
    exact held a before

/-! ## Records (R111 to R113, R118, R121 to R125) -/

section
variable {s : State}

theorem setCall_tablesKept {k : Nat} {x y : Call} (used : (s.slot k).call = some x) (owner : y.owner = none ↔ x.owner = none)
    (deadline : y.orphanDeadline.isSome = x.orphanDeadline.isSome) (former : y.former = x.former) :
    TablesKept s (s.setCall k y) := TablesKept.of_calls fun h => h.setCall used owner deadline former

/-- Every field but the owner, the deadline and the former owner may change. -/
theorem setCall_call_tablesKept {r : CallRef} {x y : Call} (used : s.call r = some x) (owner : y.owner = x.owner)
    (deadline : y.orphanDeadline = x.orphanDeadline) (former : y.former = x.former) : TablesKept s (s.setCall r.slot y) :=
  setCall_tablesKept ((s.call_eq_some_iff r x).mp used).2 (by rw [owner]) (by rw [deadline]) former

end

theorem changeCall_tablesKept (s : State) (k : Nat) {f : Call → Call}
    (owner : ∀ x, (s.slot k).call = some x → ((f x).owner = none ↔ x.owner = none))
    (deadline : ∀ x, (f x).orphanDeadline.isSome = x.orphanDeadline.isSome) (former : ∀ x, (f x).former = x.former) :
    TablesKept s (s.changeCall k f) := by
  cases used : (s.slot k).call with
  | none => rw [State.changeCall, used]; exact TablesKept.refl s
  | some x => rw [changeCall_eq used]; exact setCall_tablesKept used (owner x used) (deadline x) (former x)

theorem displace_tablesKept (d : CallRef) (s : State) : TablesKept s (displace d s) := by
  cases used : s.call d with
  | none =>
    rw [displace_of_none used]
    refine TablesKept.of_calls fun h => h.mapOffers (fun o => ?_) rfl rfl rfl rfl
    split <;> exact ⟨rfl, rfl, rfl⟩
  | some x =>
    rw [displace_of_some used]
    have marked : TablesKept s (s.setCall d.slot { x with leg := none, reselectionPending := true }) :=
      setCall_call_tablesKept used rfl rfl rfl
    exact marked.trans (TablesKept.of_calls (.of_same rfl rfl rfl rfl))

theorem changeAndReport_tablesKept (c : Nat) (f : Equipped → Equipped) (s : State) :
    TablesKept s (changeAndReport c f s) :=
  (changeAndReport_planted c f s).tablesKept (changeAndReport_setsKept c f s)

theorem releaseLeg_tablesKept (c : Nat) (r : CallRef) (fault : Bool) (s : State) :
    TablesKept s (releaseLeg c r fault s) := (releaseLeg_planted c r fault s).tablesKept (releaseLeg_setsKept c r fault s)

theorem releaseLegs_tablesKept (r : CallRef) (c : Call) (s : State) : TablesKept s (releaseLegs r c s) := by
  simp only [releaseLegs]
  split
  · exact (releaseLeg_tablesKept _ _ _ s).trans (releaseLeg_tablesKept _ _ _ _)
  · exact releaseLeg_tablesKept _ _ _ s

theorem endCall_tablesKept (r : CallRef) (cause : Cause) (time : Nat) (forced : Bool) (s : State) :
    TablesKept s (endCall r cause time forced s) := by
  cases used : s.call r with
  | none => rw [endCall_of_none used]; exact TablesKept.refl s
  | some c =>
    have before := (priceAndLower_billed r c cause time forced s).tablesKept.trans (releaseLegs_tablesKept r c _)
    rw [endCall_eq used]
    exact
      { analyser := before.analyser, destinations := before.destinations, routes := before.routes, sets := before.sets
        memory := fun h => (before.memory h).of_same rfl rfl rfl, calls := fun h => h.ended used rfl }

theorem notify_tablesKept (p : Port) (n : Notice) (s : State) : TablesKept s (notify p n s) := (notify_told p n s).tablesKept

theorem drainCall_tablesKept (gs : List Nat) (s : State) (k : Nat) : TablesKept s (drainCall gs s k) := by
  simp only [drainCall]
  split
  · exact TablesKept.refl s
  split
  · split
    · exact (endCall_tablesKept _ _ _ _ s).trans (notify_tablesKept _ _ _)
    · exact endCall_tablesKept _ _ _ _ s
  · exact TablesKept.refl s

theorem takeReleaseList_tablesKept (gs : List Nat) (s : State) : TablesKept s (takeReleaseList gs s) := by
  have noted : TablesKept s { s with calls := { s.calls with offers := s.calls.offers.map (OfferInProgress.note gs) } } :=
    TablesKept.of_calls fun h => h.mapOffers (f := OfferInProgress.note gs) (fun o => ?_) rfl rfl rfl rfl
  · exact noted.trans (TablesKept.foldl _ (drainCall_tablesKept gs) _ _)
  unfold OfferInProgress.note
  split <;> exact ⟨rfl, rfl, rfl⟩

/-! ## Orphans and port loss (R121 to R125) -/

/-- R122: the ANSWERED record of a lost port joins the orphan list. -/
theorem orphan_callsSound {s : State} (h : CallsSound s) {p : Port} {k : Nat} {x : Call} (used : (s.slot k).call = some x)
    (owned : x.owner ≠ none) : CallsSound (orphan p k s) := by
  obtain ⟨inside, -⟩ := h.recordFits used
  obtain ⟨-, -, once, generations, -⟩ := id h
  have apart : k ∉ s.calls.orphans := mt (h.mem_orphans used).mp owned
  have slots : (orphan p k s).calls.slots = s.calls.slots.set k
      { s.slot k with
        call := some
          { x with
            owner := none, former := some ⟨p, s.now⟩, orphanDeadline := some (s.now + s.calls.orphanLimit * 1000) } } := by
    simp only [orphan, changeCall_eq used]
    rfl
  refine h.write slots (by rw [orphan_calls]) (by rw [orphan_calls]) (h.apart used) (generations k) (fun c same => ?_) ?_
    (fun j other => ?_) ?_
  · obtain rfl := Option.some.inj same
    exact ⟨inside, by simp, fun _ => rfl⟩
  · rw [orphan_calls]
    exact List.nodup_append.mpr ⟨once, List.nodup_singleton k, fun a listed b single => by
      rw [List.mem_singleton.mp single]; rintro rfl; exact apart listed⟩
  · rw [orphan_calls]
    simp [other]
  · rw [orphan_calls]
    simp

theorem orphan_tablesKept {s : State} (p : Port) {k : Nat} {x : Call} (used : (s.slot k).call = some x)
    (owned : x.owner ≠ none) : TablesKept s (orphan p k s) := by
  have frame : orphan p k s = { s with calls := (orphan p k s).calls } := by
    simp only [orphan, changeCall_eq used]
    rfl
  rw [frame]
  exact TablesKept.of_calls fun h => (orphan_callsSound h (p := p) used owned).of_calls rfl

theorem loseCall_tablesKept {s : State} (p : Port) {k : Nat} {x : Call} (used : (s.slot k).call = some x)
    (owned : x.owner ≠ none) : TablesKept s (loseCall p s k) := by
  rw [loseCall_eq p used]
  split
  · split
    · exact endCall_tablesKept _ _ _ _ s
    · exact orphan_tablesKept p used owned
  · exact endCall_tablesKept _ _ _ _ s

/-- R121, R122: the records of some slots, each used and owned when its turn comes. -/
theorem foldl_loseCall_tablesKept (p : Port) {ks : List Nat} (once : ks.Nodup) {s : State}
    (owned : ∀ k ∈ ks, ∃ x, (s.slot k).call = some x ∧ x.owner ≠ none) : TablesKept s (ks.foldl (loseCall p) s) := by
  induction ks generalizing s with
  | nil => exact TablesKept.refl s
  | cons k ks ih =>
    obtain ⟨apart, once⟩ := List.nodup_cons.mp once
    obtain ⟨x, used, owner⟩ := owned k List.mem_cons_self
    refine (loseCall_tablesKept p used owner).trans (ih once fun j listed => ?_)
    rw [(loseCall_onSlot p).other s k j (ne_of_mem_of_not_mem listed apart)]
    exact owned j (List.mem_cons_of_mem k listed)

theorem foldl_takeOver_tablesKept (q : Port) {ks : List Nat} (once : ks.Nodup) {s : State}
    (owned : ∀ k ∈ ks, ∃ x, (s.slot k).call = some x ∧ x.owner ≠ none) :
    TablesKept s (ks.foldl (fun s k => s.changeCall k (fun c => { c with owner := some q })) s) := by
  induction ks generalizing s with
  | nil => exact TablesKept.refl s
  | cons k ks ih =>
    obtain ⟨apart, once⟩ := List.nodup_cons.mp once
    obtain ⟨x, used, owner⟩ := owned k List.mem_cons_self
    have first : TablesKept s (s.changeCall k (fun c => { c with owner := some q })) := by
      refine changeCall_tablesKept s k (fun y same => ?_) (fun _ => rfl) (fun _ => rfl)
      obtain rfl : x = y := Option.some.inj (used.symm.trans same)
      simp [owner]
    refine first.trans (ih once fun j listed => ?_)
    rw [(changeCall_onSlot _).other s k j (ne_of_mem_of_not_mem listed apart)]
    exact owned j (List.mem_cons_of_mem k listed)

/-- R121, R122: the records of the lost port are each used and owned by it. -/
theorem slotsOwnedBy_owned {s : State} (h : CallsSound s) (p : Port) :
    (slotsOwnedBy s p).Nodup ∧ ∀ k ∈ slotsOwnedBy s p, ∃ x, (s.slot k).call = some x ∧ x.owner = some p := by
  obtain ⟨canonical, -⟩ := h
  exact ⟨(slotsOwnedBy_rising canonical p).imp Nat.ne_of_lt, fun k => (mem_slotsOwnedBy canonical p k).mp⟩

theorem loseCalls_tablesKept {s : State} (h : CallsSound s) (l : PortLoss) : TablesKept s (loseCalls l s) := by
  obtain ⟨once, owned⟩ := slotsOwnedBy_owned h l.port
  have used : ∀ k ∈ slotsOwnedBy s l.port, ∃ x, (s.slot k).call = some x ∧ x.owner ≠ none := fun k listed =>
    (owned k listed).imp fun x ⟨used, owner⟩ => ⟨used, by simp [owner]⟩
  unfold loseCalls
  split
  · exact (foldl_takeOver_tablesKept _ once used).trans (notify_tablesKept _ _ _)
  · exact foldl_loseCall_tablesKept l.port once used

theorem lossTaken_callsSound {s : State} (h : CallsSound s) (l : PortLoss) : CallsSound (lossTaken l s) := by
  refine h.mapOffers (f := OfferInProgress.orphan l) (fun o => ?_) rfl rfl rfl rfl
  unfold OfferInProgress.orphan
  split <;> exact ⟨rfl, rfl, rfl⟩

theorem takePortLoss_tablesKept {s : State} (h : CallsSound s) (l : PortLoss) : TablesKept s (takePortLoss l s) := by
  have lost : TablesKept s (loseCalls l (lossTaken l s)) :=
    (TablesKept.of_calls fun h => lossTaken_callsSound h l).trans (loseCalls_tablesKept (lossTaken_callsSound h l) l)
  rw [takePortLoss_eq, sendDetachDone]
  split
  · exact lost
  · refine lost.trans ?_
    rw [compose_blocks]
    exact TablesKept.of_same rfl rfl rfl rfl rfl

theorem expireOrphan_tablesKept (s : State) (k : Nat) : TablesKept s (expireOrphan s k) := endCall_tablesKept _ _ _ _ s

/-- R124: an adopted orphan leaves the list as it takes its new owner. -/
theorem adoptCall_callsSound (p : Port) {s : State} (k : Nat) (h : CallsSound s) : CallsSound (adoptCall p s k) := by
  obtain ⟨-, -, once, generations, orphans, -⟩ := id h
  cases used : (s.slot k).call with
  | none =>
    have absent : k ∉ s.calls.orphans := fun listed => by
      obtain ⟨c, some, -⟩ := (orphans k).mp listed
      rw [used] at some
      cases some
    have same : adoptCall p s k = { s with calls := { s.calls with orphans := s.calls.orphans } } := by
      have filtered : s.calls.orphans.filter (fun i => decide (i ≠ k)) = s.calls.orphans :=
        List.filter_eq_self.mpr fun i listed => decide_eq_true (ne_of_mem_of_not_mem listed absent)
      simp only [adoptCall, leaveOrphans, State.changeCall, used, filtered]
    rw [same]
    exact h
  | some x =>
    obtain ⟨inside, -⟩ := h.recordFits used
    simp only [adoptCall, leaveOrphans, changeCall_eq used]
    refine h.write (v := { s.slot k with call := some { x with owner := some p, orphanDeadline := none } }) rfl rfl rfl
      (h.apart used) (generations k) (fun c same => ?_) (once.filter _) (fun j other => ?_) ?_
    · obtain rfl := Option.some.inj same
      exact ⟨inside, by simp, fun none => by cases none⟩
    · simp [State.setCall, State.setSlot, other]
    · simp

theorem adoptCall_tablesKept (p : Port) (s : State) (k : Nat) : TablesKept s (adoptCall p s k) := by
  have frame : adoptCall p s k = { s with calls := (adoptCall p s k).calls } := by
    simp only [adoptCall, leaveOrphans]
    rw [changeCall_calls]
  rw [frame]
  exact TablesKept.of_calls fun h => (adoptCall_callsSound p k h).of_calls rfl

theorem drawnDeadline_isSome (limit : Nat) (c : Call) : (drawnDeadline limit c).isSome = c.orphanDeadline.isSome := by
  unfold drawnDeadline
  cases c.orphanDeadline <;> cases c.former <;> rfl

theorem drawIn_tablesKept (limit : Nat) (s : State) (k : Nat) : TablesKept s (drawIn limit s k) :=
  changeCall_tablesKept s k (fun _ _ => Iff.rfl) (drawnDeadline_isSome limit) (fun _ => rfl)

theorem drawInAll_tablesKept {limit : Nat} (range : limit ≤ 3600) (s : State) : TablesKept s (drawInAll limit s) :=
  TablesKept.trans (t := { s with calls := { s.calls with orphanLimit := limit } })
    (TablesKept.of_calls fun ⟨canonical, _, rest⟩ => ⟨canonical, range, rest⟩) (TablesKept.foldl _ (drawIn_tablesKept limit) _ _)

/-! ## Reselection (R82 to R84, R113, R119) -/

theorem afterWalk_owner (c : Call) (w : Walked) (cause : Cause) :
    (afterWalk c w cause).owner = c.owner ∧ (afterWalk c w cause).orphanDeadline = c.orphanDeadline ∧
      (afterWalk c w cause).former = c.former := by
  simp only [afterWalk]
  split <;> exact ⟨rfl, rfl, rfl⟩

theorem reselect_tablesKept (r : CallRef) (cause : Cause) (s : State) : TablesKept s (reselect r cause s) := by
  simp only [reselect]
  split
  · exact TablesKept.refl s
  · next c used =>
    split
    · exact setCall_call_tablesKept used rfl rfl rfl
    · have counted : TablesKept s (s.setCall r.slot (countReattempt c)) := setCall_call_tablesKept used rfl rfl rfl
      have walked := walk_tablesKept (reselectionCall r (countReattempt c)) (s.setCall r.slot (countReattempt c))
      have stands : (walk (reselectionCall r (countReattempt c)) (s.plan c.plan)
          (s.setCall r.slot (countReattempt c))).state.call r = some (countReattempt c) := by
        rw [(walk_routed _ _ _).call, State.call_setCall_of_some used]
      obtain ⟨owner, deadline, former⟩ := afterWalk_owner (countReattempt c)
        (walk (reselectionCall r (countReattempt c)) (s.plan c.plan) (s.setCall r.slot (countReattempt c))) cause
      exact (counted.trans walked).trans (setCall_call_tablesKept stands owner deadline former)

theorem tellOwner_tablesKept (r : CallRef) (s : State) : TablesKept s (tellOwner r s) := by
  simp only [tellOwner]
  split
  · exact TablesKept.refl s
  split
  · exact notify_tablesKept _ _ s
  · exact TablesKept.refl s

theorem reselectDisplaced_tablesKept (r : CallRef) (s : State) : TablesKept s (reselectDisplaced r s) := by
  cases used : s.call r with
  | none => simp only [reselectDisplaced, used]; exact TablesKept.refl s
  | some c =>
    rw [reselectDisplaced_of_some used]
    have marked : TablesKept s
        (s.setCall r.slot { c with reselectionPending := false, lastCause := some .glareYield }) :=
      setCall_call_tablesKept used rfl rfl rfl
    exact (marked.trans (reselect_tablesKept _ _ _)).trans (tellOwner_tablesKept _ _)

theorem farReport_tablesKept (n level : Nat) (s : State) : TablesKept s (farReport n level s) :=
  (farReport_served n level s).tablesKept (farReport_setsKept n level s)

theorem handLevel_tablesKept (c : Call) (level : Option Nat) (s : State) : TablesKept s (handLevel c level s) := by
  unfold handLevel
  split
  · exact farReport_tablesKept _ _ s
  · exact TablesKept.refl s

theorem handFailure_tablesKept (c : Call) (s : State) : TablesKept s (handFailure c s) := by
  unfold handFailure
  split
  · exact failureOutcome_tablesKept _ _ _ s
  · exact TablesKept.refl s

theorem dropLeg_tablesKept {s : State} {r : CallRef} {c : Call} (used : s.call r = some c) (cause : Cause) :
    TablesKept s (dropLeg r c cause s) := by
  simp only [dropLeg]
  split
  · next l _ =>
    have still : (releaseLeg l.circuit r (decide (cause = .circuitFault)) s).call r = some c := by
      rw [(releaseLeg_planted _ _ _ s).routed.call, used]
    exact (releaseLeg_tablesKept _ _ _ s).trans (setCall_call_tablesKept still rfl rfl rfl)
  · exact setCall_call_tablesKept used rfl rfl rfl

theorem reattemptCall_tablesKept {s : State} {r : CallRef} {c : Call} (used : s.call r = some c) (cause : Cause)
    (level : Option Nat) : TablesKept s (reattemptCall r c cause level s) := by
  have still : (handFailure c (handLevel c level s)).call r = some c := by
    rw [(handFailure_routed c _).call, (handLevel_routed c level s).call, used]
  exact ((handLevel_tablesKept c level s).trans (handFailure_tablesKept c _)).trans
    ((dropLeg_tablesKept still cause).trans (reselect_tablesKept _ _ _))

theorem answerCall_tablesKept {s : State} {r : CallRef} {c : Call} (used : s.call r = some c) :
    TablesKept s (answerCall r c s) := by
  have bound : TablesKept s ((bindLive s).setCall r.slot { c with state := .answered, answer := some (answerFacts s) }) :=
    (Billed.tariff s _).tablesKept.trans (setCall_call_tablesKept (s := bindLive s) used rfl rfl rfl)
  simp only [answerCall]
  split
  · exact bound.trans (successOutcome_tablesKept _ _ _ _)
  · exact bound

end Sys2Proof.Machine
end

section
/-! OFFER and the tables: what its checks, its walk and its end leave (R107 to R110). -/

namespace Sys2Proof.Machine

/-! ## The gap check (R56, R60) -/

/-- R56: what is asked of the gap of a destination. -/
def GapFits (d : Nat) (g : Gap) : Prop :=
  d < Config.destinations ∧ 1 ≤ g.interval ∧ g.interval ≤ 6000 ∧ g.life ≤ 86400 ∧
    (g.lifeExpiry.isSome = true ↔ g.life ≠ 0) ∧ g.refused ≤ Config.refusedMax

/-- R56: an entry of the gap table is written, within the table's size. -/
theorem AnalyserSound.setGap {s : State} (h : AnalyserSound s) {d : Nat} {x : Option Gap} (fits : ∀ g, x = some g → GapFits d g)
    (size : (s.setGap d x).analyser.gaps.size ≤ Config.gaps) : AnalyserSound (s.setGap d x) := by
  obtain ⟨prefixes, few, canonical, -, gaps, plans⟩ := h
  refine ⟨prefixes, few, Table.set_wf _ _ _ canonical, size, fun j g here => ?_, plans⟩
  have read : (s.setGap d x).gap j = if j = d then x else s.gap j := Table.get_set _ _ _ _
  rw [read] at here
  split at here
  · next same => subst same; exact fits g here
  · exact gaps j g here

theorem AnalyserSound.changeGap {s : State} (h : AnalyserSound s) {d : Nat} {g g' : Gap} (used : s.gap d = some g)
    (fits : GapFits d g → GapFits d g') : AnalyserSound (s.setGap d (some g')) := by
  obtain ⟨-, -, canonical, few, gaps, -⟩ := id h
  refine h.setGap (fun x same => ?_) ?_
  · obtain rfl := Option.some.inj same
    exact fits (gaps d g used)
  · rw [State.size_setGap_some canonical, if_neg (by simp [used])]
    exact few

theorem afterGapCheck_tablesKept (d : Nat) (cls : CallClass) (s : State) : TablesKept s (afterGapCheck d cls s) := by
  have wrote : ∀ g', (AnalyserSound s → AnalyserSound (s.setGap d (some g'))) → TablesKept s (s.setGap d (some g')) :=
    fun g' analyser => ⟨analyser, rfl, rfl, rfl, fun h => h.of_same rfl rfl rfl, fun h => h.of_calls rfl⟩
  cases cls with
  | priority => exact TablesKept.refl s
  | normal =>
    simp only [afterGapCheck]
    split
    · exact TablesKept.refl s
    · next g used =>
      split
      · exact wrote _ fun h => h.changeGap used fun fits => fits
      · refine wrote _ fun h => h.changeGap used fun fits => ?_
        obtain ⟨inside, least, most, life, expiry, -⟩ := fits
        exact ⟨inside, least, most, life, expiry, Nat.min_le_right _ _⟩

/-! ## What the checks of an OFFER come to (R107, R108) -/

/-- R15 to R18, R108 step 5: the inbound seizure of a circuit for a call, the call displaced at glare marked. -/
def SeizesInbound (u : State) (c : Nat) (r : CallRef) (f : Former) (w : State) : Prop :=
  (decideInbound u c = .accepted f ∧ w = occupyIn c r u) ∨
    ∃ d, decideInbound u c = .yields d ∧ f = .yielded ∧ w = displace d (occupyIn c r u)

/-- R81: the walk at OFFER from a state with the inbound seizure made. -/
def offerWalk (r : CallRef) (cls : CallClass) (n : Nat) (t : Target) (w : State) : Walked :=
  walk (offerCall r cls n t) ((afterGapCheck t.destination cls w).plan t.plan) (afterGapCheck t.destination cls w)

/-- R108: what stands before the undoing of an inbound seizure: the seizure alone, the gap check made, or a walk that found no
leg. -/
def BeforeUndo (r : CallRef) (cls : CallClass) (n : Nat) (w v : State) : Prop :=
  v = w ∨ ∃ t, v = afterGapCheck t.destination cls w ∨
    ((offerWalk r cls n t w).leg = none ∧ v = (offerWalk r cls n t w).state)

theorem routeOffer_cases (p : Port) (c : Nat) (r : CallRef) (f : Former) (ds : List Nat) (cls : CallClass) (n k : Nat)
    (w : State) :
    (∃ st v, BeforeUndo r cls n w v ∧ routeOffer p c r f ds cls n k w = .refused (refuse st (undoInbound c f v))) ∨
      ∃ t l, (offerWalk r cls n t w).leg = some l ∧
        routeOffer p c r f ds cls n k w =
          .walked (offerWalk r cls n t w).state (newCall p c n k t cls (offerWalk r cls n t w) l) := by
  cases found : findTarget w ds with
  | error st => exact .inl ⟨st, w, .inl rfl, routeOffer_of_error p c r f cls n k found⟩
  | ok t =>
    cases admitted : gapAdmits w t.destination cls with
    | false => exact .inl ⟨_, _, .inr ⟨t, .inl rfl⟩, routeOffer_of_gapped p c r f cls n k found admitted⟩
    | true =>
      cases held : heldBack (afterGapCheck t.destination cls w) cls k with
      | true => exact .inl ⟨_, _, .inr ⟨t, .inl rfl⟩, routeOffer_of_held p c r f cls n k found admitted held⟩
      | false =>
        have walks := routeOffer_walks p c r f cls n k found admitted held
        cases leg : (offerWalk r cls n t w).leg with
        | none => exact .inl ⟨_, _, .inr ⟨t, .inr ⟨leg, rfl⟩⟩, walks.trans (walkOffer_of_none p c r f cls n k leg)⟩
        | some l => exact .inr ⟨t, l, leg, walks.trans (walkOffer_of_some p c r f cls n k leg)⟩

theorem seizeOffer_cases (p : Port) (c : Nat) (ds : List Nat) (cls : CallClass) (r : CallRef) (u : State) :
    (∃ st, seizeOffer p c ds cls r u = .refused (refuse st u)) ∨
      ∃ f w, SeizesInbound u c r f w ∧
        seizeOffer p c ds cls r u = routeOffer p c r f ds cls (inboundOf u c).1 (inboundOf u c).2 w := by
  cases decided : decideInbound u c with
  | refused st => exact .inl ⟨st, by simp only [seizeOffer, decided]⟩
  | accepted f => exact .inr ⟨f, _, .inl ⟨decided, rfl⟩, by simp only [seizeOffer, decided]⟩
  | yields d => exact .inr ⟨.yielded, _, .inr ⟨d, decided, rfl, rfl⟩, by simp only [seizeOffer, decided]⟩

/-- R107, R108: the checks of an OFFER refuse it unchanged, or go on with its route from an inbound seizure. -/
theorem checkOffer_cases (p : Port) (c : Nat) (ds : List Nat) (cls : Arg CallClass) (u : State) :
    (∃ st r, checkOffer p c ds cls u = (.refused (refuse st u), r)) ∨
      ∃ x k f w, lowestFreeSlot u = some k ∧ SeizesInbound u c (u.refOf k) f w ∧
        checkOffer p c ds cls u =
          (routeOffer p c (u.refOf k) f ds x (inboundOf u c).1 (inboundOf u c).2 w, u.refOf k) := by
  cases form : offerForm c ds cls with
  | error st => exact .inl ⟨st, ⟨0, 0⟩, by simp only [checkOffer, form]⟩
  | ok x =>
    cases slot : lowestFreeSlot u with
    | none => exact .inl ⟨.callTableFull, ⟨0, 0⟩, by simp only [checkOffer, form, slot]⟩
    | some k =>
      rw [checkOffer_of_form form slot]
      rcases seizeOffer_cases p c ds x (u.refOf k) u with ⟨st, refused⟩ | ⟨f, w, seizes, routes⟩
      · exact .inl ⟨st, _, by rw [refused]⟩
      · exact .inr ⟨x, k, f, w, rfl, seizes, by rw [routes]⟩

/-! ## What they keep -/

theorem SeizesInbound.tablesKept {u w : State} {c : Nat} {r : CallRef} {f : Former} (h : SeizesInbound u c r f w) :
    TablesKept u w := by
  rcases h with ⟨-, rfl⟩ | ⟨d, -, -, rfl⟩
  · exact changeAndReport_tablesKept _ _ u
  · exact (changeAndReport_tablesKept _ _ u).trans (displace_tablesKept d _)

theorem offerWalk_tablesKept (r : CallRef) (cls : CallClass) (n : Nat) (t : Target) (w : State) :
    TablesKept w (offerWalk r cls n t w).state := (afterGapCheck_tablesKept _ _ w).trans (walk_tablesKept (offerCall r cls n t) _)

theorem BeforeUndo.tablesKept {r : CallRef} {cls : CallClass} {n : Nat} {w v : State} (h : BeforeUndo r cls n w v) :
    TablesKept w v := by
  rcases h with rfl | ⟨t, rfl | ⟨-, rfl⟩⟩
  · exact TablesKept.refl _
  · exact afterGapCheck_tablesKept _ _ w
  · exact offerWalk_tablesKept r cls n t w

theorem routeOffer_tablesKept (p : Port) (c : Nat) (r : CallRef) (f : Former) (ds : List Nat) (cls : CallClass) (n k : Nat)
    (w : State) : TablesKept w (routeOffer p c r f ds cls n k w).state := by
  rcases routeOffer_cases p c r f ds cls n k w with ⟨st, v, before, refused⟩ | ⟨t, l, -, walked⟩
  · rw [refused]
    exact before.tablesKept.trans (changeAndReport_tablesKept _ _ _)
  · rw [walked]
    exact offerWalk_tablesKept r cls n t w

theorem checkOffer_tablesKept (p : Port) (c : Nat) (ds : List Nat) (cls : Arg CallClass) (u : State) :
    TablesKept u (checkOffer p c ds cls u).1.state := by
  rcases checkOffer_cases p c ds cls u with ⟨st, r, refused⟩ | ⟨x, k, f, w, -, seizes, routes⟩
  · rw [refused]
    exact TablesKept.refl u
  · rw [routes]
    exact seizes.tablesKept.trans (routeOffer_tablesKept _ _ _ _ _ _ _ _ w)

/-! ## The slot that an OFFER holds (R103, R107) -/

/-- R107: the slot is one of the table, FREE under a generation, and held by no OFFER in progress. -/
structure OpenSlot (s : State) (r : CallRef) : Prop where
  inside : r.slot < Config.slots
  free : (s.slot r.slot).call = none
  generation : (s.slot r.slot).generation = r.generation
  apart : ∀ o ∈ s.calls.offers, o.ref.slot ≠ r.slot

theorem firstFrom_spec {p : Nat → Bool} {fuel k j : Nat} (h : firstFrom p fuel k = some j) : j < k + fuel ∧ p j = true := by
  induction fuel generalizing k with
  | zero => cases h
  | succ fuel ih =>
    rw [firstFrom] at h
    split at h
    · next holds =>
      obtain rfl := Option.some.inj h
      exact ⟨by omega, holds⟩
    · obtain ⟨below, holds⟩ := ih h
      exact ⟨by omega, holds⟩

theorem openSlot_of_lowestFreeSlot {u : State} {k : Nat} (slot : lowestFreeSlot u = some k) : OpenSlot u (u.refOf k) := by
  obtain ⟨inside, isOpen⟩ := firstFrom_spec slot
  obtain ⟨free, unheld⟩ := (Bool.and_eq_true _ _).mp isOpen
  refine ⟨by rw [Nat.zero_add] at inside; exact inside, Option.isNone_iff_eq_none.mp free, rfl, fun o listed same => ?_⟩
  have held : heldSlot u k = true := (heldSlot_iff u k).mpr ⟨o, listed, same⟩
  rw [held] at unheld
  cases unheld

theorem OpenSlot.of_calls {s t : State} {r : CallRef} (h : OpenSlot s r) (same : t.calls = s.calls) : OpenSlot t r := by
  obtain ⟨inside, free, generation, apart⟩ := h
  refine ⟨inside, ?_, ?_, by rw [same]; exact apart⟩ <;> simpa only [State.slot, same]

/-- R118: a displacement acts on a slot in use, or marks OFFERs in progress. -/
theorem OpenSlot.displace {s : State} {r : CallRef} (h : OpenSlot s r) (d : CallRef) : OpenSlot (displace d s) r := by
  obtain ⟨inside, free, generation, apart⟩ := h
  cases used : s.call d with
  | none =>
    rw [displace_of_none used]
    refine ⟨inside, free, generation, fun o listed => ?_⟩
    obtain ⟨a, before, rfl⟩ := List.mem_map.mp listed
    have ref : (if a.ref = d then { a with displaced := true } else a).ref = a.ref := by split <;> rfl
    rw [ref]
    exact apart a before
  | some x =>
    have other : r.slot ≠ d.slot := fun same => by
      rw [same, ((s.call_eq_some_iff d x).mp used).2] at free
      cases free
    have slot : (Machine.displace d s).slot r.slot = s.slot r.slot := by
      rw [displace_of_some used]
      exact State.slot_setCall_other s d.slot r.slot _ other
    refine ⟨inside, by rw [slot]; exact free, by rw [slot]; exact generation, ?_⟩
    rw [displace_of_some used]
    exact apart

theorem SeizesInbound.openSlot {u w : State} {c : Nat} {r call : CallRef} {f : Former} (h : SeizesInbound u c r f w)
    (isOpen : OpenSlot u call) : OpenSlot w call := by
  have seized := isOpen.of_calls (occupyIn_planted c r u).calls
  rcases h with ⟨-, rfl⟩ | ⟨d, -, -, rfl⟩
  · exact seized
  · exact seized.displace d

theorem Routed.calls {s t : State} (h : Routed s t) : t.calls = s.calls := by rw [h.1]

theorem offerWalk_calls (r : CallRef) (cls : CallClass) (n : Nat) (t : Target) (w : State) :
    (offerWalk r cls n t w).state.calls = w.calls := by
  refine (walk_routed _ _ _).calls.trans ?_
  rw [afterGapCheck_analyser]

/-- R107, R110: an OFFER whose walk found a leg has its slot open, and a record owned by its port. -/
theorem checkOffer_walked {p : Port} {c : Nat} {ds : List Nat} {cls : Arg CallClass} {u z : State} {record : Call}
    {ref : CallRef} (h : checkOffer p c ds cls u = (.walked z record, ref)) :
    TablesKept u z ∧ OpenSlot z ref ∧ record.owner = some p ∧ record.orphanDeadline = none := by
  have kept : TablesKept u z := by
    have kept := checkOffer_tablesKept p c ds cls u
    rwa [h] at kept
  refine ⟨kept, ?_⟩
  rcases checkOffer_cases p c ds cls u with ⟨st, r, refused⟩ | ⟨x, k, f, w, slot, seizes, routes⟩
  · rw [refused] at h
    cases h
  · obtain ⟨route, rfl⟩ := Prod.mk.inj (routes.symm.trans h)
    rcases routeOffer_cases p c (u.refOf k) f ds x (inboundOf u c).1 (inboundOf u c).2 w with
      ⟨st, v, -, refused⟩ | ⟨t, l, -, walked⟩
    · rw [refused] at route
      cases route
    · obtain ⟨rfl, rfl⟩ := OfferOutcome.walked.inj (walked.symm.trans route)
      exact ⟨(seizes.openSlot (openSlot_of_lowestFreeSlot slot)).of_calls (offerWalk_calls _ _ _ _ w), rfl, rfl⟩

/-! ## An OFFER in progress, and its end (R103, R110) -/

/-- R103, R110: the state with an OFFER in progress more. -/
def State.withOffer (s : State) (o : OfferInProgress) : State :=
  { s with calls := { s.calls with offers := s.calls.offers ++ [o] } }

/-- R110: the state with an OFFER in progress less. -/
def State.withoutOffer (s : State) (o : OfferInProgress) : State :=
  { s with calls := { s.calls with offers := s.calls.offers.erase o } }

theorem CallsSound.withOffer {s : State} (h : CallsSound s) {o : OfferInProgress} (isOpen : OpenSlot s o.ref)
    (owner : o.record.owner = some o.sender.port) (deadline : o.record.orphanDeadline = none) : CallsSound (s.withOffer o) := by
  obtain ⟨canonical, most, once, generations, orphans, records, distinct, held⟩ := h
  refine ⟨canonical, most, once, generations, orphans, records, ?_, fun a listed => ?_⟩
  · show ((s.calls.offers ++ [o]).map _).Nodup
    rw [List.map_append, List.nodup_append]
    refine ⟨distinct, List.nodup_singleton _, fun k listed j single => ?_⟩
    obtain ⟨a, before, rfl⟩ := List.mem_map.mp listed
    rw [List.mem_singleton.mp single]
    exact isOpen.apart a before
  · rcases List.mem_append.mp listed with before | new
    · exact held a before
    · rw [List.mem_singleton.mp new]
      exact ⟨isOpen.inside, isOpen.free, isOpen.generation, owner, deadline⟩

theorem CallsSound.offers_nodup {s : State} (h : CallsSound s) : s.calls.offers.Nodup := by
  obtain ⟨-, -, -, -, -, -, distinct, -⟩ := h
  exact distinct.of_map _

theorem CallsSound.mem_withoutOffer {s : State} (h : CallsSound s) {o a : OfferInProgress} :
    a ∈ (s.withoutOffer o).calls.offers ↔ a ≠ o ∧ a ∈ s.calls.offers := h.offers_nodup.mem_erase_iff

/-- R107: OFFERs in progress with one slot are one. -/
theorem CallsSound.offer_of_slot {s : State} (h : CallsSound s) {o a : OfferInProgress} (ho : o ∈ s.calls.offers)
    (ha : a ∈ s.calls.offers) (same : a.ref.slot = o.ref.slot) : a = o := by
  obtain ⟨-, -, -, -, -, -, distinct, -⟩ := h
  exact List.inj_on_of_nodup_map distinct ha ho same

/-- R110: an OFFER taken out of progress leaves its slot open. -/
theorem CallsSound.withoutOffer {s : State} (h : CallsSound s) {o : OfferInProgress} (listed : o ∈ s.calls.offers) :
    CallsSound (s.withoutOffer o) ∧ OpenSlot (s.withoutOffer o) o.ref := by
  obtain ⟨canonical, most, once, generations, orphans, records, distinct, held⟩ := id h
  obtain ⟨inside, free, generation, -⟩ := held o listed
  refine ⟨⟨canonical, most, once, generations, orphans, records, ?_, fun a here => ?_⟩, inside, free, generation,
    fun a here same => ?_⟩
  · exact distinct.sublist (List.erase_sublist.map _)
  · exact held a (List.mem_of_mem_erase here)
  · obtain ⟨other, before⟩ := h.mem_withoutOffer.mp here
    exact other (h.offer_of_slot listed before same)

/-- R110: the record is kept in the open slot. -/
theorem CallsSound.keep {s : State} (h : CallsSound s) {r : CallRef} {x : Call} (isOpen : OpenSlot s r)
    (owner : x.owner ≠ none) (deadline : x.orphanDeadline = none) : CallsSound (s.setCall r.slot x) := by
  obtain ⟨-, -, once, generations, orphans, -⟩ := id h
  refine h.write rfl rfl rfl isOpen.apart (generations r.slot) (fun c same => ?_) once (fun _ _ => Iff.rfl) ?_
  · obtain rfl := Option.some.inj same
    exact ⟨isOpen.inside, by simp [owner, deadline], fun none => absurd none owner⟩
  · refine (orphans r.slot).trans ?_
    simp [isOpen.free, owner]

theorem settleDisplaced_tablesKept (o : OfferInProgress) (s : State) : TablesKept s (settleDisplaced o s) := by
  unfold settleDisplaced
  split
  · exact displace_tablesKept _ s
  · exact TablesKept.refl s

theorem settleNoted_tablesKept (o : OfferInProgress) (s : State) : TablesKept s (settleNoted o s) := by
  simp only [settleNoted]
  split
  · split
    · exact TablesKept.refl s
    · split
      · exact (endCall_tablesKept _ _ _ _ s).trans (notify_tablesKept _ _ _)
      · exact endCall_tablesKept _ _ _ _ s
  · exact TablesKept.refl s

/-- R110: the record goes into its slot, and the rest of its keeping acts on a record in use. -/
theorem keepRecord_tablesKept {o : OfferInProgress} {s : State} (isOpen : OpenSlot s o.ref)
    (owner : o.record.owner = some o.sender.port) :
    TablesKept (s.setCall o.ref.slot o.record) (keepRecord o s) := by
  have settled := settleDisplaced_tablesKept o (s.setCall o.ref.slot o.record)
  simp only [keepRecord]
  split
  · exact settled.trans (settleNoted_tablesKept _ _)
  · next q _ =>
    obtain ⟨y, used, mine⟩ := settleDisplaced_call (o := o) isOpen.generation
    have given : TablesKept (settleDisplaced o (s.setCall o.ref.slot o.record))
        ((settleDisplaced o (s.setCall o.ref.slot o.record)).changeCall o.ref.slot (fun c => { c with owner := some q })) := by
      refine changeCall_tablesKept _ _ (fun x same => ?_) (fun _ => rfl) (fun _ => rfl)
      rw [((State.call_eq_some_iff _ _ _).mp used).2] at same
      obtain rfl := Option.some.inj same
      simp [mine, owner]
    exact ((settled.trans given).trans (notify_tablesKept _ _ _)).trans (settleNoted_tablesKept _ _)
  · exact settled.trans (endCall_tablesKept _ _ _ _ _)

theorem setCall_call_table (s : State) (k : Nat) (x : Call) :
    s.setCall k x = { s with calls := (s.setCall k x).calls } := rfl

/-- R110: the end of an OFFER in progress keeps the tables. -/
theorem keepRecord_withoutOffer_tablesKept {o : OfferInProgress} {s : State} (h : CallsSound s)
    (listed : o ∈ s.calls.offers) : TablesKept s (keepRecord o (s.withoutOffer o)) := by
  obtain ⟨-, -, -, -, -, -, -, held⟩ := id h
  obtain ⟨-, -, -, owner, deadline⟩ := held o listed
  obtain ⟨sound, isOpen⟩ := h.withoutOffer listed
  have stored : TablesKept s ((s.withoutOffer o).setCall o.ref.slot o.record) :=
    TablesKept.of_calls (x := ((s.withoutOffer o).setCall o.ref.slot o.record).calls) fun _ =>
      sound.keep isOpen (by simp [owner]) deadline
  exact stored.trans (keepRecord_tablesKept isOpen owner)

theorem withoutOffer_withOffer {s : State} {o : OfferInProgress} (isOpen : OpenSlot s o.ref) :
    (s.withOffer o).withoutOffer o = s := by
  have apart : o ∉ s.calls.offers := fun listed => isOpen.apart o listed rfl
  simp [State.withOffer, State.withoutOffer, List.erase_append_right _ apart]

/-- R110: so does the whole of an OFFER, as one that begins and ends at once. -/
theorem acceptOffer_tablesKept {o : OfferInProgress} {s : State} (isOpen : OpenSlot s o.ref)
    (owner : o.record.owner = some o.sender.port) (deadline : o.record.orphanDeadline = none) (h : CallsSound s) :
    TablesKept s (acceptOffer o s).state := by
  have began : TablesKept s (s.withOffer o) := TablesKept.of_calls fun h => h.withOffer isOpen owner deadline
  have ended := keepRecord_withoutOffer_tablesKept (o := o) (began.calls h) (List.mem_append_right _ List.mem_cons_self)
  rw [withoutOffer_withOffer isOpen] at ended
  exact began.trans ended

theorem respond_tablesKept (r : Sender) (code : Nat) (y : Reply) : TablesKept y.state (respond r code y) := by
  rw [respond, compose_blocks]
  exact TablesKept.of_same rfl rfl rfl rfl rfl

end Sys2Proof.Machine
end

section
/-! The tables stay sound under every command: the requests of each chapter, and the events. -/

namespace Sys2Proof.Machine

/-- The analyser, the route selector, the route memory and the call table hold what their rules give. -/
def TablesSound (s : State) : Prop := AnalyserSound s ∧ RoutesSound s ∧ MemorySound s ∧ CallsSound s

/-- Sound tables stay sound. -/
def KeepsTables (s t : State) : Prop := TablesSound s → TablesSound t

theorem KeepsTables.refl (s : State) : KeepsTables s s := id

theorem KeepsTables.trans {s t u : State} (h : KeepsTables s t) (g : KeepsTables t u) : KeepsTables s u := g ∘ h

theorem TablesKept.keeps {s t : State} (h : TablesKept s t) : KeepsTables s t := fun ⟨analyser, routes, memory, calls⟩ =>
  ⟨h.analyser analyser, routes.of_same h.routes h.sets, h.memory memory, h.calls calls⟩

theorem KeepsTables.of_ports (s : State) (v : PerPort PortRecord) : KeepsTables s { s with ports := v } :=
  (Billed.of_ports s v).tablesKept.keeps

/-! ## Chapter 1 -/

theorem defineGroup_setsKept (d : GroupDefinition) (dir : Direction) (gl : GlareRule) (hu : HuntMode) (s : State) :
    SetsKept s (defineGroup d dir gl hu s) := by
  obtain ⟨service, -, -⟩ := defineGroup_rebuilt d dir gl hu s
  obtain ⟨-, first⟩ := groupEquipped_rest d dir gl hu s
  have before : SetsKept s (rebuild (groupEquipped d dir gl hu s) d.group) := by
    rw [SetsKept, service, first]
    split <;> rfl
  rw [defineGroup_eq]
  exact before.trans (report_setsKept _ _ _)

theorem handleDefineGroup_tablesKept (d : GroupDefinition) (s : State) : TablesKept s (handleDefineGroup d s).state := by
  refine (handleDefineGroup_planted d s).tablesKept ?_
  simp only [handleDefineGroup]
  split
  · split
    · exact SetsKept.refl s
    · exact defineGroup_setsKept _ _ _ _ s
  · exact SetsKept.refl s

theorem changeGroup_setsKept (n : Nat) (p : GroupChanges) (g : Group) (s : State) : SetsKept s (changeGroup n p g s) := by
  have stored : SetsKept s (s.setGroup n (some (changedRecord p g))) := SetsKept.of_service rfl
  simp only [changeGroup]
  split
  · exact stored.trans (rederive_setsKept _ _)
  · exact stored

theorem handleSetGroupParams_tablesKept (n : Nat) (p : GroupChanges) (s : State) :
    TablesKept s (handleSetGroupParams n p s).state := by
  refine (handleSetGroupParams_planted n p s).tablesKept ?_
  simp only [handleSetGroupParams]
  repeat' split
  all_goals first
    | exact SetsKept.refl s
    | exact changeGroup_setsKept _ _ _ s

theorem deleteGroup_setsKept (n : Nat) (s : State) : SetsKept s (deleteGroup n s) :=
  SetsKept.trans (t := groupRemoved n s) rfl (deleteGroup_exhaustionOnly n s).setsKept

theorem handleDeleteGroup_tablesKept (n : Nat) (s : State) : TablesKept s (handleDeleteGroup n s).state := by
  refine (handleDeleteGroup_planted n s).tablesKept ?_
  simp only [handleDeleteGroup]
  repeat' split
  all_goals first
    | exact SetsKept.refl s
    | exact deleteGroup_setsKept n s

theorem handleFlags_tablesKept (v : Bool) (first count : Nat) (k : Arg FlagKind) (s : State) :
    TablesKept s (handleFlags v first count k s).state := by
  refine (handleFlags_planted v first count k s).tablesKept ?_
  simp only [handleFlags]
  repeat' split
  all_goals first
    | exact closeWindow_setsKept s
    | exact (closeWindow_setsKept s).trans (flagRange_setsKept _ _ _ _)

theorem handleLock_tablesKept (v : Bool) (s : State) : TablesKept s (handleLock v s).state :=
  (handleLock_planted v s).tablesKept rfl

theorem expireGuard_tablesKept (c : Nat) (s : State) : TablesKept s (expireGuard c s) :=
  (expireGuard_planted c s).tablesKept (expireGuard_setsKept c s)

/-! ## Chapter 2 -/

theorem handleFarReport_tablesKept (n l : Nat) (s : State) : TablesKept s (handleFarReport n l s).state := by
  simp only [handleFarReport]
  split
  · exact TablesKept.refl s
  split
  · exact TablesKept.refl s
  · exact farReport_tablesKept _ _ s

theorem expireDecay_tablesKept (n : Nat) (s : State) : TablesKept s (expireDecay n s) := by
  refine (expireDecay_served n s).tablesKept ?_
  unfold expireDecay
  repeat' split
  all_goals rfl

theorem askRelease_tablesKept (gs : List Nat) (s : State) : TablesKept s (askRelease gs s) :=
  TablesKept.of_calls (.of_same rfl rfl rfl rfl)

theorem memberTest_tablesKept (s : State) (n : Nat) : TablesKept s (memberTest s n) :=
  (memberTest_served s n).tablesKept (memberTest_setsKept s n)

theorem joinDraining_tablesKept (n : Nat) (g : Group) (s : State) : TablesKept s (joinDraining n g s) := by
  simp only [joinDraining]
  split
  · refine TablesKept.trans ?_ (memberTest_tablesKept _ _)
    split
    · exact askRelease_tablesKept _ s
    · exact TablesKept.refl s
  · exact TablesKept.refl s

theorem addContributor_tablesKept (p : Port) (s : State) : TablesKept s (addContributor p s) :=
  (addContributor_served p s).tablesKept rfl

theorem openBatch_setsKept (d : Nat) (s : State) : SetsKept s (openBatch d s) := by
  unfold openBatch
  split <;> rfl

theorem addMember_setsKept (n : Nat) (g : Group) (s : State) : SetsKept s (addMember n g s) := by
  simp only [addMember]
  split
  · exact SetsKept.setBatch s _
  · exact ((SetsKept.setBatch s _).trans (SetsKept.setSvc _ _ _)).trans (reevaluate_setsKept _ _ _)

theorem joinBatch_tablesKept (p : Port) (n : Nat) (g : Group) (d : Nat) (s : State) :
    TablesKept s (joinBatch p n g d s) :=
  ((((openBatch_served d s).tablesKept (openBatch_setsKept d s)).trans (addContributor_tablesKept p _)).trans
    ((addMember_served n g _).tablesKept (addMember_setsKept n g _))).trans (joinDraining_tablesKept n g _)

theorem handleDrainGroup_tablesKept (p : Port) (n d : Nat) (s : State) : TablesKept s (handleDrainGroup p n d s).state := by
  simp only [handleDrainGroup, drainReply]
  repeat' split
  all_goals first
    | exact TablesKept.refl s
    | exact addContributor_tablesKept p s
    | exact joinBatch_tablesKept _ _ _ _ s

theorem handleDrainSuspend_tablesKept (s : State) : TablesKept s (handleDrainSuspend s).state := by
  refine (handleDrainSuspend_served s).tablesKept ?_
  simp only [handleDrainSuspend, suspendReply]
  repeat' split
  all_goals first
    | exact SetsKept.refl s
    | exact completeBatch_setsKept s
    | exact suspendBatch_setsKept _ s

theorem handleDrainResume_tablesKept (s : State) : TablesKept s (handleDrainResume s).state := by
  refine (handleDrainResume_served s).tablesKept ?_
  simp only [handleDrainResume, resumeReply]
  split
  · exact resumeBatch_setsKept s
  · exact SetsKept.refl s

theorem closeWindow_tablesKept (s : State) : TablesKept s (closeWindow s) :=
  (closeWindow_served s).tablesKept (closeWindow_setsKept s)

theorem handleReturnGroup_tablesKept (n : Nat) (s : State) : TablesKept s (handleReturnGroup n s).state := by
  simp only [handleReturnGroup]
  repeat' split
  all_goals first
    | exact closeWindow_tablesKept s
    | exact ((returnGroup_served n s).tablesKept (returnGroup_setsKept n s)).trans (closeWindow_tablesKept _)

theorem passDeadline_tablesKept (s : State) : TablesKept s (passDeadline s) :=
  TablesKept.trans (t := s.setBatch { s.service.batch with deadlineExpiry := none, deadlinePassed := true })
    ((Served.setBatch s _).tablesKept rfl) (askRelease_tablesKept _ _)

theorem dropContributor_tablesKept (p : Port) (s : State) : TablesKept s (dropContributor p s) :=
  (dropContributor_served p s).tablesKept rfl

/-! ## Chapter 3: the analyser's tables (R48, R52, R56) -/

/-- Operations on the prefixes or the gaps alone. -/
theorem KeepsTables.of_analyser {s t : State} (analyser : AnalyserSound s → AnalyserSound t)
    (rest : t = { s with analyser := t.analyser }) (same : t.analyser.destinations = s.analyser.destinations) :
    KeepsTables s t := fun ⟨sound, routes, memory, calls⟩ =>
  ⟨analyser sound, routes.of_same (by rw [rest]) (by rw [rest]), memory.of_same (by rw [rest]) same (by rw [rest]),
    calls.of_calls (by rw [rest])⟩

/-- R48: the table of prefixes after a write, within its size. -/
theorem AnalyserSound.setPrefix {s : State} (h : AnalyserSound s) {ds : List Nat} {x : Option Nat}
    (size : (s.setPrefix ds x).analyser.prefixes.size ≤ Config.prefixes) : AnalyserSound (s.setPrefix ds x) := by
  obtain ⟨canonical, -, gaps⟩ := h
  exact ⟨Table.set_wf _ _ _ canonical, size, gaps⟩

theorem handleAddPrefix_keepsTables (ds : List Nat) (d : Nat) (s : State) : KeepsTables s (handleAddPrefix ds d s).state := by
  simp only [handleAddPrefix]
  split
  · exact KeepsTables.refl s
  split
  · exact KeepsTables.refl s
  split
  · exact KeepsTables.refl s
  · next room =>
    refine KeepsTables.of_analyser (fun h => ?_) rfl rfl
    obtain ⟨canonical, few, -⟩ := id h
    refine h.setPrefix ?_
    rw [State.size_setPrefix_some canonical]
    split
    · next fresh =>
      simp only [fresh, Option.isNone_none, Bool.true_and, decide_eq_true_eq] at room
      exact Nat.lt_of_not_le room
    · exact few

theorem handleRemovePrefix_keepsTables (ds : List Nat) (s : State) : KeepsTables s (handleRemovePrefix ds s).state := by
  simp only [handleRemovePrefix]
  split
  · exact KeepsTables.refl s
  · refine KeepsTables.of_analyser (fun h => ?_) rfl rfl
    obtain ⟨canonical, few, -⟩ := id h
    refine h.setPrefix ?_
    rw [State.size_setPrefix_none canonical]
    split
    · exact few
    · exact (Nat.sub_le _ _).trans few

/-- R89: the set and the tag of a destination are those that it is put together of. -/
theorem setOf_tagOf_eq {d k tag : Nat} (inside : k < Config.memorySets) (same : tag * Config.memorySets + k = d) :
    k = setOf d ∧ tag = tagOf d := by
  subst same
  constructor
  · exact (Nat.mul_add_mod' tag Config.memorySets k |>.trans (Nat.mod_eq_of_lt inside)).symm
  · rw [tagOf, Nat.add_comm, Nat.add_mul_div_right _ _ (by decide), Nat.div_eq_of_lt inside, Nat.zero_add]

/-- R53, R99: the destination's entry goes as its record is written, so each entry left has a destination as it was. -/
theorem writeDestination_memorySound {s : State} (h : MemorySound s) (d : Nat) (x : Destination) :
    MemorySound (writeDestination d x s) := by
  obtain ⟨canonical, sets⟩ := (memorySound_iff s).mp h
  have way : ∀ (k i : Nat) (e : MemoryEntry), ((writeDestination d x s).memorySet k).ways[i]? = some (some e) ↔
      (s.memorySet k).ways[i]? = some (some e) ∧ ¬(k = setOf d ∧ e.tag = tagOf d) := fun k i e =>
    way_invalidateDestination_iff d _ k i e
  have length : ∀ k, ((writeDestination d x s).memorySet k).ways.length = (s.memorySet k).ways.length := fun k => by
    by_cases here : k = setOf d
    · subst here
      exact (congrArg (fun m => m.ways.length) (memorySet_invalidateDestination_same d _)).trans (List.length_map ..)
    · exact congrArg (fun m => m.ways.length) (memorySet_invalidateDestination_other _ here)
  refine (memorySound_iff _).mpr ⟨Table.set_wf _ _ _ canonical, fun k => ⟨(length k).trans (sets k).four, ?_,
    fun i e here => ?_, fun i j e f hi hj => (sets k).once i j e f ((way k i e).mp hi).1 ((way k j f).mp hj).1⟩⟩
  · exact (pointer_invalidateDestination d _ k).symm ▸ (sets k).pointer
  · obtain ⟨before, apart⟩ := (way k i e).mp here
    obtain ⟨most, inside, plan, member⟩ := (sets k).entries i e before
    refine ⟨most, inside, ?_, member⟩
    rw [writeDestination_dest_other s x fun same => apart (setOf_tagOf_eq inside same)]
    exact plan

theorem handleWriteDest_keepsTables (d p : Option Nat) (b i : Option Bool) (s : State) :
    KeepsTables s (handleWriteDest d p b i s).state := by
  simp only [handleWriteDest]
  split
  · next d p b i =>
    split
    · exact KeepsTables.refl s
    split
    · exact KeepsTables.refl s
    · next plan =>
      rintro ⟨⟨prefixes, few, gaps, fewGaps, gap, plans⟩, routes, memory, calls⟩
      refine ⟨⟨prefixes, few, gaps, fewGaps, gap, fun j => ?_⟩, routes.of_same rfl rfl,
        writeDestination_memorySound memory d _, calls.of_calls rfl⟩
      by_cases here : j = d
      · subst here
        rw [writeDestination_dest_same]
        exact Nat.lt_of_not_le plan
      · rw [writeDestination_dest_other _ _ here]
        exact plans j
  · exact KeepsTables.refl s

/-- R57: the gap that SET_GAP leaves is within its ranges when the one that stands is. -/
theorem gapSet_fits {s : State} (h : AnalyserSound s) {d i l : Nat} (inside : d < Config.destinations) (least : 1 ≤ i)
    (most : i ≤ 6000) (life : l ≤ 86400) : GapFits d (gapSet s d i l) := by
  obtain ⟨-, -, -, -, gaps, -⟩ := h
  have expiry : (lifeExpiryFrom s l).isSome = true ↔ l ≠ 0 := by
    unfold lifeExpiryFrom
    split <;> simp_all
  unfold gapSet
  split
  · exact ⟨inside, least, most, life, expiry, Nat.zero_le _⟩
  · next g used =>
    obtain ⟨-, -, -, -, -, refused⟩ := gaps d g used
    exact ⟨inside, least, most, life, expiry, refused⟩

theorem handleSetGap_keepsTables (d : Nat) (i l : Option Nat) (s : State) : KeepsTables s (handleSetGap d i l s).state := by
  simp only [handleSetGap]
  split
  · exact KeepsTables.refl s
  · next inside =>
    split
    · next i l =>
      split
      · exact KeepsTables.refl s
      · next room =>
        refine KeepsTables.of_analyser (fun h => ?_) rfl rfl
        obtain ⟨-, -, canonical, few, -⟩ := id h
        have interval : clamp 1 6000 i = max 1 (min i 6000) := clamp_one_eq (by decide) i
        refine h.setGap (fun g same => ?_) ?_
        · obtain rfl := Option.some.inj same
          exact gapSet_fits h (Nat.lt_of_not_le inside) (by omega) (by omega) (by rw [clamp_zero]; omega)
        · rw [State.size_setGap_some canonical]
          split
          · next fresh =>
            simp only [fresh, Option.isNone_none, Bool.true_and, decide_eq_true_eq] at room
            exact Nat.lt_of_not_le room
          · exact few
    · exact KeepsTables.refl s

theorem clearGap_keepsTables (d : Nat) (s : State) : KeepsTables s (s.setGap d none) := by
  refine KeepsTables.of_analyser (fun h => ?_) rfl rfl
  obtain ⟨-, -, canonical, few, -⟩ := id h
  refine h.setGap (fun g same => by cases same) ?_
  have size := Table.size_set canonical d none
  simp only [if_true, Nat.add_zero] at size
  exact (Nat.le_add_right _ _).trans (size.le.trans few)

theorem handleClearGap_keepsTables (d : Nat) (s : State) : KeepsTables s (handleClearGap d s).state := by
  unfold handleClearGap
  split
  · exact KeepsTables.refl s
  · exact clearGap_keepsTables d s

/-! ## Chapter 4: the plans (R45, R63, R85) -/

/-- R65, R99: the entries that record the plan go as it is written, so each entry left has a plan as it was. -/
theorem storePlan_memorySound {s : State} (h : MemorySound s) (p : Nat) (steps : List PlanStep) :
    MemorySound (storePlan p steps s) := by
  obtain ⟨canonical, sets⟩ := (memorySound_iff s).mp h
  have analyser : (storePlan p steps s).analyser = s.analyser := by rw [storePlan_eq_served]; rfl
  have wf : (storePlan p steps s).memory.sets.wf = true := by
    have memory : (evaluatePlan (withPlan p steps s) p).memory = s.memory := by
      rw [(evaluatePlan_served (withPlan p steps s) p).1]
      rfl
    rw [storePlan_eq]
    exact Table.mapValues_wf _ _ (memory.symm ▸ canonical)
  refine (memorySound_iff _).mpr ⟨wf, fun k => ?_⟩
  rw [memorySet_storePlan canonical]
  refine (sets k).dropEntries _ fun e stays fits => ?_
  obtain ⟨most, inside, plan, st, step, ofPool⟩ := fits
  have other : e.plan ≠ p := by simpa using stays
  refine ⟨most, inside, by rw [State.dest, analyser]; exact plan, st, ?_, ofPool⟩
  rw [storePlan_plan, if_neg other]
  exact step

theorem planRefusal_none_iff {steps : List PlanStep} (h : planRefusal steps = none) :
    (∀ x ∈ steps, x.group ≤ 255 ∧ x.tariffClass ≤ 7) ∧ (steps.map (·.kind.rank)).Pairwise (· ≤ ·) ∧
      (steps.map (·.group)).Nodup := by
  rw [planRefusal_eq_ite] at h
  by_cases group : ∃ x ∈ steps, 255 < x.group
  · rw [if_pos group] at h; cases h
  by_cases tariff : ∃ x ∈ steps, 7 < x.tariffClass
  · rw [if_neg group, if_pos tariff] at h; cases h
  by_cases order : (steps.map (·.kind.rank)).Pairwise (· ≤ ·)
  · by_cases once : (steps.map (·.group)).Nodup
    · exact ⟨fun x hx => ⟨Nat.le_of_not_lt fun above => group ⟨x, hx, above⟩,
        Nat.le_of_not_lt fun above => tariff ⟨x, hx, above⟩⟩, order, once⟩
    · rw [if_neg group, if_neg tariff, if_neg (not_not.mpr order), if_pos once] at h; cases h
  · rw [if_neg group, if_neg tariff, if_pos order] at h; cases h

theorem readSteps_length {args : List StepArg} {steps : List PlanStep} (h : readSteps args = some steps) :
    steps.length ≤ 8 := by
  unfold readSteps at h
  split at h
  · next count =>
    have same := congrArg List.length ((readAll_eq_some_iff _ _ _).mp h)
    rw [List.length_map, List.length_map] at same
    omega
  · cases h

theorem storePlan_keepsTables {p : Nat} {steps : List PlanStep} (few : steps.length ≤ 8) (checks : planRefusal steps = none)
    (s : State) : KeepsTables s (storePlan p steps s) := by
  rintro ⟨analyser, ⟨limit, sets, plans⟩, memory, calls⟩
  obtain ⟨fits, order, once⟩ := planRefusal_none_iff checks
  have frame := storePlan_eq_served p steps s
  refine ⟨.of_analyser (by rw [frame]; rfl) analyser, ⟨?_, fun q n => mem_storePlan_planSets_iff sets p steps n q, fun q => ?_⟩,
    storePlan_memorySound memory p steps, calls.of_calls (by rw [frame]; rfl)⟩
  · rw [frame]
    exact limit
  · rw [storePlan_plan]
    split
    · exact ⟨few, order, once, fun st listed => ⟨Nat.lt_succ_of_le (fits st listed).1, Nat.lt_succ_of_le (fits st listed).2⟩⟩
    · exact plans q

theorem handleWritePlan_keepsTables (p : Nat) (args : List StepArg) (s : State) :
    KeepsTables s (handleWritePlan p args s).state := by
  simp only [handleWritePlan]
  split
  · exact KeepsTables.refl s
  split
  · exact KeepsTables.refl s
  · next steps read =>
    split
    · exact KeepsTables.refl s
    · next checks => exact storePlan_keepsTables (readSteps_length read) checks s

theorem handleReattemptLimit_keepsTables (l : Option Nat) (s : State) : KeepsTables s (handleReattemptLimit l s).state := by
  unfold handleReattemptLimit
  split
  · exact KeepsTables.refl s
  · next n =>
    rintro ⟨analyser, ⟨-, sets, plans⟩, memory, calls⟩
    refine ⟨analyser, ⟨?_, sets, plans⟩, memory.of_same rfl rfl rfl, calls⟩
    show clamp 0 7 n ≤ 7
    rw [clamp_zero]
    omega

/-! ## Chapter 6 -/

/-- R106: a call that its owner names. -/
theorem findOwned_spec {s : State} {p : Port} {r : CallRef} {c : Call} (h : findOwned s p r = .ok c) :
    s.call r = some c ∧ c.owner = some p := by
  by_cases range : r.slot ≤ 8191
  · cases used : s.call r with
    | none =>
      simp only [findOwned, findCall_of_none range used] at h
      cases h
    | some x =>
      simp only [findOwned, findCall_of_some range used] at h
      split at h
      · next owner => cases h; exact ⟨rfl, owner⟩
      · cases h
  · simp only [findOwned, findCall_outOfRange (Nat.lt_of_not_le range)] at h
    cases h

theorem handleAccepted_tablesKept (p : Port) (r : CallRef) (s : State) : TablesKept s (handleAccepted p r s).state := by
  simp only [handleAccepted]
  split
  · exact TablesKept.refl s
  · next c found =>
    split
    · exact setCall_call_tablesKept ((findOwned_spec found).1) rfl rfl rfl
    · exact TablesKept.refl s

theorem handleAnswer_tablesKept (p : Port) (r : CallRef) (s : State) : TablesKept s (handleAnswer p r s).state := by
  simp only [handleAnswer]
  split
  · exact TablesKept.refl s
  · next c found =>
    split
    · exact answerCall_tablesKept ((findOwned_spec found).1)
    · exact TablesKept.refl s

theorem handleReattempt_tablesKept (p : Port) (r : CallRef) (cause : Arg Cause) (l : Option Nat) (s : State) :
    TablesKept s (handleReattempt p r cause l s).state := by
  simp only [handleReattempt]
  split
  · exact TablesKept.refl s
  · next c found =>
    split
    · exact TablesKept.refl s
    split
    · exact reattemptCall_tablesKept ((findOwned_spec found).1) _ _
    · exact TablesKept.refl s

theorem handleRelease_tablesKept (p : Port) (r : CallRef) (cause : Arg Cause) (s : State) :
    TablesKept s (handleRelease p r cause s).state := by
  simp only [handleRelease]
  repeat' split
  all_goals first
    | exact TablesKept.refl s
    | exact endCall_tablesKept _ _ _ _ s

theorem handleAdopt_tablesKept (p : Port) (q : Arg Port) (s : State) : TablesKept s (handleAdopt p q s).state := by
  simp only [handleAdopt]
  split
  · exact TablesKept.refl s
  · exact TablesKept.refl s
  · exact TablesKept.foldl _ (adoptCall_tablesKept p) _ s

theorem handleOrphanLimit_tablesKept (l : Option Nat) (s : State) : TablesKept s (handleOrphanLimit l s).state := by
  unfold handleOrphanLimit
  split
  · exact TablesKept.refl s
  · next n =>
    exact (drawInAll_tablesKept (by rw [clamp_zero]; omega) s).trans (TablesKept.foldl _ expireOrphan_tablesKept _ _)

theorem handleOffer_keepsTables (r : Sender) (c : Nat) (ds : List Nat) (cls : Arg CallClass) (s : State) :
    KeepsTables s (handleOffer r c ds cls s).state := by
  have kept := checkOffer_tablesKept r.port c ds cls s
  cases checked : checkOffer r.port c ds cls s with
  | mk outcome ref =>
    rw [checked] at kept
    cases outcome with
    | refused y =>
      simp only [handleOffer, checked]
      exact kept.keeps
    | walked z record =>
      obtain ⟨-, isOpen, owner, deadline⟩ := checkOffer_walked checked
      simp only [handleOffer, checked]
      exact fun sound => (acceptOffer_tablesKept (o := offerBegun r c ds cls ref record) isOpen owner deadline
        (kept.calls sound.2.2.2)).keeps (kept.keeps sound)

theorem holdOffer_keepsTables {o : OfferInProgress} {s : State} (isOpen : OpenSlot s o.ref)
    (owner : o.record.owner = some o.sender.port) (deadline : o.record.orphanDeadline = none) :
    KeepsTables s (holdOffer o s) :=
  KeepsTables.trans (t := s.withOffer o)
    (TablesKept.of_calls fun h => h.withOffer isOpen owner deadline).keeps (KeepsTables.of_ports _ _)

theorem beginOffer_keepsTables (r : Sender) (c : Nat) (ds : List Nat) (cls : Arg CallClass) (s : State) :
    KeepsTables s (beginOffer r c ds cls s) := by
  have kept := checkOffer_tablesKept r.port c ds cls s
  cases checked : checkOffer r.port c ds cls s with
  | mk outcome ref =>
    rw [checked] at kept
    cases outcome with
    | refused y =>
      simp only [beginOffer, checked]
      exact (kept.trans (respond_tablesKept r _ y)).keeps
    | walked z record =>
      obtain ⟨-, isOpen, owner, deadline⟩ := checkOffer_walked checked
      simp only [beginOffer, checked]
      exact kept.keeps.trans (holdOffer_keepsTables (o := offerBegun r c ds cls ref record) isOpen owner deadline)

theorem answerHeldOffer_keepsTables (o : OfferInProgress) (y : Reply) : KeepsTables y.state (answerHeldOffer o y) := by
  simp only [answerHeldOffer]
  split
  · exact KeepsTables.refl _
  · exact (respond_tablesKept o.sender _ y).keeps.trans (KeepsTables.of_ports _ _)

theorem finishOffer_keepsTables {o : OfferInProgress} {s : State} (listed : o ∈ s.calls.offers) :
    KeepsTables s (finishOffer o s) := fun sound =>
  answerHeldOffer_keepsTables o (acceptOffer o (s.withoutOffer o))
    ((keepRecord_withoutOffer_tablesKept sound.2.2.2 listed).keeps sound)

/-! ### CLEAR_TRAFFIC (R127) -/

theorem clearCall_slots_wf {s : State} (canonical : s.calls.slots.wf = true) (k : Nat) :
    (clearCall s k).calls.slots.wf = true := by
  cases used : (s.slot k).call with
  | none => rw [clearCall_of_none used]; exact canonical
  | some c => rw [clearCall_calls used]; exact Table.set_wf _ _ _ canonical

theorem foldl_clearCall_slots_wf (ks : List Nat) {s : State} (canonical : s.calls.slots.wf = true) :
    (ks.foldl clearCall s).calls.slots.wf = true := by
  induction ks generalizing s with
  | nil => exact canonical
  | cons k ks ih => exact ih (clearCall_slots_wf canonical k)

theorem foldl_clearCall_memory (ks : List Nat) {s : State} (h : MemorySound s) : MemorySound (ks.foldl clearCall s) := by
  induction ks generalizing s with
  | nil => exact h
  | cons k ks ih =>
    refine ih ?_
    cases used : (s.slot k).call with
    | none => rw [clearCall_of_none used]; exact h
    | some c =>
      rw [clearCall_of_some used]
      exact ((priceAndLower_billed (s.refOf k) c .trafficCleared s.now true s).2 h).of_same rfl rfl rfl

/-- R127: with every record cleared no slot is in use and no call an orphan. -/
theorem recordsCleared_callsSound {s : State} (h : CallsSound s) : CallsSound (recordsCleared s) := by
  have slot := recordsCleared_slot h
  have calls := clearCall_onSlot.foldl_calls s.slotsInUse s
  obtain ⟨canonical, most, -, generations, -, -, distinct, held⟩ := h
  have free : ∀ k, ((recordsCleared s).slot k).call = none := fun k => by
    rw [slot]
    split
    · rfl
    · next unused => simpa using unused
  have offers : (recordsCleared s).calls.offers = s.calls.offers := by
    show (s.slotsInUse.foldl clearCall s).calls.offers = _
    rw [calls]
  have limit : (recordsCleared s).calls.orphanLimit = s.calls.orphanLimit := by
    show (s.slotsInUse.foldl clearCall s).calls.orphanLimit = _
    rw [calls]
  refine ⟨foldl_clearCall_slots_wf _ canonical, by rw [limit]; exact most, List.nodup_nil, fun k => ?_, fun k => ?_,
    fun k c used => ?_, by rw [offers]; exact distinct, fun o listed => ?_⟩
  · rw [slot]
    split
    · exact Nat.mod_lt _ (by decide)
    · exact generations k
  · simp only [free, reduceCtorEq, false_and, exists_false, iff_false]
    exact List.not_mem_nil
  · rw [free] at used
    cases used
  · rw [offers] at listed
    obtain ⟨inside, unused, rest⟩ := held o listed
    rw [slot, if_neg (by simp [unused])]
    exact ⟨inside, unused, rest⟩

theorem clearTraffic_keepsTables (s : State) : KeepsTables s (clearTraffic s) := by
  rintro ⟨analyser, routes, memory, calls⟩
  obtain ⟨-, service, analyserSame, routesSame⟩ := recordsCleared_blocks s
  have cleared : TablesSound (recordsCleared s) :=
    ⟨.of_analyser analyserSame analyser, routes.of_same routesSame (by rw [service]),
      (foldl_clearCall_memory s.slotsInUse memory).of_same rfl rfl rfl, recordsCleared_callsSound calls⟩
  rw [clearTraffic_eq]
  exact ((clearPlant_planted _).tablesKept (clearPlant_setsKept _)).keeps cleared

/-! ## Chapter 10 -/

theorem portDown_tablesKept (p : Port) (cause : PortCause) (tag : Option Byte) (s : State) :
    TablesKept s (portDown p cause tag s) := by
  obtain ⟨-, -, frame⟩ := portDown_spec p cause tag (s := s) rfl
  have lost : CallsSound s → CallsSound (portDown p cause tag s) := fun h => by
    refine h.mapOffers (f := fun o => if o.sender.port = p then { o with discarded := true } else o) (fun o => ?_)
      (by rw [frame]) (by rw [frame]) (by rw [frame]) (by rw [frame])
    split <;> exact ⟨rfl, rfl, rfl⟩
  exact
    { analyser := .of_analyser (by rw [frame]), destinations := by rw [frame], routes := by rw [frame]
      sets := by rw [SetsKept, frame], memory := fun h => h.of_same (by rw [frame]) (by rw [frame]) (by rw [frame])
      calls := lost }

theorem reset_tablesSound : TablesSound State.reset :=
  ⟨reset_analyserSound, reset_routesSound, reset_memorySound, reset_callsSound⟩

theorem deviceReset_tablesSound (s : State) : TablesSound (deviceReset s) :=
  (TablesKept.of_same (s := State.reset) (t := deviceReset s) rfl rfl rfl rfl rfl).keeps reset_tablesSound

/-! ## Every command -/

theorem request_keepsTables {c : Instr} {r : Sender} {code : Nat} {f : State → Reply}
    (hf : ∀ u, KeepsTables u (f u).state) {s t : State} (h : request c r code f s = .next t) : KeepsTables s t :=
  request_keeps (KeepsTables s) (fun _ v kept => kept.trans (KeepsTables.of_ports _ v)) (fun u kept => kept.trans (hf u)) h
    (KeepsTables.refl s)

theorem request_tablesKept {c : Instr} {r : Sender} {code : Nat} {f : State → Reply}
    (hf : ∀ u, TablesKept u (f u).state) {s t : State} (h : request c r code f s = .next t) : KeepsTables s t :=
  request_keepsTables (fun u => (hf u).keeps) h

/-- An event that is not a request: a case with something to act on, or none. -/
theorem TablesKept.ite {p : Prop} [Decidable p] {s a : State} (acts : p → TablesKept s a) :
    TablesKept s (if p then a else s) := by
  split
  · next h => exact acts h
  · exact TablesKept.refl s

theorem execOffer_keepsTables (r : OfferStep) (c : Nat) (ds : List Nat) (cls : Arg CallClass) {s t : State}
    (h : execOffer r c ds cls s = .next t) : KeepsTables s t := by
  obtain ⟨p, part⟩ := r
  cases part with
  | whole => exact request_keepsTables (handleOffer_keepsTables p c ds cls) h
  | walk =>
    obtain rfl := Host.Outcome.next.inj h
    split
    · next u taken => exact (taken_billed taken).tablesKept.keeps.trans (beginOffer_keepsTables p c ds cls u)
    · exact (arrive_billed _ _ s).tablesKept.keeps
  | keep =>
    obtain rfl := Host.Outcome.next.inj h
    split
    · exact KeepsTables.refl s
    · next o found => exact finishOffer_keepsTables (List.mem_of_find?_eq_some found)

theorem exec_keepsTables {c : Instr} {s t : State} (acts : actsOnBlocks c = true) (h : exec c s = .next t) :
    KeepsTables s t := by
  have next : ∀ {u : State}, TablesKept s u → (Host.Outcome.next u : Answer) = .next t → KeepsTables s t :=
    fun kept e => Host.Outcome.next.inj e ▸ kept.keeps
  cases c
  case defineGroup r d => exact request_tablesKept (handleDefineGroup_tablesKept d) h
  case setGroupParams r n p => exact request_tablesKept (handleSetGroupParams_tablesKept n p) h
  case deleteGroup r n => exact request_tablesKept (handleDeleteGroup_tablesKept n) h
  case blockCircuits r i n k => exact request_tablesKept (handleFlags_tablesKept true i n k) h
  case unblockCircuits r i n k => exact request_tablesKept (handleFlags_tablesKept false i n k) h
  case lockPlant r => exact request_tablesKept (handleLock_tablesKept true) h
  case unlockPlant r => exact request_tablesKept (handleLock_tablesKept false) h
  case reportFarCongestion r n l => exact request_tablesKept (handleFarReport_tablesKept n l) h
  case drainGroup r n d => exact request_tablesKept (handleDrainGroup_tablesKept r.port n d) h
  case drainSuspend r => exact request_tablesKept handleDrainSuspend_tablesKept h
  case drainResume r => exact request_tablesKept handleDrainResume_tablesKept h
  case returnGroup r n => exact request_tablesKept (handleReturnGroup_tablesKept n) h
  case addPrefix r ds d => exact request_keepsTables (handleAddPrefix_keepsTables ds d) h
  case removePrefix r ds => exact request_keepsTables (handleRemovePrefix_keepsTables ds) h
  case writeDest r d p b i => exact request_keepsTables (handleWriteDest_keepsTables d p b i) h
  case setGap r d i l => exact request_keepsTables (handleSetGap_keepsTables d i l) h
  case clearGap r d => exact request_keepsTables (handleClearGap_keepsTables d) h
  case writePlan r p as => exact request_keepsTables (handleWritePlan_keepsTables p as) h
  case setReattemptLimit r l => exact request_keepsTables (handleReattemptLimit_keepsTables l) h
  case offer r c ds cls => exact execOffer_keepsTables r c ds cls h
  case accepted r c => exact request_tablesKept (handleAccepted_tablesKept r.port c) h
  case answer r c => exact request_tablesKept (handleAnswer_tablesKept r.port c) h
  case reattempt r c k l => exact request_tablesKept (handleReattempt_tablesKept r.port c k l) h
  case release r c k => exact request_tablesKept (handleRelease_tablesKept r.port c k) h
  case adopt r p => exact request_tablesKept (handleAdopt_tablesKept r.port p) h
  case clearTraffic r => exact request_keepsTables clearTraffic_keepsTables h
  case setOrphanLimit r l => exact request_tablesKept (handleOrphanLimit_tablesKept l) h
  case linkLoss p => exact next (TablesKept.ite fun _ => portDown_tablesKept _ _ _ s) h
  case detachComplete p => exact next (TablesKept.ite fun _ => portDown_tablesKept _ _ _ s) h
  case callTablePortLoss p =>
    obtain rfl := Host.Outcome.next.inj h
    split
    · exact KeepsTables.refl s
    · exact fun sound => (takePortLoss_tablesKept sound.2.2.2 _).keeps sound
  case drainContributorLoss p => exact next (TablesKept.ite fun _ => dropContributor_tablesKept p s) h
  case guardExpiry c => exact next (expireGuard_tablesKept c s) h
  case decayExpiry n => exact next (expireDecay_tablesKept n s) h
  case windowExpiry => exact next (TablesKept.ite fun _ => closeWindow_tablesKept s) h
  case deadlineExpiry => exact next (TablesKept.ite fun _ => passDeadline_tablesKept s) h
  case drainReleaseList =>
    refine next ?_ h
    split
    · exact TablesKept.refl s
    · next gs rest _ =>
      exact TablesKept.trans (t := { s with calls := { s.calls with releaseLists := rest } })
        (TablesKept.of_calls (.of_same rfl rfl rfl rfl)) (takeReleaseList_tablesKept _ _)
  case gapLifeExpiry d =>
    obtain rfl := Host.Outcome.next.inj h
    split
    · exact clearGap_keepsTables d s
    · exact KeepsTables.refl s
  case orphanExpiry =>
    refine next ?_ h
    split
    · exact TablesKept.refl s
    · exact TablesKept.ite fun _ => expireOrphan_tablesKept s _
  case glareReselection c =>
    exact next (TablesKept.ite fun _ => TablesKept.trans
      (t := { s with calls := { s.calls with reselections := s.calls.reselections.erase c } })
      (TablesKept.of_calls (.of_same rfl rfl rfl rfl)) (reselectDisplaced_tablesKept c _)) h
  case resetN =>
    obtain rfl := Host.Outcome.next.inj h
    split
    · exact fun _ => deviceReset_tablesSound s
    · exact (TablesKept.of_same (t := { s with resetLine := true }) rfl rfl rfl rfl rfl).keeps
  case powerOn =>
    obtain rfl := Host.Outcome.next.inj h
    exact fun _ => deviceReset_tablesSound s
  all_goals cases acts

/-- Every command keeps the tables of the analyser, the route selector, the route memory and the call table. -/
theorem exec_tablesSound {c : Instr} {s t : State} (h : exec c s = .next t) : KeepsTables s t := by
  cases acts : actsOnBlocks c with
  | false => exact (exec_billed acts h).tablesKept.keeps
  | true => exact exec_keepsTables acts h

end Sys2Proof.Machine
end

section
/-! The legs of the calls as a ledger (R104, R118): which circuits a reference holds, which legs its record names, and how
each operation of the plant store and the walk moves them. -/

namespace Sys2Proof.Machine

/-! ## The two sides of the ledger -/

/-- The circuit stands in an occupancy, in a group. -/
def HasLeg (s : State) (i : Nat) (o : Occupancy) (n : Nat) : Prop :=
  ∃ e, s.circuit i = some e ∧ e.occupancy = o ∧ e.group = n

/-- R118: a record that lost its outbound leg at glare. -/
def Call.displaced (x : Call) : Call := { x with leg := none, reselectionPending := true }

/-- R118: the record of an OFFER in progress as far as it still holds its legs. -/
def OfferInProgress.shown (o : OfferInProgress) : Call := if o.displaced then o.record.displaced else o.record

theorem OfferInProgress.shown_inbound (o : OfferInProgress) :
    o.shown.inCircuit = o.record.inCircuit ∧ o.shown.inGroup = o.record.inGroup := by
  unfold OfferInProgress.shown
  split <;> exact ⟨rfl, rfl⟩

theorem OfferInProgress.shown_leg_iff (o : OfferInProgress) (l : Leg) :
    o.shown.leg = some l ↔ o.displaced = false ∧ o.record.leg = some l := by
  unfold OfferInProgress.shown
  cases o.displaced <;> simp [Call.displaced]

/-- R104, R118: the record that a reference names, or that of an OFFER in progress. -/
def Holds (s : State) (r : CallRef) (x : Call) : Prop := s.call r = some x ∨ ∃ o ∈ s.calls.offers, o.ref = r ∧ o.shown = x

/-- R104: the circuits busy for a reference are the legs that its record names. -/
structure MatchAt (s : State) (r : CallRef) : Prop where
  inbound : ∀ i n, HasLeg s i (.busyIn r) n ↔ ∃ x, Holds s r x ∧ x.inCircuit = i ∧ x.inGroup = n
  outbound : ∀ i n, HasLeg s i (.busyOut r) n ↔ ∃ x l, Holds s r x ∧ x.leg = some l ∧ l.circuit = i ∧ l.group = n

/-- R104: the fields of every record, and of every OFFER in progress, go together. -/
structure RecordsFit (s : State) : Prop where
  calls : ∀ r x, s.call r = some x → FieldsFit x
  offers : ∀ o ∈ s.calls.offers,
    FieldsFit o.record ∧ o.record.state = .routed ∧ o.record.reselectionPending = false

/-- R118: the queued reselections are those of the calls with the mark. -/
structure QueueFits (s : State) : Prop where
  once : s.calls.reselections.Nodup
  marked : ∀ r, r ∈ s.calls.reselections ↔ ∃ x, s.call r = some x ∧ x.reselectionPending = true

theorem State.call_refOf_eq_some {s : State} {r : CallRef} {x : Call} (used : s.call r = some x) :
    (s.slot r.slot).call = some x ∧ s.refOf r.slot = r := by
  obtain ⟨generation, slot⟩ := (s.call_eq_some_iff r x).mp used
  exact ⟨slot, State.refOf_eq generation⟩

theorem LegsSound.matchAt {s : State} (h : LegsSound s) (r : CallRef) : MatchAt s r := by
  obtain ⟨busyIn, busyOut, records, offers, -⟩ := h
  constructor
  · intro i n
    constructor
    · rintro ⟨e, here, busy, group⟩
      rcases busyIn i e r here busy with ⟨x, used, rfl⟩ | ⟨o, listed, rfl, rfl⟩
      · obtain ⟨slot, ref⟩ := State.call_refOf_eq_some used
        obtain ⟨⟨f, there, -, same⟩, -⟩ := records r.slot x slot
        obtain rfl : e = f := Option.some.inj (here.symm.trans there)
        exact ⟨x, .inl used, rfl, same.symm.trans group⟩
      · obtain ⟨⟨f, there, -, same⟩, -⟩ := offers o listed
        obtain rfl : e = f := Option.some.inj (here.symm.trans there)
        obtain ⟨circuit, inGroup⟩ := o.shown_inbound
        exact ⟨o.shown, .inr ⟨o, listed, rfl, rfl⟩, circuit, inGroup.trans (same.symm.trans group)⟩
    · rintro ⟨x, used | ⟨o, listed, rfl, rfl⟩, rfl, rfl⟩
      · obtain ⟨slot, ref⟩ := State.call_refOf_eq_some used
        obtain ⟨held, -⟩ := records r.slot x slot
        rwa [ref] at held
      · obtain ⟨held, -⟩ := offers o listed
        obtain ⟨circuit, inGroup⟩ := o.shown_inbound
        rwa [circuit, inGroup]
  · intro i n
    constructor
    · rintro ⟨e, here, busy, group⟩
      rcases busyOut i e r here busy with ⟨x, l, used, leg, rfl⟩ | ⟨o, l, listed, rfl, stands, leg, rfl⟩
      · obtain ⟨slot, ref⟩ := State.call_refOf_eq_some used
        obtain ⟨-, held, -⟩ := records r.slot x slot
        obtain ⟨f, there, -, same⟩ := held l leg
        obtain rfl : e = f := Option.some.inj (here.symm.trans there)
        exact ⟨x, l, .inl used, leg, rfl, same.symm.trans group⟩
      · obtain ⟨-, held, -⟩ := offers o listed
        obtain ⟨f, there, -, same⟩ := held stands l leg
        obtain rfl : e = f := Option.some.inj (here.symm.trans there)
        exact ⟨o.shown, l, .inr ⟨o, listed, rfl, rfl⟩, (o.shown_leg_iff l).mpr ⟨stands, leg⟩, rfl, same.symm.trans group⟩
    · rintro ⟨x, l, used | ⟨o, listed, rfl, rfl⟩, leg, rfl, rfl⟩
      · obtain ⟨slot, ref⟩ := State.call_refOf_eq_some used
        obtain ⟨-, held, -⟩ := records r.slot x slot
        rw [ref] at held
        exact held l leg
      · obtain ⟨-, held, -⟩ := offers o listed
        obtain ⟨stands, leg⟩ := (o.shown_leg_iff l).mp leg
        exact held stands l leg

theorem LegsSound.recordsFit {s : State} (h : LegsSound s) : RecordsFit s := by
  obtain ⟨-, -, records, offers, -⟩ := h
  exact ⟨fun r x used => (records r.slot x (State.call_refOf_eq_some used).1).2.2, fun o listed => (offers o listed).2.2⟩

theorem LegsSound.queueFits {s : State} (h : LegsSound s) : QueueFits s := by
  obtain ⟨-, -, -, -, once, marked⟩ := h
  exact ⟨once, marked⟩

/-- R104, R118: the ledger, the fields and the queue make the legs sound. -/
theorem legsSound_of {s : State} (h : ∀ r, MatchAt s r) (fits : RecordsFit s) (queue : QueueFits s) : LegsSound s := by
  refine ⟨fun i e r here busy => ?_, fun i e r here busy => ?_, fun k x used => ?_, fun o listed => ?_, queue.once, queue.marked⟩
  · obtain ⟨x, used | ⟨o, listed, ref, rfl⟩, rfl, -⟩ := ((h r).inbound i e.group).mp ⟨e, here, busy, rfl⟩
    · exact .inl ⟨x, used, rfl⟩
    · exact .inr ⟨o, listed, ref, o.shown_inbound.1.symm⟩
  · obtain ⟨x, l, used | ⟨o, listed, ref, rfl⟩, leg, rfl, -⟩ := ((h r).outbound i e.group).mp ⟨e, here, busy, rfl⟩
    · exact .inl ⟨x, l, used, leg, rfl⟩
    · obtain ⟨stands, leg⟩ := (o.shown_leg_iff l).mp leg
      exact .inr ⟨o, l, listed, ref, stands, leg, rfl⟩
  · have used : s.call (s.refOf k) = some x := (State.call_refOf s k).trans used
    exact ⟨((h _).inbound _ _).mpr ⟨x, .inl used, rfl, rfl⟩,
      fun l leg => ((h _).outbound _ _).mpr ⟨x, l, .inl used, leg, rfl, rfl⟩, fits.calls _ x used⟩
  · obtain ⟨circuit, group⟩ := o.shown_inbound
    exact ⟨((h _).inbound _ _).mpr ⟨o.shown, .inr ⟨o, listed, rfl, rfl⟩, circuit, group⟩,
      fun stands l leg => ((h _).outbound _ _).mpr
        ⟨o.shown, l, .inr ⟨o, listed, rfl, rfl⟩, (o.shown_leg_iff l).mpr ⟨stands, leg⟩, rfl, rfl⟩,
      fits.offers o listed⟩

/-! ## One reference at a time -/

/-- The circuits busy for a reference are as they were. -/
structure SameLegs (s t : State) (r : CallRef) : Prop where
  inbound : ∀ i n, HasLeg t i (.busyIn r) n ↔ HasLeg s i (.busyIn r) n
  outbound : ∀ i n, HasLeg t i (.busyOut r) n ↔ HasLeg s i (.busyOut r) n

theorem SameLegs.refl (s : State) (r : CallRef) : SameLegs s s r := ⟨fun _ _ => Iff.rfl, fun _ _ => Iff.rfl⟩

theorem SameLegs.trans {s t u : State} {r : CallRef} (h : SameLegs s t r) (g : SameLegs t u r) : SameLegs s u r where
  inbound i n := (g.inbound i n).trans (h.inbound i n)
  outbound i n := (g.outbound i n).trans (h.outbound i n)

theorem HasLeg.congr {s t : State} (same : ∀ i, t.circuit i = s.circuit i) (i : Nat) (o : Occupancy) (n : Nat) :
    HasLeg t i o n ↔ HasLeg s i o n := by
  unfold HasLeg
  rw [same]

theorem SameLegs.of_circuits {s t : State} (same : ∀ i, t.circuit i = s.circuit i) (r : CallRef) : SameLegs s t r :=
  ⟨fun i n => HasLeg.congr same i _ n, fun i n => HasLeg.congr same i _ n⟩

theorem SameLegs.of_plant {s t : State} (same : t.plant = s.plant) (r : CallRef) : SameLegs s t r :=
  .of_circuits (fun i => by simp only [State.circuit, same]) r

/-- With the same legs and the same record, the two sides go on matching. -/
theorem MatchAt.same {s t : State} {r : CallRef} (h : MatchAt s r) (legs : SameLegs s t r)
    (holds : ∀ x, Holds t r x ↔ Holds s r x) : MatchAt t r := by
  refine ⟨fun i n => ?_, fun i n => ?_⟩
  · simp only [legs.inbound, h.inbound, holds]
  · simp only [legs.outbound, h.outbound, holds]

/-- R104, R107: a reference has one record. -/
theorem CallsSound.holds_unique {s : State} (h : CallsSound s) {r : CallRef} {x y : Call} (hx : Holds s r x)
    (hy : Holds s r y) : x = y := by
  rcases hx with used | ⟨o, listed, rfl, rfl⟩ <;> rcases hy with also | ⟨a, present, ref, rfl⟩
  · exact Option.some.inj (used.symm.trans also)
  · exact absurd (congrArg CallRef.slot ref) (h.apart ((s.call_eq_some_iff _ _).mp used).2 a present)
  · exact absurd rfl (h.apart ((s.call_eq_some_iff _ _).mp also).2 o listed)
  · rw [h.offer_of_slot listed present (congrArg CallRef.slot ref)]

theorem CallsSound.noOffer {s : State} (h : CallsSound s) {r : CallRef} {x : Call} (used : s.call r = some x) :
    ∀ o ∈ s.calls.offers, o.ref ≠ r := fun o listed same =>
  h.apart ((s.call_eq_some_iff _ _).mp used).2 o listed (congrArg CallRef.slot same)

/-- The record of one reference has been replaced, or ended. -/
def CallReplaced (s t : State) (r : CallRef) (v : Option Call) : Prop :=
  ∀ q, t.call q = if q = r then v else s.call q

theorem CallReplaced.holds_other {s t : State} {r : CallRef} {v : Option Call} (h : CallReplaced s t r v)
    (offers : t.calls.offers = s.calls.offers) {q : CallRef} (other : q ≠ r) (x : Call) : Holds t q x ↔ Holds s q x := by
  unfold Holds
  rw [h q, if_neg other, offers]

theorem CallReplaced.holds_same {s t : State} {r : CallRef} {v : Option Call} (h : CallReplaced s t r v)
    (apart : ∀ o ∈ t.calls.offers, o.ref ≠ r) (x : Call) : Holds t r x ↔ v = some x := by
  unfold Holds
  rw [h r, if_pos rfl]
  exact or_iff_left fun ⟨o, listed, ref, _⟩ => apart o listed ref

/-- R104: one reference's record and legs change together, and every other reference's stay. -/
theorem LegsSound.replace {s t : State} {r : CallRef} {v : Option Call} (h : LegsSound s) (calls : CallReplaced s t r v)
    (offers : t.calls.offers = s.calls.offers) (others : ∀ q, q ≠ r → SameLegs s t q) (mine : MatchAt t r)
    (fits : ∀ x, v = some x → FieldsFit x) (once : t.calls.reselections.Nodup)
    (queued : ∀ q, q ≠ r → (q ∈ t.calls.reselections ↔ q ∈ s.calls.reselections))
    (own : r ∈ t.calls.reselections ↔ ∃ x, v = some x ∧ x.reselectionPending = true) : LegsSound t := by
  refine legsSound_of (fun q => ?_) ⟨fun q x used => ?_, by rw [offers]; exact h.recordsFit.offers⟩ ⟨once, fun q => ?_⟩
  · by_cases same : q = r
    · rw [same]; exact mine
    · exact (h.matchAt q).same (others q same) (calls.holds_other offers same)
  · rw [calls q] at used
    split at used
    · exact fits x used
    · exact h.recordsFit.calls q x used
  · by_cases same : q = r
    · rw [same, calls r, if_pos rfl]
      exact own
    · rw [queued q same, calls q, if_neg same]
      exact h.queueFits.marked q

/-- The other blocks move, and no circuit that is busy. -/
theorem LegsSound.of_legs {s t : State} (h : LegsSound s) (legs : ∀ r, SameLegs s t r)
    (slots : t.calls.slots = s.calls.slots) (offers : t.calls.offers = s.calls.offers)
    (reselections : t.calls.reselections = s.calls.reselections) : LegsSound t := by
  have call : ∀ r, t.call r = s.call r := fun r => by unfold State.call State.slot; rw [slots]
  have holds : ∀ r x, Holds t r x ↔ Holds s r x := fun r x => by simp only [Holds, call, offers]
  exact legsSound_of (fun r => (h.matchAt r).same (legs r) (holds r))
    ⟨fun r x used => h.recordsFit.calls r x ((call r).symm.trans used), by rw [offers]; exact h.recordsFit.offers⟩
    ⟨by rw [reselections]; exact h.queueFits.once, fun r => by rw [reselections, call]; exact h.queueFits.marked r⟩

/-- R120, R121, R184: OFFERs in progress are marked, their legs and records as they were. -/
theorem LegsSound.mapOffers {s t : State} (h : LegsSound s) {f : OfferInProgress → OfferInProgress}
    (same : ∀ o, (f o).ref = o.ref ∧ (f o).record = o.record ∧ (f o).displaced = o.displaced)
    (legs : ∀ r, SameLegs s t r) (slots : t.calls.slots = s.calls.slots) (offers : t.calls.offers = s.calls.offers.map f)
    (reselections : t.calls.reselections = s.calls.reselections) : LegsSound t := by
  have call : ∀ r, t.call r = s.call r := fun r => by unfold State.call State.slot; rw [slots]
  have shown : ∀ o, (f o).shown = o.shown := fun o => by
    obtain ⟨-, record, displaced⟩ := same o
    simp only [OfferInProgress.shown, record, displaced]
  have holds : ∀ r x, Holds t r x ↔ Holds s r x := fun r x => by
    simp [Holds, call, offers, shown, (same _).1]
  refine legsSound_of (fun r => (h.matchAt r).same (legs r) (holds r))
    ⟨fun r x used => h.recordsFit.calls r x ((call r).symm.trans used), fun o listed => ?_⟩
    ⟨by rw [reselections]; exact h.queueFits.once, fun r => by rw [reselections, call]; exact h.queueFits.marked r⟩
  rw [offers] at listed
  obtain ⟨a, before, rfl⟩ := List.mem_map.mp listed
  rw [(same a).2.1]
  exact h.recordsFit.offers a before

/-! ## Records that are replaced -/

theorem callReplaced_setCall {s : State} {r : CallRef} (generation : (s.slot r.slot).generation = r.generation) (x : Call) :
    CallReplaced s (s.setCall r.slot x) r (some x) := fun q => by
  by_cases same : q = r
  · rw [same, if_pos rfl, State.call_setCall generation]
  · rw [if_neg same]
    by_cases slot : q.slot = r.slot
    · have other : (s.slot q.slot).generation ≠ q.generation := fun also =>
        same ((State.refOf_eq also).symm.trans ((congrArg s.refOf slot).trans (State.refOf_eq generation)))
      simp only [State.call, slot, State.slot_setCall_same]
      rw [← slot, if_neg other, if_neg other]
    · simp only [State.call, State.slot_setCall_other s r.slot q.slot x slot]

theorem CallReplaced.trans {s t u : State} {r : CallRef} {v w : Option Call} (h : CallReplaced s t r v)
    (g : CallReplaced t u r w) : CallReplaced s u r w := fun q => by
  rw [g q, h q]
  split <;> rfl

theorem CallReplaced.of_calls {s t u : State} {r : CallRef} {v : Option Call} (h : CallReplaced s t r v)
    (same : ∀ q, u.call q = t.call q) : CallReplaced s u r v := fun q => (same q).trans (h q)

theorem callReplaced_of_used {s : State} {r : CallRef} {c : Call} (used : s.call r = some c) (x : Call) :
    CallReplaced s (s.setCall r.slot x) r (some x) := callReplaced_setCall ((s.call_eq_some_iff r c).mp used).1 x

theorem callReplaced_endCall {s : State} {r : CallRef} {c : Call} (used : s.call r = some c) (cause : Cause) (time : Nat)
    (forced : Bool) : CallReplaced s (endCall r cause time forced s) r none := fun q => by
  have slot := endCall_slot used cause time forced q.slot
  obtain ⟨generation, -⟩ := (s.call_eq_some_iff r c).mp used
  by_cases here : q.slot = r.slot
  · rw [if_pos here] at slot
    have ended : (endCall r cause time forced s).call q = none := by
      simp only [State.call, slot, ite_self]
    rw [ended]
    split
    · rfl
    · next other =>
      have stale : (s.slot q.slot).generation ≠ q.generation := fun also =>
        other ((State.refOf_eq also).symm.trans ((congrArg s.refOf here).trans (State.refOf_eq generation)))
      simp only [State.call, if_neg stale]
  · rw [if_neg here] at slot
    simp only [State.call, slot]
    rw [if_neg fun same => here (congrArg CallRef.slot same)]

/-! ## Circuits that change -/

/-- What stands at each circuit when one of them changes within its group. -/
theorem hasLeg_changed {s t : State} {c : Nat} {g : Equipped → Equipped}
    (circuit : ∀ i, t.circuit i = if i = c then (s.circuit c).map g else s.circuit i) (group : ∀ e, (g e).group = e.group)
    (i : Nat) (o : Occupancy) (n : Nat) :
    HasLeg t i o n ↔
      (i = c ∧ ∃ e, s.circuit c = some e ∧ (g e).occupancy = o ∧ e.group = n) ∨ (i ≠ c ∧ HasLeg s i o n) := by
  unfold HasLeg
  rw [circuit]
  by_cases here : i = c
  · subst here
    simp [group]
  · simp [here]

theorem occupyIn_hasLeg (c : Nat) (r : CallRef) (s : State) (i : Nat) (o : Occupancy) (n : Nat) :
    HasLeg (occupyIn c r s) i o n ↔
      (i = c ∧ ∃ e, s.circuit c = some e ∧ .busyIn r = o ∧ e.group = n) ∨ (i ≠ c ∧ HasLeg s i o n) :=
  hasLeg_changed (occupyIn_circuit c r s) (fun _ => rfl) i o n

theorem occupyOut_hasLeg (m c : Nat) (r : CallRef) (s : State) (i : Nat) (o : Occupancy) (n : Nat) :
    HasLeg (occupyOut m c r s) i o n ↔
      (i = c ∧ ∃ e, s.circuit c = some e ∧ .busyOut r = o ∧ e.group = n) ∨ (i ≠ c ∧ HasLeg s i o n) :=
  hasLeg_changed (occupyOut_circuit m c r s) (fun _ => rfl) i o n

theorem guardOrIdle_not_busy (s : State) (e : Equipped) (r : CallRef) :
    guardOrIdle s e ≠ .busyIn r ∧ guardOrIdle s e ≠ .busyOut r := by
  unfold guardOrIdle
  split <;> simp

theorem undoneOccupancy_not_busy (s : State) (e : Equipped) (f : Former) (r : CallRef) :
    undoneOccupancy s e f ≠ .busyIn r ∧ undoneOccupancy s e f ≠ .busyOut r := by
  cases f with
  | wasIdle => simp [undoneOccupancy]
  | wasGuard x =>
    simp only [undoneOccupancy]
    split
    · simp
    · split <;> simp
  | yielded =>
    simp only [undoneOccupancy]
    split
    · simp
    · exact guardOrIdle_not_busy s e r

/-- R19: an undo frees its circuit. -/
theorem undoInbound_hasLeg (c : Nat) (f : Former) (s : State) (i : Nat) (r : CallRef) (n : Nat) :
    (HasLeg (undoInbound c f s) i (.busyIn r) n ↔ i ≠ c ∧ HasLeg s i (.busyIn r) n) ∧
      (HasLeg (undoInbound c f s) i (.busyOut r) n ↔ i ≠ c ∧ HasLeg s i (.busyOut r) n) := by
  have read := hasLeg_changed (undoInbound_circuit c f s) (fun _ => rfl) i
  constructor
  · refine (read _ n).trans (or_iff_right ?_)
    rintro ⟨-, e, -, busy, -⟩
    exact (undoneOccupancy_not_busy s e f r).1 busy
  · refine (read _ n).trans (or_iff_right ?_)
    rintro ⟨-, e, -, busy, -⟩
    exact (undoneOccupancy_not_busy s e f r).2 busy

/-- R20: the release of a circuit frees it from the call alone. -/
theorem releaseLeg_sameLegs (c : Nat) (r : CallRef) (fault : Bool) (s : State) {q : CallRef} (other : q ≠ r) :
    SameLegs s (releaseLeg c r fault s) q := by
  have kept : ∀ (i : Nat) (o : Occupancy) (n : Nat), (o = .busyIn q ∨ o = .busyOut q) →
      (HasLeg (releaseLeg c r fault s) i o n ↔ HasLeg s i o n) := by
    intro i o n busy
    unfold HasLeg
    rw [releaseLeg_circuit]
    split
    · cases s.circuit i with
      | none => simp
      | some e =>
        simp only [Option.map_some, Option.some.injEq, exists_eq_left']
        split
        · next held =>
          have free : (releasedRecord s fault e).occupancy ≠ o := fun same => by
            have none := releasedRecord_free s fault e q
            rw [← Bool.not_eq_true, heldBy_iff, same] at none
            exact none busy
          have mine : e.occupancy ≠ o := by
            rcases (heldBy_iff e r).mp held with h | h <;> rcases busy with rfl | rfl <;> rw [h] <;> simp [Ne.symm other]
          simp [free, mine]
        · rfl
    · rfl
  exact ⟨fun i n => kept i _ n (.inl rfl), fun i n => kept i _ n (.inr rfl)⟩

/-- R20: no circuit that has been released is busy for the call. -/
theorem releaseLeg_hasLeg_same (c : Nat) (r : CallRef) (fault : Bool) (s : State) (i : Nat) (n : Nat) :
    (HasLeg (releaseLeg c r fault s) i (.busyIn r) n ↔ i ≠ c ∧ HasLeg s i (.busyIn r) n) ∧
      (HasLeg (releaseLeg c r fault s) i (.busyOut r) n ↔ i ≠ c ∧ HasLeg s i (.busyOut r) n) := by
  have kept : ∀ o : Occupancy, (o = .busyIn r ∨ o = .busyOut r) →
      (HasLeg (releaseLeg c r fault s) i o n ↔ i ≠ c ∧ HasLeg s i o n) := by
    intro o busy
    unfold HasLeg
    rw [releaseLeg_circuit]
    by_cases here : i = c
    · simp only [here, if_true, ne_eq, not_true_eq_false, false_and, iff_false]
      rintro ⟨e, there, same, -⟩
      cases before : s.circuit c with
      | none => rw [before] at there; cases there
      | some f =>
        rw [before, Option.map_some] at there
        obtain rfl := Option.some.inj there
        by_cases held : heldBy f r = true
        · rw [if_pos held] at same
          have none := releasedRecord_free s fault f r
          rw [← Bool.not_eq_true, heldBy_iff, same] at none
          exact none busy
        · rw [if_neg held] at same
          rw [heldBy_iff, same] at held
          exact held busy
    · simp [here]
  exact ⟨kept _ (.inl rfl), kept _ (.inr rfl)⟩

/-! ## The walk (R73 to R80) -/

theorem tryStep_of_none {c : WalkCall} {i : Nat} {st : PlanStep} {s : State} (h : (tryStep c i st s).leg = none) :
    (tryStep c i st s).state = s := by
  unfold tryStep at h ⊢
  split
  · next able =>
    rw [if_pos able] at h
    cases pick : outboundPick s st.group c.cls st.kind with
    | none => rfl
    | some z => rw [pick] at h; cases h
  · rfl

theorem trySteps_of_none {c : WalkCall} {l : List (Nat × PlanStep)} {s : State} (h : (trySteps c l s).leg = none) :
    (trySteps c l s).state = s := by
  induction l with
  | nil => rfl
  | cons x l ih =>
    obtain ⟨i, st⟩ := x
    cases leg : (tryStep c i st s).leg with
    | some n =>
      have tried : tryStep c i st s = ⟨(tryStep c i st s).state, some n⟩ := by rw [← leg]
      rw [trySteps, tried] at h
      cases h
    | none =>
      have tried : tryStep c i st s = ⟨s, none⟩ := congrArg₂ Tried.mk (tryStep_of_none leg) leg
      simp only [trySteps, tried] at h ⊢
      exact ih h

theorem tryIndex_of_none {c : WalkCall} {steps : List PlanStep} {i : Option Nat} {s : State}
    (h : (tryIndex c steps i s).leg = none) : (tryIndex c steps i s).state = s := by
  cases i with
  | none => rfl
  | some i =>
    cases step : steps[i]? with
    | none => simp only [tryIndex, step]
    | some st =>
      simp only [tryIndex, step] at h ⊢
      exact tryStep_of_none h

theorem handPoolFailure_onlyMemory (c : WalkCall) (ch : PoolChoice) (t : Tried) :
    OnlyMemory t.state (handPoolFailure c ch t) := by
  unfold handPoolFailure
  split
  · exact failureOutcome_onlyMemory _ _ _ _
  · exact OnlyMemory.refl _

theorem poolPart_of_none {c : WalkCall} {steps : List PlanStep} {s : State} (h : (poolPart c steps s).leg = none) :
    OnlyMemory s (poolPart c steps s).state := by
  cases leg : (tryIndex c steps (poolChoice s c steps).step (afterChoice s c)).leg with
  | some n =>
    simp only [poolPart, leg] at h
    cases h
  | none =>
    have chosen : OnlyMemory s (tryIndex c steps (poolChoice s c steps).step (afterChoice s c)).state := by
      rw [tryIndex_of_none leg]
      exact afterChoice_onlyMemory s c
    have handed := chosen.trans (handPoolFailure_onlyMemory c (poolChoice s c steps) _)
    simp only [poolPart, leg, finalPart] at h ⊢
    rw [trySteps_of_none h]
    exact handed

/-- R80: a walk that finds no leg changes the route memory at most. -/
theorem walk_of_none {c : WalkCall} {steps : List PlanStep} {s : State} (h : (walk c steps s).leg = none) :
    OnlyMemory s (walk c steps s).state := by
  cases leg : (trySteps c (partSteps .primary c.start steps) s).leg with
  | some n =>
    simp only [walk, leg] at h
    cases h
  | none =>
    have primary := trySteps_of_none leg
    by_cases made : poolPartMade c steps = true
    · simp only [walk, leg, if_pos made, primary] at h ⊢
      exact poolPart_of_none h
    · simp only [walk, leg, if_neg made, primary, finalPart] at h ⊢
      rw [trySteps_of_none h]
      exact OnlyMemory.refl s

/-- R2, R13: the circuit picked in a sound plant is IDLE. -/
theorem idle_of_outboundPick {s : State} (sound : PlantSound s) {n : Nat} {cls : CallClass} {kind : StepKind}
    {z : Seized} (h : outboundPick s n cls kind = some z) :
    ∃ e, s.circuit z.circuit = some e ∧ e.group = n ∧ e.occupancy = .idle := by
  cases hg : s.group n with
  | none => simp [outboundPick, hg] at h
  | some g =>
    obtain ⟨-, i, picked, rfl⟩ := (outboundPick_eq_some_iff hg cls kind z).mp h
    obtain ⟨canonical, -, groups⟩ := sound
    have idle := mem_idleSet_of_pickCircuit ((groups n g hg).idleSet_rising canonical) picked
    obtain ⟨e, he, hn, available⟩ := (groups n g hg).available_of_mem canonical idle
    refine ⟨e, he, hn, ?_⟩
    unfold Equipped.condition at available
    split at available
    · assumption
    all_goals cases available

/-- R14, R79: a walk takes one circuit that was IDLE for its call, or none. -/
structure WalkTook (s t : State) (r : CallRef) (leg : Option NewLeg) : Prop where
  inbound : ∀ q i n, HasLeg t i (.busyIn q) n ↔ HasLeg s i (.busyIn q) n
  others : ∀ q, q ≠ r → SameLegs s t q
  outbound : ∀ i n, HasLeg t i (.busyOut r) n ↔
    HasLeg s i (.busyOut r) n ∨ ∃ l, leg = some l ∧ l.circuit = i ∧ l.group = n

theorem walk_took {s : State} (plant : PlantSound s) (memory : MemorySound s) (c : WalkCall) :
    WalkTook s (walk c (s.plan c.plan) s).state c.ref (walk c (s.plan c.plan) s).leg := by
  have unmoved : (walk c (s.plan c.plan) s).leg = none →
      WalkTook s (walk c (s.plan c.plan) s).state c.ref (walk c (s.plan c.plan) s).leg := by
    intro none
    have same := (walk_of_none none).circuit
    refine ⟨fun q i n => HasLeg.congr same i _ n, fun q _ => .of_circuits same q, fun i n => ?_⟩
    simp [HasLeg.congr same, none]
  rcases walk_ends (c := c) plant memory with ⟨w, k, st, tried, flag, ⟨z, pick, ends⟩, same, -⟩ | none
  · obtain ⟨e, here, group, idle⟩ := idle_of_outboundPick plant pick
    have before : w.circuit z.circuit = some e := (same.circuit _).trans here
    have idleHere : ∀ o n, HasLeg s z.circuit o n → o = .idle := by
      rintro o n ⟨f, there, busy, -⟩
      obtain rfl : e = f := Option.some.inj (here.symm.trans there)
      exact busy.symm.trans idle
    have read : ∀ i (o : Occupancy) n, o ≠ .idle →
        (HasLeg (occupyOut st.group z.circuit c.ref w) i o n ↔
          (i = z.circuit ∧ .busyOut c.ref = o ∧ st.group = n) ∨ HasLeg s i o n) := by
      intro i o n busy
      rw [occupyOut_hasLeg, HasLeg.congr same.circuit, before]
      simp only [Option.some.injEq, exists_eq_left', group]
      refine or_congr_right (and_iff_right_of_imp fun leg at_z => ?_)
      subst at_z
      exact busy (idleHere o n leg)
    rw [ends]
    refine ⟨fun q i n => ?_, fun q other => ⟨fun i n => ?_, fun i n => ?_⟩, fun i n => ?_⟩
    · simp [read i (.busyIn q) n (by simp)]
    · simp [read i (.busyIn q) n (by simp)]
    · simp [read i (.busyOut q) n (by simp), Ne.symm other]
    · rw [read i (.busyOut c.ref) n (by simp), or_comm]
      simp [eq_comm]
  · exact unmoved none

end Sys2Proof.Machine
end

section
/-! The legs stay in step with the calls (R104, R116 to R125): under every operation but those of OFFER. -/

namespace Sys2Proof.Machine

/-! ## Circuits and calls in step -/

/-- The plant, the tables and the legs are sound together. -/
structure InStep (s : State) : Prop where
  plant : PlantSound s
  tables : TablesSound s
  legs : LegsSound s

theorem InStep.calls {s : State} (h : InStep s) : CallsSound s := h.tables.2.2.2

theorem InStep.memory {s : State} (h : InStep s) : MemorySound s := h.tables.2.2.1

/-- What is in step stays so. -/
def StaysInStep (s t : State) : Prop := InStep s → InStep t

theorem StaysInStep.refl (s : State) : StaysInStep s s := id

theorem StaysInStep.trans {s t u : State} (h : StaysInStep s t) (g : StaysInStep t u) : StaysInStep s u := g ∘ h

theorem StaysInStep.foldl {α : Type} (f : State → α → State) (hf : ∀ s x, StaysInStep s (f s x)) (l : List α) (s : State) :
    StaysInStep s (l.foldl f s) := by
  induction l generalizing s with
  | nil => exact StaysInStep.refl s
  | cons x l ih => exact (hf s x).trans (ih (f s x))

theorem StaysInStep.of {s t : State} (plant : PlantKept s t) (tables : KeepsTables s t) (legs : InStep s → LegsSound t) :
    StaysInStep s t := fun h => ⟨plant h.plant, tables h.tables, legs h⟩

/-- An operation that moves no busy circuit, and no call. -/
theorem StaysInStep.of_legs {s t : State} (plant : PlantKept s t) (tables : TablesKept s t)
    (legs : PlantSound s → ∀ r, SameLegs s t r) (calls : t.calls = s.calls) : StaysInStep s t :=
  .of plant tables.keeps fun h => h.legs.of_legs (legs h.plant) (by rw [calls]) (by rw [calls]) (by rw [calls])

theorem StaysInStep.of_plant {s t : State} (plant : t.plant = s.plant) (tables : KeepsTables s t)
    (slots : t.calls.slots = s.calls.slots) (offers : t.calls.offers = s.calls.offers)
    (reselections : t.calls.reselections = s.calls.reselections) : StaysInStep s t :=
  .of (.of_plant plant) tables fun h => h.legs.of_legs (SameLegs.of_plant plant) slots offers reselections

theorem Served.staysInStep {s t : State} (h : Served s t) (tables : TablesKept s t) : StaysInStep s t :=
  .of_plant h.plant tables.keeps (by rw [h.planted.calls]) (by rw [h.planted.calls]) (by rw [h.planted.calls])

theorem Told.staysInStep {s t : State} (h : Told s t) : StaysInStep s t := h.served.staysInStep h.tablesKept

theorem Billed.staysInStep {s t : State} (h : Billed s t) : StaysInStep s t :=
  .of_plant h.plant h.tablesKept.keeps (by rw [h.calls]) (by rw [h.calls]) (by rw [h.calls])

theorem OnlyMemory.staysInStep {s t : State} (h : OnlyMemory s t) (tables : TablesKept s t) : StaysInStep s t :=
  .of_plant (by rw [h]) tables.keeps (by rw [h]) (by rw [h]) (by rw [h])

theorem StaysInStep.of_ports (s : State) (v : PerPort PortRecord) : StaysInStep s { s with ports := v } :=
  (Billed.of_ports s v).staysInStep

theorem notify_staysInStep (p : Port) (n : Notice) (s : State) : StaysInStep s (notify p n s) :=
  (notify_told p n s).staysInStep

/-! ## Chapter 1: only circuits that are not busy are equipped, unequipped or freed -/

/-- Circuits change within their group and keep their occupancy while busy. -/
theorem SameLegs.of_map {s t : State} {f : Nat → Equipped → Equipped}
    (circuit : ∀ i, t.circuit i = (s.circuit i).map (f i)) (group : ∀ i e, (f i e).group = e.group)
    (busy : ∀ i e r, s.circuit i = some e →
      ((f i e).occupancy = .busyIn r ↔ e.occupancy = .busyIn r) ∧ ((f i e).occupancy = .busyOut r ↔ e.occupancy = .busyOut r))
    (r : CallRef) : SameLegs s t r := by
  constructor <;> intro i n <;> unfold HasLeg <;> rw [circuit] <;> cases here : s.circuit i with
  | none => simp
  | some e => simp [group, busy i e r here]

/-- Circuits come and go while IDLE; a busy one stays as it is. -/
theorem SameLegs.of_busy {s t : State} (stays : ∀ i e, s.circuit i = some e → e.occupancy ≠ .idle → t.circuit i = some e)
    (stood : ∀ i e, t.circuit i = some e → e.occupancy ≠ .idle → s.circuit i = some e) (r : CallRef) : SameLegs s t r := by
  have kept : ∀ (i : Nat) (o : Occupancy) (n : Nat), o ≠ .idle → (HasLeg t i o n ↔ HasLeg s i o n) := fun i o n busy =>
    ⟨fun ⟨e, here, same, group⟩ => ⟨e, stood i e here (same ▸ busy), same, group⟩,
      fun ⟨e, here, same, group⟩ => ⟨e, stays i e here (same ▸ busy), same, group⟩⟩
  exact ⟨fun i n => kept i _ n (by simp), fun i n => kept i _ n (by simp)⟩

theorem defineGroup_sameLegs {s : State} (canonical : s.plant.circuits.wf = true) (d : GroupDefinition) (dir : Direction)
    (gl : GlareRule) (hu : HuntMode) (idle : ∀ c e, s.circuit c = some e → e.group = d.group → e.occupancy = .idle)
    (r : CallRef) : SameLegs s (defineGroup d dir gl hu s) r := by
  obtain ⟨-, -, rebuilt⟩ := defineGroup_rebuilt d dir gl hu s
  have circuit : ∀ i, (defineGroup d dir gl hu s).circuit i = (groupEquipped d dir gl hu s).circuit i := fun i => by
    rw [defineGroup_eq, report_circuit]
    exact rebuilt i
  refine SameLegs.of_busy (fun i e here busy => ?_) (fun i e here busy => ?_) r
  · rw [circuit, groupEquipped_circuit canonical, here]
    split
    · rfl
    · exact Option.filter_eq_some_iff.mpr ⟨rfl, decide_eq_true fun mine => busy (idle i e here mine)⟩
  · rw [circuit, groupEquipped_circuit canonical] at here
    split at here
    · cases before : s.circuit i with
      | none =>
        rw [before] at here
        obtain rfl := Option.some.inj here
        exact absurd rfl busy
      | some f =>
        rw [before] at here
        exact here
    · exact (Option.filter_eq_some_iff.mp here).1

/-- R5 check 6: a definition that passes its checks finds the group's circuits IDLE, if it is defined. -/
theorem definitionRefusal_none {d : GroupDefinition} {s : State} (h : definitionRefusal d s = none) :
    ((s.group d.group).isSome && groupInUse s d.group) = false := by
  unfold definitionRefusal at h
  repeat' split at h
  all_goals cases h
  next inUse _ => simpa using inUse

theorem handleDefineGroup_staysInStep (d : GroupDefinition) (s : State) : StaysInStep s (handleDefineGroup d s).state := by
  refine .of_legs (handleDefineGroup_plantKept d s) (handleDefineGroup_tablesKept d s) (fun plant r => ?_)
    (handleDefineGroup_planted d s).calls
  obtain ⟨canonical, assigned, -⟩ := plant
  simp only [handleDefineGroup]
  split
  · split
    · exact SameLegs.refl s r
    · next checks =>
      refine defineGroup_sameLegs canonical d _ _ _ (fun c e here mine => ?_) r
      have defined := (assigned c e here).2
      rw [mine] at defined
      have free := definitionRefusal_none checks
      rw [defined, Bool.true_and] at free
      by_contra busy
      rw [(groupInUse_iff canonical d.group).mpr ⟨c, e, here, mine, busy⟩] at free
      cases free
  · exact SameLegs.refl s r

theorem changeGroup_circuit (n : Nat) (p : GroupChanges) (g : Group) (s : State) (i : Nat) :
    (changeGroup n p g s).circuit i = s.circuit i := by
  simp only [changeGroup]
  split
  · exact (rederive_served _ _).circuit i
  · rfl

theorem handleSetGroupParams_staysInStep (n : Nat) (p : GroupChanges) (s : State) :
    StaysInStep s (handleSetGroupParams n p s).state := by
  refine .of_legs (handleSetGroupParams_plantKept n p s) (handleSetGroupParams_tablesKept n p s)
    (fun _ => SameLegs.of_circuits fun i => ?_) (handleSetGroupParams_planted n p s).calls
  simp only [handleSetGroupParams]
  repeat' split
  all_goals first
    | rfl
    | exact changeGroup_circuit _ _ _ s i

theorem handleDeleteGroup_staysInStep (n : Nat) (s : State) : StaysInStep s (handleDeleteGroup n s).state := by
  refine .of_legs (handleDeleteGroup_plantKept n s) (handleDeleteGroup_tablesKept n s) (fun plant r => ?_)
    (handleDeleteGroup_planted n s).calls
  obtain ⟨canonical, -⟩ := plant
  simp only [handleDeleteGroup]
  split
  · exact SameLegs.refl s r
  split
  · exact SameLegs.refl s r
  split
  · exact SameLegs.refl s r
  split
  · exact SameLegs.refl s r
  · next busyOrMember =>
    have free : ¬groupInUse s n = true := fun inUse => busyOrMember (by rw [inUse]; rfl)
    have circuit : ∀ i, (deleteGroup n s).circuit i = (s.circuit i).filter (fun e => decide (e.group ≠ n)) := fun i =>
      ((deleteGroup_exhaustionOnly n s).1.circuit i).trans (groupRemoved_circuit canonical n i)
    refine SameLegs.of_busy (fun i e here busy => ?_) (fun i e here busy => ?_) r
    · rw [circuit, here]
      refine Option.filter_eq_some_iff.mpr ⟨rfl, decide_eq_true fun mine => free ?_⟩
      exact (groupInUse_iff canonical n).mpr ⟨i, e, here, mine, busy⟩
    · rw [circuit] at here
      exact (Option.filter_eq_some_iff.mp here).1

theorem flagRange_staysInStep (r : Range) (k : FlagKind) (v : Bool) (s : State) : StaysInStep s (flagRange r k v s) := by
  refine .of_legs (flagRange_plantKept r k v s) ((flagRange_planted r k v s).tablesKept (flagRange_setsKept r k v s))
    (fun ⟨canonical, _⟩ q => ?_) (flagRange_planted r k v s).calls
  refine SameLegs.of_map (f := fun i => if r.first ≤ i ∧ i < r.first + r.count then withFlag k v else id) (fun i => ?_)
    (fun i e => ?_) (fun i e q _ => ?_) q
  · rw [flagRange_circuit canonical]
    split
    · rfl
    · exact Option.map_id_fun'.symm ▸ rfl
  · split
    · exact withFlag_group k v e
    · rfl
  · split
    · rw [withFlag_occupancy k v e]
      exact ⟨Iff.rfl, Iff.rfl⟩
    · exact ⟨Iff.rfl, Iff.rfl⟩

theorem closeWindow_staysInStep (s : State) : StaysInStep s (closeWindow s) :=
  (closeWindow_served s).staysInStep (closeWindow_tablesKept s)

theorem handleFlags_staysInStep (v : Bool) (first count : Nat) (k : Arg FlagKind) (s : State) :
    StaysInStep s (handleFlags v first count k s).state := by
  simp only [handleFlags]
  repeat' split
  all_goals first
    | exact closeWindow_staysInStep s
    | exact (closeWindow_staysInStep s).trans (flagRange_staysInStep _ _ _ _)

theorem handleLock_staysInStep (v : Bool) (s : State) : StaysInStep s (handleLock v s).state :=
  .of_legs (fun h => h) (handleLock_tablesKept v s) (fun _ => SameLegs.of_circuits fun _ => rfl) rfl

theorem expireGuard_staysInStep (c : Nat) (s : State) : StaysInStep s (expireGuard c s) := by
  refine .of_legs (expireGuard_plantKept c s) (expireGuard_tablesKept c s) (fun _ r => ?_) (expireGuard_planted c s).calls
  unfold expireGuard
  split
  · exact SameLegs.refl s r
  · next e here =>
    split
    · next x guarded =>
      split
      · refine SameLegs.of_map (f := fun i e => if i = c then { e with occupancy := .idle } else e) (fun i => ?_)
          (fun i e => ?_) (fun i f q there => ?_) r
        · rw [changeAndReport_circuit]
          split
          · next same => rw [same]
          · exact Option.map_id_fun'.symm ▸ rfl
        · split <;> rfl
        · split
          · next same =>
            rw [same] at there
            obtain rfl : e = f := Option.some.inj (here.symm.trans there)
            simp [guarded]
          · exact ⟨Iff.rfl, Iff.rfl⟩
      · exact SameLegs.refl s r
    · exact SameLegs.refl s r

/-! ## Chapter 2 -/

theorem farReport_staysInStep (n level : Nat) (s : State) : StaysInStep s (farReport n level s) :=
  (farReport_served n level s).staysInStep (farReport_tablesKept n level s)

theorem askRelease_staysInStep (gs : List Nat) (s : State) : StaysInStep s (askRelease gs s) :=
  .of_plant rfl (askRelease_tablesKept gs s).keeps rfl rfl rfl

theorem joinDraining_staysInStep (n : Nat) (g : Group) (s : State) : StaysInStep s (joinDraining n g s) := by
  simp only [joinDraining]
  split
  · refine StaysInStep.trans ?_ ((memberTest_served _ _).staysInStep (memberTest_tablesKept _ _))
    split
    · exact askRelease_staysInStep _ s
    · exact StaysInStep.refl s
  · exact StaysInStep.refl s

theorem addContributor_staysInStep (p : Port) (s : State) : StaysInStep s (addContributor p s) :=
  (addContributor_served p s).staysInStep (addContributor_tablesKept p s)

theorem joinBatch_staysInStep (p : Port) (n : Nat) (g : Group) (d : Nat) (s : State) :
    StaysInStep s (joinBatch p n g d s) :=
  ((((openBatch_served d s).staysInStep ((openBatch_served d s).tablesKept (openBatch_setsKept d s))).trans
    (addContributor_staysInStep p _)).trans
    ((addMember_served n g _).staysInStep ((addMember_served n g _).tablesKept (addMember_setsKept n g _)))).trans
    (joinDraining_staysInStep n g _)

theorem handleDrainGroup_staysInStep (p : Port) (n d : Nat) (s : State) :
    StaysInStep s (handleDrainGroup p n d s).state := by
  simp only [handleDrainGroup, drainReply]
  repeat' split
  all_goals first
    | exact StaysInStep.refl s
    | exact addContributor_staysInStep p s
    | exact joinBatch_staysInStep _ _ _ _ s

theorem passDeadline_staysInStep (s : State) : StaysInStep s (passDeadline s) :=
  .of_plant rfl (passDeadline_tablesKept s).keeps rfl rfl rfl

/-! ## Records (R104, R111, R112, R121 to R125) -/

/-- R104: a record is changed, its legs and its mark as they were. -/
theorem LegsSound.setCall {s : State} (h : LegsSound s) (calls : CallsSound s) {r : CallRef} {c x : Call}
    (used : s.call r = some c) (circuit : x.inCircuit = c.inCircuit) (group : x.inGroup = c.inGroup) (leg : x.leg = c.leg)
    (mark : x.reselectionPending = c.reselectionPending) (fits : FieldsFit x) : LegsSound (s.setCall r.slot x) := by
  have replaced := callReplaced_of_used used x
  have apart : ∀ o ∈ (s.setCall r.slot x).calls.offers, o.ref ≠ r := calls.noOffer used
  have before : ∀ y, Holds s r y ↔ c = y := fun y =>
    ⟨fun holds => calls.holds_unique (.inl used) holds, fun same => same ▸ .inl used⟩
  have mine := h.matchAt r
  refine h.replace replaced rfl (fun q _ => SameLegs.of_plant (s := s) (t := s.setCall r.slot x) rfl q)
    ⟨fun i n => ?_, fun i n => ?_⟩ (fun y same => by obtain rfl := Option.some.inj same; exact fits) h.queueFits.once (fun _ _ => Iff.rfl) ?_
  · refine (mine.inbound i n).trans ?_
    simp [before, replaced.holds_same apart, circuit, group]
  · refine (mine.outbound i n).trans ?_
    simp [before, replaced.holds_same apart, leg]
  · refine (h.queueFits.marked r).trans ?_
    simp [used, mark]

theorem setCall_staysInStep {s : State} {r : CallRef} {c x : Call} (used : s.call r = some c)
    (tables : TablesKept s (s.setCall r.slot x)) (circuit : x.inCircuit = c.inCircuit) (group : x.inGroup = c.inGroup)
    (leg : x.leg = c.leg) (mark : x.reselectionPending = c.reselectionPending) (fits : FieldsFit c → FieldsFit x) :
    StaysInStep s (s.setCall r.slot x) :=
  .of (setCall_plantKept s _ _) tables.keeps fun h =>
    h.legs.setCall h.calls used circuit group leg mark (fits (h.legs.recordsFit.calls r c used))

/-- R104: the owner, the former owner and the deadline of a record may change while it is ANSWERED, or has an owner. -/
theorem FieldsFit.owned {c x : Call} (h : FieldsFit c) (state : x.state = c.state) (leg : x.leg = c.leg)
    (mark : x.reselectionPending = c.reselectionPending) (answer : x.answer = c.answer)
    (owner : x.owner = none → c.state = .answered) : FieldsFit x := by
  obtain ⟨carried, unrouted, routed, marked, answered, -⟩ := h
  unfold FieldsFit
  rw [state, leg, mark, answer]
  exact ⟨carried, unrouted, routed, marked, answered, owner⟩

theorem FieldsFit.owner {c : Call} (h : FieldsFit c) (none : c.owner = none) : c.state = .answered := by
  obtain ⟨-, -, -, -, -, owner⟩ := h
  exact owner none

/-- R121, R122, R124, R125: a record's owner, former owner and deadline change. -/
theorem changeCall_legs {s : State} (h : InStep s) {k : Nat} {f : Call → Call}
    (legs : ∀ c, (f c).inCircuit = c.inCircuit ∧ (f c).inGroup = c.inGroup ∧ (f c).leg = c.leg ∧
      (f c).reselectionPending = c.reselectionPending)
    (fits : ∀ c, (s.slot k).call = some c → FieldsFit c → FieldsFit (f c)) : LegsSound (s.changeCall k f) := by
  cases slot : (s.slot k).call with
  | none => rw [State.changeCall, slot]; exact h.legs
  | some c =>
    have used : s.call (s.refOf k) = some c := (State.call_refOf s k).trans slot
    obtain ⟨circuit, group, leg, mark⟩ := legs c
    rw [changeCall_eq slot]
    exact h.legs.setCall h.calls used circuit group leg mark (fits c slot (h.legs.recordsFit.calls _ c used))

theorem LegsSound.of_orphans {s : State} (h : LegsSound s) (l : List Nat) :
    LegsSound { s with calls := { s.calls with orphans := l } } :=
  h.of_legs (SameLegs.of_plant rfl) rfl rfl rfl

theorem adoptCall_staysInStep (p : Port) (s : State) (k : Nat) : StaysInStep s (adoptCall p s k) := by
  refine .of (PlantKept.trans (changeCall_plantKept s k _) (.of_plant rfl)) (adoptCall_tablesKept p s k).keeps fun h => ?_
  have changed : LegsSound (s.changeCall k (fun c => { c with owner := some p, orphanDeadline := none })) :=
    changeCall_legs h (fun _ => ⟨rfl, rfl, rfl, rfl⟩) fun c _ fits =>
      fits.owned rfl rfl rfl rfl (fun none => by cases none)
  exact changed.of_orphans _

theorem drawIn_staysInStep (limit : Nat) (s : State) (k : Nat) : StaysInStep s (drawIn limit s k) :=
  .of (drawIn_plantKept limit s k) (drawIn_tablesKept limit s k).keeps fun h =>
    changeCall_legs h (fun _ => ⟨rfl, rfl, rfl, rfl⟩) fun _ _ fits => fits.owned rfl rfl rfl rfl fits.owner

theorem drawInAll_staysInStep {limit : Nat} (range : limit ≤ 3600) (s : State) : StaysInStep s (drawInAll limit s) := by
  have stored : StaysInStep s { s with calls := { s.calls with orphanLimit := limit } } :=
    .of_plant rfl
      (TablesKept.of_calls fun ⟨canonical, _, rest⟩ => ⟨canonical, range, rest⟩).keeps rfl rfl rfl
  exact stored.trans (StaysInStep.foldl _ (drawIn_staysInStep limit) _ _)

theorem orphan_staysInStep {s : State} (p : Port) {k : Nat} {x : Call} (used : (s.slot k).call = some x)
    (owned : x.owner ≠ none) (answered : x.state = .answered) : StaysInStep s (orphan p k s) := by
  refine .of (PlantKept.trans (changeCall_plantKept s k _) (.of_plant rfl)) (orphan_tablesKept p used owned).keeps fun h => ?_
  have changed : LegsSound (s.changeCall k (fun c =>
      { c with
        owner := none, former := some ⟨p, s.now⟩, orphanDeadline := some (s.now + s.calls.orphanLimit * 1000) })) := by
    refine changeCall_legs h (fun _ => ⟨rfl, rfl, rfl, rfl⟩) fun c same fits => ?_
    obtain rfl : x = c := Option.some.inj (used.symm.trans same)
    exact fits.owned rfl rfl rfl rfl fun _ => answered
  exact changed.of_orphans _

/-! ## The end of a call (R116) -/

theorem releaseLegs_sameLegs (r : CallRef) (c : Call) (s : State) {q : CallRef} (other : q ≠ r) :
    SameLegs s (releaseLegs r c s) q := by
  simp only [releaseLegs]
  split
  · exact (releaseLeg_sameLegs _ r _ s other).trans (releaseLeg_sameLegs _ r _ _ other)
  · exact releaseLeg_sameLegs _ r _ s other

/-- R116 step 3: no circuit that the record names is busy for the call afterwards. -/
theorem releaseLegs_hasLeg_same (r : CallRef) (c : Call) (s : State) (i n : Nat) :
    (HasLeg (releaseLegs r c s) i (.busyIn r) n → i ≠ c.inCircuit ∧ HasLeg s i (.busyIn r) n) ∧
      (HasLeg (releaseLegs r c s) i (.busyOut r) n →
        (∀ l, c.leg = some l → i ≠ l.circuit) ∧ HasLeg s i (.busyOut r) n) := by
  have first := releaseLeg_hasLeg_same c.inCircuit r false s i n
  cases leg : c.leg with
  | none =>
    simp only [releaseLegs, leg]
    exact ⟨first.1.mp, fun has => ⟨fun l same => (by cases same), (first.2.mp has).2⟩⟩
  | some l =>
    have second := releaseLeg_hasLeg_same l.circuit r false (releaseLeg c.inCircuit r false s) i n
    simp only [releaseLegs, leg]
    refine ⟨fun has => first.1.mp (second.1.mp has).2, fun has => ?_⟩
    obtain ⟨other, still⟩ := second.2.mp has
    exact ⟨fun m same => by obtain rfl := Option.some.inj same; exact other, (first.2.mp still).2⟩

theorem endCall_legs {s : State} (h : InStep s) (r : CallRef) (cause : Cause) (time : Nat) (forced : Bool) :
    LegsSound (endCall r cause time forced s) := by
  cases used : s.call r with
  | none => rw [endCall_of_none used]; exact h.legs
  | some c =>
    have table := endCall_calls used cause time forced
    have offers : (endCall r cause time forced s).calls.offers = s.calls.offers := by rw [table]; rfl
    have reselections : (endCall r cause time forced s).calls.reselections =
        s.calls.reselections.filter (fun x => decide (x ≠ r)) := by rw [table]; rfl
    have replaced := callReplaced_endCall used cause time forced
    have billed := (priceAndLower_billed r c cause time forced s).plant
    have ended : ∀ i, (endCall r cause time forced s).circuit i =
        (releaseLegs r c (priceAndLower r c cause time forced s)).circuit i := fun i => by rw [endCall_eq used]; rfl
    have mine := h.legs.matchAt r
    have holds : ∀ x, Holds s r x → c = x := fun x => h.calls.holds_unique (.inl used)
    have none : ∀ x, ¬Holds (endCall r cause time forced s) r x := fun x holds => by
      have gone := (replaced.holds_same (by rw [offers]; exact h.calls.noOffer used) x).mp holds
      cases gone
    refine h.legs.replace replaced offers (fun q other => ?_) ⟨fun i n => ?_, fun i n => ?_⟩ (fun x gone => by cases gone)
      (by rw [reselections]; exact h.legs.queueFits.once.filter _) (fun q other => ?_) ?_
    · exact ((SameLegs.of_plant billed q).trans (releaseLegs_sameLegs r c _ other)).trans (.of_circuits ended q)
    · refine iff_of_false (fun has => ?_) fun ⟨x, hx, _⟩ => none x hx
      obtain ⟨apart, before⟩ := (releaseLegs_hasLeg_same r c _ i n).1 ((HasLeg.congr ended i _ n).mp has)
      obtain ⟨x, hx, circuit, -⟩ := (mine.inbound i n).mp (((SameLegs.of_plant billed r).inbound i n).mp before)
      obtain rfl := holds x hx
      exact apart circuit.symm
    · refine iff_of_false (fun has => ?_) fun ⟨x, _, hx, _⟩ => none x hx
      obtain ⟨apart, before⟩ := (releaseLegs_hasLeg_same r c _ i n).2 ((HasLeg.congr ended i _ n).mp has)
      obtain ⟨x, l, hx, leg, circuit, -⟩ := (mine.outbound i n).mp (((SameLegs.of_plant billed r).outbound i n).mp before)
      obtain rfl := holds x hx
      exact apart l leg circuit.symm
    · rw [reselections]
      simp [other]
    · rw [reselections]
      simp

theorem endCall_staysInStep (r : CallRef) (cause : Cause) (time : Nat) (forced : Bool) (s : State) :
    StaysInStep s (endCall r cause time forced s) :=
  .of (endCall_plantKept r cause time forced s) (endCall_tablesKept r cause time forced s).keeps fun h =>
    endCall_legs h r cause time forced

theorem expireOrphan_staysInStep (s : State) (k : Nat) : StaysInStep s (expireOrphan s k) := endCall_staysInStep _ _ _ _ s

theorem drainCall_staysInStep (gs : List Nat) (s : State) (k : Nat) : StaysInStep s (drainCall gs s k) := by
  simp only [drainCall]
  split
  · exact StaysInStep.refl s
  split
  · split
    · exact (endCall_staysInStep _ _ _ _ s).trans (notify_staysInStep _ _ _)
    · exact endCall_staysInStep _ _ _ _ s
  · exact StaysInStep.refl s

/-- OFFERs in progress are marked. -/
theorem StaysInStep.mapOffers {s t : State} {f : OfferInProgress → OfferInProgress}
    (same : ∀ o, (f o).ref = o.ref ∧ (f o).record = o.record ∧ (f o).displaced = o.displaced) (plant : t.plant = s.plant)
    (tables : KeepsTables s t) (slots : t.calls.slots = s.calls.slots) (offers : t.calls.offers = s.calls.offers.map f)
    (reselections : t.calls.reselections = s.calls.reselections) : StaysInStep s t :=
  .of (.of_plant plant) tables fun h => h.legs.mapOffers same (SameLegs.of_plant plant) slots offers reselections

theorem takeReleaseList_staysInStep (gs : List Nat) (s : State) : StaysInStep s (takeReleaseList gs s) := by
  have tables : TablesKept s { s with calls := { s.calls with offers := s.calls.offers.map (OfferInProgress.note gs) } } := by
    refine TablesKept.of_calls fun h => h.mapOffers (f := OfferInProgress.note gs) (fun o => ?_) rfl rfl rfl rfl
    unfold OfferInProgress.note
    split <;> exact ⟨rfl, rfl, rfl⟩
  have noted : StaysInStep s { s with calls := { s.calls with offers := s.calls.offers.map (OfferInProgress.note gs) } } := by
    refine .mapOffers (f := OfferInProgress.note gs) (fun o => ?_) rfl tables.keeps rfl rfl rfl
    unfold OfferInProgress.note
    split <;> exact ⟨rfl, rfl, rfl⟩
  exact noted.trans (StaysInStep.foldl _ (drainCall_staysInStep gs) _ _)

/-! ## Port loss (R121, R122) -/

theorem loseCall_staysInStep {s : State} (p : Port) {k : Nat} {x : Call} (used : (s.slot k).call = some x)
    (owned : x.owner ≠ none) : StaysInStep s (loseCall p s k) := by
  rw [loseCall_eq p used]
  split
  · next answered =>
    split
    · exact endCall_staysInStep _ _ _ _ s
    · exact orphan_staysInStep p used owned answered
  · exact endCall_staysInStep _ _ _ _ s

/-- A fold over slots, each used and owned when its turn comes. -/
theorem foldl_owned_staysInStep {f : State → Nat → State} (onSlot : OnSlot f)
    (step : ∀ s k x, (s.slot k).call = some x → x.owner ≠ none → StaysInStep s (f s k)) {ks : List Nat} (once : ks.Nodup)
    {s : State} (owned : ∀ k ∈ ks, ∃ x, (s.slot k).call = some x ∧ x.owner ≠ none) : StaysInStep s (ks.foldl f s) := by
  induction ks generalizing s with
  | nil => exact StaysInStep.refl s
  | cons k ks ih =>
    obtain ⟨apart, once⟩ := List.nodup_cons.mp once
    obtain ⟨x, used, owner⟩ := owned k List.mem_cons_self
    refine (step s k x used owner).trans (ih once fun j listed => ?_)
    rw [onSlot.other s k j (ne_of_mem_of_not_mem listed apart)]
    exact owned j (List.mem_cons_of_mem k listed)

theorem changeOwner_staysInStep (q : Port) (s : State) (k : Nat) (x : Call) (used : (s.slot k).call = some x)
    (owned : x.owner ≠ none) : StaysInStep s (s.changeCall k (fun c => { c with owner := some q })) := by
  have tables : TablesKept s (s.changeCall k (fun c => { c with owner := some q })) := by
    refine changeCall_tablesKept s k (fun y same => ?_) (fun _ => rfl) (fun _ => rfl)
    obtain rfl : x = y := Option.some.inj (used.symm.trans same)
    simp [owned]
  exact .of (changeCall_plantKept s k _) tables.keeps fun h =>
    changeCall_legs h (fun _ => ⟨rfl, rfl, rfl, rfl⟩) fun _ _ fits => fits.owned rfl rfl rfl rfl (fun none => by cases none)

theorem loseCalls_staysInStep (l : PortLoss) (s : State) : StaysInStep s (loseCalls l s) := fun h => by
  obtain ⟨once, owned⟩ := slotsOwnedBy_owned h.calls l.port
  have used : ∀ k ∈ slotsOwnedBy s l.port, ∃ x, (s.slot k).call = some x ∧ x.owner ≠ none := fun k listed =>
    (owned k listed).imp fun x ⟨used, owner⟩ => ⟨used, by simp [owner]⟩
  unfold loseCalls
  split
  · next q _ =>
    have given := foldl_owned_staysInStep (changeCall_onSlot (fun c => { c with owner := some q }))
      (changeOwner_staysInStep q) once used
    exact given.trans (notify_staysInStep _ _ _) h
  · exact foldl_owned_staysInStep (loseCall_onSlot l.port) (fun s k x => loseCall_staysInStep l.port) once used h

theorem takePortLoss_staysInStep (l : PortLoss) (s : State) : StaysInStep s (takePortLoss l s) := by
  have taken : StaysInStep s (lossTaken l s) := by
    refine .mapOffers (f := OfferInProgress.orphan l) (fun o => ?_) rfl
      (TablesKept.of_calls fun h => lossTaken_callsSound h l).keeps rfl rfl rfl
    unfold OfferInProgress.orphan
    split <;> exact ⟨rfl, rfl, rfl⟩
  have lost := taken.trans (loseCalls_staysInStep l _)
  rw [takePortLoss_eq, sendDetachDone]
  split
  · exact lost
  · refine lost.trans ?_
    rw [compose_blocks]
    exact StaysInStep.of_ports _ _

theorem portDown_staysInStep (p : Port) (cause : PortCause) (tag : Option Byte) (s : State) :
    StaysInStep s (portDown p cause tag s) := by
  obtain ⟨-, -, frame⟩ := portDown_spec p cause tag (s := s) rfl
  refine .mapOffers (f := fun o => if o.sender.port = p then { o with discarded := true } else o) (fun o => ?_)
    (by rw [frame]) (portDown_tablesKept p cause tag s).keeps (by rw [frame]) (by rw [frame]) (by rw [frame])
  split <;> exact ⟨rfl, rfl, rfl⟩

/-! ## ACCEPTED and ANSWER (R111, R112) -/

/-- R104: a call that is freely routed or PROCEEDING holds its outbound leg. -/
theorem FieldsFit.carried {c : Call} (h : FieldsFit c) (carried : (freelyRouted c || c.state == .proceeding) = true) :
    c.leg.isSome = true ∧ c.reselectionPending = false ∧ c.answer = none ∧ c.owner ≠ none := by
  obtain ⟨held, -, routed, marked, answered, owner⟩ := h
  rw [Bool.or_eq_true, freelyRouted_iff, beq_iff_eq] at carried
  have notAnswered : c.state ≠ .answered := by rcases carried with ⟨state, -⟩ | state <;> rw [state] <;> decide
  refine ⟨?_, ?_, ?_, fun none => notAnswered (owner none)⟩
  · rcases carried with ⟨state, clear⟩ | state
    · exact (routed state).mpr clear
    · exact held (.inr state)
  · rcases carried with ⟨-, clear⟩ | state
    · exact clear
    · rw [← Bool.not_eq_true]
      intro mark
      rw [marked mark] at state
      cases state
  · rw [← Option.not_isSome_iff_eq_none]
    exact fun facts => notAnswered (answered.mp facts)

theorem handleAccepted_staysInStep (p : Port) (r : CallRef) (s : State) : StaysInStep s (handleAccepted p r s).state := by
  simp only [handleAccepted]
  split
  · exact StaysInStep.refl s
  · next c found =>
    obtain ⟨used, owner⟩ := findOwned_spec found
    split
    · next free =>
      refine setCall_staysInStep used (setCall_call_tablesKept used rfl rfl rfl) rfl rfl rfl rfl fun fits => ?_
      obtain ⟨held, clear, none, -⟩ := fits.carried (by rw [free]; rfl)
      simp [FieldsFit, held, clear, none, owner]
    · exact StaysInStep.refl s

theorem answerCall_staysInStep {s : State} {r : CallRef} {c : Call} (used : s.call r = some c) (carried : (freelyRouted c || c.state == .proceeding) = true) : StaysInStep s (answerCall r c s) := by
  have bound : StaysInStep s (bindLive s) := (Billed.tariff s _).staysInStep
  have stored : StaysInStep s ((bindLive s).setCall r.slot { c with state := .answered, answer := some (answerFacts s) }) := by
    refine bound.trans (setCall_staysInStep (s := bindLive s) (c := c) used (setCall_call_tablesKept (s := bindLive s) used rfl rfl rfl)
      rfl rfl rfl rfl fun fits => ?_)
    obtain ⟨held, clear, -, -⟩ := fits.carried carried
    simp [FieldsFit, held, clear]
  simp only [answerCall]
  split
  · exact stored.trans ((successOutcome_onlyMemory _ _ _ _).staysInStep (successOutcome_tablesKept _ _ _ _))
  · exact stored

theorem handleAnswer_staysInStep (p : Port) (r : CallRef) (s : State) : StaysInStep s (handleAnswer p r s).state := by
  simp only [handleAnswer]
  split
  · exact StaysInStep.refl s
  · next c found =>
    obtain ⟨used, -⟩ := findOwned_spec found
    split
    · next carried => exact answerCall_staysInStep used carried
    · exact StaysInStep.refl s

end Sys2Proof.Machine
end

section
/-! The legs stay in step with the calls: reselections (R82 to R84, R113, R119). -/

namespace Sys2Proof.Machine

/-! ## The walk of a reselection -/

/-- R84: the state and the leg of a record that has been reselected go together. -/
def RoutedOrUnrouted (x : Call) : Prop := (x.state = .routed ∧ x.leg.isSome = true) ∨ (x.state = .unrouted ∧ x.leg = none)

/-- R83: what a reselection keeps of the record. -/
structure KeptByReselection (c x : Call) : Prop where
  inCircuit : x.inCircuit = c.inCircuit
  inGroup : x.inGroup = c.inGroup
  owner : x.owner = c.owner
  answer : x.answer = c.answer
  mark : x.reselectionPending = c.reselectionPending

theorem afterWalk_fits (c : Call) (w : Walked) (cause : Cause) :
    KeptByReselection c (afterWalk c w cause) ∧ RoutedOrUnrouted (afterWalk c w cause) ∧
      ∀ i n, (∃ l, (afterWalk c w cause).leg = some l ∧ l.circuit = i ∧ l.group = n) ↔
        ∃ l, w.leg = some l ∧ l.circuit = i ∧ l.group = n := by
  cases leg : w.leg with
  | none => simp only [afterWalk, leg]; exact ⟨⟨rfl, rfl, rfl, rfl, rfl⟩, .inr ⟨rfl, rfl⟩, by simp [Call.unroute]⟩
  | some l => simp only [afterWalk, leg]; exact ⟨⟨rfl, rfl, rfl, rfl, rfl⟩, .inl ⟨rfl, rfl⟩, by simp [Call.withLeg, NewLeg.toLeg]⟩

/-- R104: a reselected record that keeps its owner and has neither answer facts nor the mark. -/
theorem RoutedOrUnrouted.fits {x : Call} (h : RoutedOrUnrouted x) (owner : x.owner ≠ none) (answer : x.answer = none)
    (mark : x.reselectionPending = false) : FieldsFit x := by
  rcases h with ⟨state, leg⟩ | ⟨state, leg⟩ <;> simp [FieldsFit, state, leg, owner, answer, mark]

/-- R82 to R84: what a reselection leaves: a record with the leg that it found, or UNROUTED. -/
structure Reselected (s t : State) (r : CallRef) (c x : Call) : Prop where
  record : CallReplaced s t r (some x)
  kept : KeptByReselection c x
  state : RoutedOrUnrouted x
  offers : t.calls.offers = s.calls.offers
  reselections : t.calls.reselections = s.calls.reselections
  others : ∀ q, q ≠ r → SameLegs s t q
  inbound : ∀ i n, HasLeg t i (.busyIn r) n ↔ HasLeg s i (.busyIn r) n
  outbound : ∀ i n, HasLeg t i (.busyOut r) n ↔
    HasLeg s i (.busyOut r) n ∨ ∃ l, x.leg = some l ∧ l.circuit = i ∧ l.group = n

theorem setCall_sameLegs (s : State) (k : Nat) (x : Call) (q : CallRef) : SameLegs s (s.setCall k x) q :=
  .of_plant (s := s) (t := s.setCall k x) rfl q

theorem State.call_of_calls {s t : State} (same : t.calls = s.calls) (r : CallRef) : t.call r = s.call r := by
  unfold State.call State.slot
  rw [same]

theorem reselect_reselected {s : State} {r : CallRef} {c : Call} (used : s.call r = some c) (plant : PlantSound s)
    (memory : MemorySound s) (cause : Cause) : ∃ x, Reselected s (reselect r cause s) r c x := by
  rcases Nat.lt_or_ge s.routes.reattemptLimit (c.reattempts + 1) with above | within
  · rw [reselect_exhausted used above]
    exact ⟨_, callReplaced_of_used used _, ⟨rfl, rfl, rfl, rfl, rfl⟩, .inr ⟨rfl, rfl⟩, rfl, rfl,
      fun q _ => setCall_sameLegs s _ _ q, (setCall_sameLegs s _ _ r).inbound, fun i n =>
        ((setCall_sameLegs s _ _ r).outbound i n).trans (by simp [Call.unroute])⟩
  · obtain ⟨z, walks⟩ : ∃ z, z = walk (reselectionCall r (countReattempt c)) (s.plan c.plan) (s.setCall r.slot (countReattempt c)) :=
      ⟨_, rfl⟩
    have stored := setCall_sameLegs s r.slot (countReattempt c)
    have took : WalkTook (s.setCall r.slot (countReattempt c)) z.state r z.leg := by
      rw [walks]
      exact walk_took (setCall_plantKept s _ _ plant) (memory.of_same rfl rfl rfl) (reselectionCall r (countReattempt c))
    have calls : z.state.calls = (s.setCall r.slot (countReattempt c)).calls := by
      rw [walks]
      exact (walk_routed _ _ _).calls
    have offers : z.state.calls.offers = s.calls.offers := by
      rw [calls]
      rfl
    have reselections : z.state.calls.reselections = s.calls.reselections := by
      rw [calls]
      rfl
    have still : z.state.call r = some (countReattempt c) :=
      (State.call_of_calls calls r).trans (State.call_setCall_of_some used _)
    have walked : CallReplaced s z.state r (some (countReattempt c)) :=
      (callReplaced_of_used used _).of_calls (State.call_of_calls calls)
    rw [reselect_walks used within cause walks]
    obtain ⟨⟨circuit, group, owner, answer, mark⟩, state, leg⟩ := afterWalk_fits (countReattempt c) z cause
    have last := setCall_sameLegs z.state r.slot (afterWalk (countReattempt c) z cause)
    refine ⟨_, walked.trans (callReplaced_of_used still _), ⟨circuit, group, owner, answer, mark⟩, state, offers, reselections,
      fun q other => ((stored q).trans (took.others q other)).trans (last q), fun i n => ?_, fun i n => ?_⟩
    · exact ((last r).inbound i n).trans ((took.inbound r i n).trans ((stored r).inbound i n))
    · rw [leg]
      exact ((last r).outbound i n).trans ((took.outbound i n).trans (or_congr_left ((stored r).outbound i n)))

/-! ## A call without an outbound leg goes on (R113, R119) -/

/-- R113, R118: a call has no outbound leg any more, and the rest of the ledger stands. -/
structure LegGone (s d : State) (r : CallRef) (c : Call) : Prop where
  record : CallReplaced s d r (some c)
  offers : d.calls.offers = s.calls.offers
  others : ∀ q, q ≠ r → SameLegs s d q
  inbound : ∀ i n, HasLeg d i (.busyIn r) n ↔ HasLeg s i (.busyIn r) n
  outbound : ∀ i n, ¬HasLeg d i (.busyOut r) n

theorem CallReplaced.call_same {s t : State} {r : CallRef} {v : Option Call} (h : CallReplaced s t r v) : t.call r = v :=
  (h r).trans (if_pos rfl)

/-- R82: a call that has lost its leg is reselected, and its leg is again the one that its record names. -/
theorem LegsSound.reselected {s d : State} {r : CallRef} {b c : Call} (h : LegsSound s) (calls : CallsSound s)
    (used : s.call r = some b) (gone : LegGone s d r c) (circuit : c.inCircuit = b.inCircuit) (group : c.inGroup = b.inGroup)
    (owner : c.owner ≠ none) (answer : c.answer = none) (mark : c.reselectionPending = false) (plant : PlantSound d)
    (memory : MemorySound d) (once : d.calls.reselections.Nodup)
    (queued : ∀ q, q ∈ d.calls.reselections ↔ q ≠ r ∧ q ∈ s.calls.reselections) (cause : Cause) :
    LegsSound (reselect r cause d) := by
  obtain ⟨x, went⟩ := reselect_reselected gone.record.call_same plant memory cause
  obtain ⟨inCircuit, inGroup, sameOwner, sameAnswer, sameMark⟩ := went.kept
  have clear : x.reselectionPending = false := sameMark.trans mark
  have record := gone.record.trans went.record
  have offers : (reselect r cause d).calls.offers = s.calls.offers := went.offers.trans gone.offers
  have apart : ∀ o ∈ (reselect r cause d).calls.offers, o.ref ≠ r := by rw [offers]; exact calls.noOffer used
  have before : ∀ y, Holds s r y ↔ b = y := fun y =>
    ⟨fun holds => calls.holds_unique (.inl used) holds, fun same => same ▸ .inl used⟩
  refine h.replace record offers (fun q other => (gone.others q other).trans (went.others q other)) ⟨fun i n => ?_, fun i n => ?_⟩
    (fun y same => ?_) (by rw [went.reselections]; exact once) (fun q other => ?_) ?_
  · rw [went.inbound, gone.inbound, (h.matchAt r).inbound]
    simp [before, record.holds_same apart, inCircuit, inGroup, circuit, group]
  · rw [went.outbound, or_iff_right (gone.outbound i n)]
    simp [record.holds_same apart]
  · obtain rfl := Option.some.inj same
    exact went.state.fits (by rw [sameOwner]; exact owner) (sameAnswer.trans answer) clear
  · rw [went.reselections, queued]
    exact and_iff_right other
  · rw [went.reselections, queued]
    simp [clear]

/-! ## REATTEMPT (R113, R114) -/

/-- A circuit stands in one occupancy. -/
theorem HasLeg.occupancy_unique {s : State} {i n m : Nat} {o o' : Occupancy} (h : HasLeg s i o n) (g : HasLeg s i o' m) :
    o = o' := by
  obtain ⟨e, here, rfl, -⟩ := h
  obtain ⟨f, there, rfl, -⟩ := g
  rw [Option.some.inj (here.symm.trans there)]

/-- R113 steps 3 and 4: the outbound leg that the record names is released. -/
theorem dropLeg_legGone {s : State} (h : LegsSound s) (calls : CallsSound s) {r : CallRef} {c : Call} {l : Leg}
    (used : s.call r = some c) (leg : c.leg = some l) (cause : Cause) :
    LegGone s (dropLeg r c cause s) r { c with leg := none, lastCause := some cause } := by
  rw [dropLeg_of_leg leg]
  have released := releaseLeg_hasLeg_same l.circuit r (decide (cause = .circuitFault)) s
  have table : (releaseLeg l.circuit r (decide (cause = .circuitFault)) s).calls = s.calls := (releaseLeg_planted _ _ _ s).calls
  have still : (releaseLeg l.circuit r (decide (cause = .circuitFault)) s).call r = some c :=
    (State.call_of_calls table r).trans used
  have offers : (releaseLeg l.circuit r (decide (cause = .circuitFault)) s).calls.offers = s.calls.offers := by rw [table]
  have holds : ∀ y, Holds s r y → c = y := fun y => calls.holds_unique (.inl used)
  have outLeg : HasLeg s l.circuit (.busyOut r) l.group :=
    ((h.matchAt r).outbound _ _).mpr ⟨c, l, .inl used, leg, rfl, rfl⟩
  refine ⟨fun q => ?_, offers, fun q other => ?_, fun i n => ?_, fun i n has => ?_⟩
  · rw [callReplaced_of_used still _ q, State.call_of_calls table]
  · exact (releaseLeg_sameLegs _ r _ s other).trans (setCall_sameLegs _ _ _ q)
  · refine ((setCall_sameLegs _ _ _ r).inbound i n).trans ((released i n).1.trans (and_iff_right_of_imp fun has same => ?_))
    subst same
    cases has.occupancy_unique outLeg
  · obtain ⟨other, before⟩ := (released i n).2.mp (((setCall_sameLegs _ _ _ r).outbound i n).mp has)
    obtain ⟨y, m, hy, named, circuit, -⟩ := ((h.matchAt r).outbound i n).mp before
    obtain rfl := holds y hy
    obtain rfl : l = m := Option.some.inj (leg.symm.trans named)
    exact other circuit.symm

theorem handLevel_staysInStep (c : Call) (level : Option Nat) (s : State) : StaysInStep s (handLevel c level s) := by
  unfold handLevel
  split
  · exact farReport_staysInStep _ _ s
  · exact StaysInStep.refl s

theorem handFailure_staysInStep (c : Call) (s : State) : StaysInStep s (handFailure c s) := by
  unfold handFailure
  split
  · exact (failureOutcome_onlyMemory _ _ _ s).staysInStep (failureOutcome_tablesKept _ _ _ s)
  · exact StaysInStep.refl s

theorem dropLeg_plantKept (r : CallRef) (c : Call) (cause : Cause) (s : State) : PlantKept s (dropLeg r c cause s) := by
  simp only [dropLeg]
  refine PlantKept.trans ?_ (setCall_plantKept _ _ _)
  split
  · exact releaseLeg_plantKept _ _ _ s
  · exact PlantKept.refl s

theorem dropLeg_reselections (r : CallRef) (c : Call) (cause : Cause) (s : State) :
    (dropLeg r c cause s).calls.reselections = s.calls.reselections := by
  simp only [dropLeg]
  split
  · next l _ =>
    have table := (releaseLeg_planted l.circuit r (decide (cause = .circuitFault)) s).calls
    show (releaseLeg l.circuit r (decide (cause = .circuitFault)) s).calls.reselections = s.calls.reselections
    rw [table]
  · rfl

/-- R113: the leg of a call that is not answered is dropped, and the call reselected. -/
theorem reselect_dropLeg_staysInStep {s : State} {r : CallRef} {c : Call} (used : s.call r = some c)
    (carried : (freelyRouted c || c.state == .proceeding) = true) (cause : Cause) :
    StaysInStep s (reselect r cause (dropLeg r c cause s)) := by
  have tables := (dropLeg_tablesKept used cause).keeps
  have plant := dropLeg_plantKept r c cause s
  refine .of (plant.trans (reselect_plantKept _ _ _)) (tables.trans (reselect_tablesKept _ _ _).keeps) fun h => ?_
  obtain ⟨held, mark, answer, owner⟩ := (h.legs.recordsFit.calls r c used).carried carried
  obtain ⟨l, leg⟩ := Option.isSome_iff_exists.mp held
  have unmarked : r ∉ s.calls.reselections := fun queued => by
    obtain ⟨y, also, marked⟩ := (h.legs.queueFits.marked r).mp queued
    obtain rfl : c = y := Option.some.inj (used.symm.trans also)
    rw [mark] at marked
    cases marked
  have queue := dropLeg_reselections r c cause s
  refine h.legs.reselected h.calls used (dropLeg_legGone h.legs h.calls used leg cause) rfl rfl owner answer mark
    (plant h.plant) (tables h.tables).2.2.1 (by rw [queue]; exact h.legs.queueFits.once) (fun q => ?_) cause
  rw [queue]
  exact (and_iff_right_of_imp fun queued same => unmarked (by rwa [same] at queued)).symm

theorem handleReattempt_staysInStep (p : Port) (r : CallRef) (cause : Arg Cause) (level : Option Nat) (s : State) :
    StaysInStep s (handleReattempt p r cause level s).state := by
  simp only [handleReattempt]
  split
  · exact StaysInStep.refl s
  · next c found =>
    split
    · exact StaysInStep.refl s
    split
    · next carried =>
      have still : (handFailure c (handLevel c level s)).call r = some c := by
        rw [(handFailure_routed c _).call, (handLevel_routed c level s).call, (findOwned_spec found).1]
      exact ((handLevel_staysInStep c level s).trans (handFailure_staysInStep c _)).trans
        (reselect_dropLeg_staysInStep still carried _)
    · exact StaysInStep.refl s

/-! ## GLARE_RESELECTION (R119) -/

theorem tellOwner_staysInStep (r : CallRef) (s : State) : StaysInStep s (tellOwner r s) := by
  simp only [tellOwner]
  split
  · exact StaysInStep.refl s
  split
  · exact notify_staysInStep _ _ s
  · exact StaysInStep.refl s

/-- R119: a call with the mark has no leg, an owner and no answer facts. -/
theorem FieldsFit.marked {c : Call} (h : FieldsFit c) (mark : c.reselectionPending = true) :
    c.leg = none ∧ c.owner ≠ none ∧ c.answer = none := by
  obtain ⟨-, -, routed, marked, answered, owner⟩ := h
  have state := marked mark
  refine ⟨?_, fun none => ?_, ?_⟩
  · rw [← Option.not_isSome_iff_eq_none, routed state, mark]
    decide
  · rw [owner none] at state
    cases state
  · rw [← Option.not_isSome_iff_eq_none, answered, state]
    decide

/-- R119: the state with a queued reselection taken from the queue. -/
def State.withoutReselection (s : State) (r : CallRef) : State :=
  { s with calls := { s.calls with reselections := s.calls.reselections.erase r } }

/-- R119: the record of a displaced call whose reselection is made. -/
def Call.unmarked (c : Call) : Call := { c with reselectionPending := false, lastCause := some .glareYield }

/-- R118, R119: a call with the mark has no leg, and loses its mark alone. -/
theorem unmarked_legGone {s : State} (h : LegsSound s) (calls : CallsSound s) {r : CallRef} {c : Call}
    (used : s.call r = some c) (noLeg : c.leg = none) :
    LegGone s ((s.withoutReselection r).setCall r.slot c.unmarked) r c.unmarked := by
  have legs : ∀ q, SameLegs s ((s.withoutReselection r).setCall r.slot c.unmarked) q :=
    SameLegs.of_plant (s := s) (t := (s.withoutReselection r).setCall r.slot c.unmarked) rfl
  refine ⟨callReplaced_of_used (s := s.withoutReselection r) used _, rfl, fun q _ => legs q, (legs r).inbound, fun i n has => ?_⟩
  obtain ⟨y, l, hy, leg, -⟩ := ((h.matchAt r).outbound i n).mp (((legs r).outbound i n).mp has)
  obtain rfl : c = y := calls.holds_unique (.inl used) hy
  rw [noLeg] at leg
  cases leg

/-- R119: a queued reselection is taken from the queue and made. -/
theorem reselectDisplaced_staysInStep {s : State} {r : CallRef} (queued : r ∈ s.calls.reselections) :
    StaysInStep s (reselectDisplaced r (s.withoutReselection r)) := fun h => by
  obtain ⟨once, marked⟩ := h.legs.queueFits
  obtain ⟨c, used, mark⟩ := (marked r).mp queued
  obtain ⟨noLeg, owner, answer⟩ := (h.legs.recordsFit.calls r c used).marked mark
  have usedTaken : (s.withoutReselection r).call r = some c := used
  have taken : TablesKept s (s.withoutReselection r) := TablesKept.of_calls (.of_same rfl rfl rfl rfl)
  have tables : TablesKept s ((s.withoutReselection r).setCall r.slot c.unmarked) :=
    taken.trans (setCall_call_tablesKept usedTaken rfl rfl rfl)
  have plant : PlantSound ((s.withoutReselection r).setCall r.slot c.unmarked) := h.plant
  rw [reselectDisplaced_of_some usedTaken]
  exact tellOwner_staysInStep r _
    ⟨reselect_plantKept r .glareYield _ plant, (tables.trans (reselect_tablesKept _ _ _)).keeps h.tables,
      h.legs.reselected h.calls used (unmarked_legGone h.legs h.calls used noLeg) rfl rfl owner answer rfl plant
        (tables.keeps h.tables).2.2.1 (once.erase r) (fun _ => once.mem_erase_iff) .glareYield⟩

end Sys2Proof.Machine
end

section
/-! The legs stay in step with the calls: OFFER (R15 to R19, R107 to R110, R118). -/

namespace Sys2Proof.Machine

/-! ## The ledger while an OFFER holds its inbound seizure alone -/

theorem Holds.congr {s t : State} (same : t.calls = s.calls) (q : CallRef) (x : Call) : Holds t q x ↔ Holds s q x := by
  unfold Holds
  rw [State.call_of_calls same, same]

theorem RecordsFit.of_calls {s t : State} (h : RecordsFit s) (same : t.calls = s.calls) : RecordsFit t :=
  ⟨fun q x used => h.calls q x ((State.call_of_calls same q).symm.trans used), by rw [same]; exact h.offers⟩

theorem QueueFits.of_calls {s t : State} (h : QueueFits s) (same : t.calls = s.calls) : QueueFits t :=
  ⟨by rw [same]; exact h.once, fun q => by rw [same, State.call_of_calls same]; exact h.marked q⟩

/-- R16, R108 step 5: a circuit is busy for a reference that has no record yet, and the rest of the ledger matches. -/
structure SeizedFor (w : State) (c n : Nat) (r : CallRef) : Prop where
  others : ∀ q, q ≠ r → MatchAt w q
  inbound : ∀ i m, HasLeg w i (.busyIn r) m ↔ i = c ∧ m = n
  outbound : ∀ i m, ¬HasLeg w i (.busyOut r) m
  fits : RecordsFit w
  queue : QueueFits w

theorem SeizedFor.of_legs {w v : State} {c n : Nat} {r : CallRef} (h : SeizedFor w c n r) (legs : ∀ q, SameLegs w v q)
    (same : v.calls = w.calls) : SeizedFor v c n r where
  others q other := (h.others q other).same (legs q) (Holds.congr same q)
  inbound i m := ((legs r).inbound i m).trans (h.inbound i m)
  outbound i m has := h.outbound i m (((legs r).outbound i m).mp has)
  fits := h.fits.of_calls same
  queue := h.queue.of_calls same

/-- R107: the reference of a slot that is open has no record. -/
theorem OpenSlot.not_holds {s : State} {r : CallRef} (h : OpenSlot s r) (x : Call) : ¬Holds s r x := by
  rintro (used | ⟨o, listed, rfl, -⟩)
  · have free := h.free
    rw [((s.call_eq_some_iff r x).mp used).2] at free
    cases free
  · exact h.apart o listed rfl

/-- R19: a refused OFFER gives its circuit back. -/
theorem SeizedFor.undone {v : State} {c n : Nat} {r : CallRef} (h : SeizedFor v c n r) (isOpen : OpenSlot v r) (f : Former) :
    LegsSound (undoInbound c f v) := by
  have same : (undoInbound c f v).calls = v.calls := (undoInbound_planted c f v).calls
  have left := undoInbound_hasLeg c f v
  have mine : HasLeg v c (.busyIn r) n := (h.inbound c n).mpr ⟨rfl, rfl⟩
  refine legsSound_of (fun q => ?_) (h.fits.of_calls same) (h.queue.of_calls same)
  by_cases here : q = r
  · subst here
    have none : ∀ x, ¬Holds (undoInbound c f v) q x := fun x holds => isOpen.not_holds x ((Holds.congr same q x).mp holds)
    refine ⟨fun i m => iff_of_false (fun has => ?_) fun ⟨x, hx, _⟩ => none x hx,
      fun i m => iff_of_false (fun has => ?_) fun ⟨x, _, hx, _⟩ => none x hx⟩
    · obtain ⟨other, before⟩ := (left i q m).1.mp has
      exact other ((h.inbound i m).mp before).1
    · exact h.outbound i m ((left i q m).2.mp has).2
  · refine (h.others q here).same ⟨fun i m => (left i q m).1.trans (and_iff_right_of_imp fun has at_c => ?_),
      fun i m => (left i q m).2.trans (and_iff_right_of_imp fun has at_c => ?_)⟩ (Holds.congr same q)
    · subst at_c
      exact here (Occupancy.busyIn.inj (has.occupancy_unique mine))
    · subst at_c
      cases has.occupancy_unique mine

/-! ## Glare (R17, R18, R118) -/

theorem decideInbound_decides {u : State} {c : Nat} (h : ∀ st, decideInbound u c ≠ .refused st) :
    ∃ e rule, u.circuit c = some e ∧ (inboundOf u c).1 = e.group ∧ decideInbound u c = decideCircuit u c e rule := by
  cases here : u.circuit c with
  | none => exact absurd (by simp only [decideInbound, here]) (h .groupUnavailable)
  | some e =>
    cases defined : u.group e.group with
    | none => exact absurd (by simp only [decideInbound, here, defined]) (h .groupUnavailable)
    | some g =>
      refine ⟨e, g.glare, rfl, by rw [inboundOf_eq here defined], ?_⟩
      rw [decideInbound_of here defined] at h ⊢
      split
      · next out => exact absurd (if_pos out) (h .wrongDirection)
      · next way =>
        split
        · next shut => exact absurd ((if_neg way).trans (if_pos shut)) (h .groupUnavailable)
        · rfl

/-- R15: a circuit whose seizure is accepted is not busy. -/
theorem accepted_of_decideCircuit {u : State} {c : Nat} {e : Equipped} {rule : GlareRule} {f : Former}
    (h : decideCircuit u c e rule = .accepted f) (q : CallRef) : e.occupancy ≠ .busyIn q ∧ e.occupancy ≠ .busyOut q := by
  cases busy : e.occupancy with
  | idle => simp
  | guard x => simp
  | busyIn d => simp only [decideCircuit, busy] at h; split at h <;> cases h
  | busyOut d =>
    simp only [decideCircuit, busy] at h
    repeat' split at h
    all_goals cases h

/-- R17: a circuit that is yielded is the outbound leg of a call that does not hold it firmly. -/
theorem yields_of_decideCircuit {u : State} {c : Nat} {e : Equipped} {rule : GlareRule} {d : CallRef}
    (h : decideCircuit u c e rule = .yields d) : e.occupancy = .busyOut d ∧ ownerHoldsFirmly u d = false := by
  cases busy : e.occupancy with
  | idle => simp only [decideCircuit, busy] at h; split at h <;> cases h
  | guard x => simp only [decideCircuit, busy] at h; split at h <;> cases h
  | busyIn d => simp only [decideCircuit, busy] at h; split at h <;> cases h
  | busyOut b =>
    simp only [decideCircuit, busy] at h
    split at h
    · cases h
    split at h
    · cases h
    next loose =>
    split at h
    · cases h
    · obtain rfl := InboundDecision.yields.inj h
      exact ⟨rfl, Bool.not_eq_true _ ▸ loose⟩

/-- R118: what a displacement does to the records: the displaced one loses its leg. -/
theorem displace_holds {s : State} (calls : CallsSound s) (d q : CallRef) (x : Call) :
    Holds (displace d s) q x ↔ (q ≠ d ∧ Holds s q x) ∨ (q = d ∧ ∃ y, Holds s d y ∧ x = y.displaced) := by
  cases used : s.call d with
  | none =>
    have call : ∀ r, (displace d s).call r = s.call r := fun r => by rw [displace_of_none used]; rfl
    have offers : (displace d s).calls.offers =
        s.calls.offers.map (fun o => if o.ref = d then { o with displaced := true } else o) := by rw [displace_of_none used]
    have shown : ∀ o : OfferInProgress, ({ o with displaced := true } : OfferInProgress).shown = o.shown.displaced := fun o => by
      simp only [OfferInProgress.shown]
      cases o.displaced <;> rfl
    by_cases same : q = d
    · subst same
      simp only [Holds, call, used, offers, List.mem_map]
      constructor
      · rintro (none | ⟨o, ⟨a, before, rfl⟩, ref, rfl⟩)
        · cases none
        · split at ref
          · next mine => exact .inr ⟨trivial, a.shown, .inr ⟨a, before, mine, rfl⟩, by rw [if_pos mine, shown]⟩
          · next other => exact absurd ref other
      · rintro (⟨other, -⟩ | ⟨-, y, none | ⟨a, before, mine, rfl⟩, rfl⟩)
        · exact absurd rfl other
        · cases none
        · exact .inr ⟨_, ⟨a, before, rfl⟩, by rw [if_pos mine]; exact mine, by rw [if_pos mine, shown]⟩
    · simp only [Holds, call, offers, List.mem_map, same, ne_eq, not_false_eq_true, true_and, false_and, or_false]
      refine or_congr_right ⟨?_, ?_⟩
      · rintro ⟨o, ⟨a, before, rfl⟩, ref, rfl⟩
        split at ref
        · next mine => exact absurd (ref.symm.trans mine) same
        · next other => exact ⟨a, before, ref, by rw [if_neg other]⟩
      · rintro ⟨a, before, rfl, rfl⟩
        exact ⟨_, ⟨a, before, rfl⟩, by rw [if_neg same], by rw [if_neg same]⟩
  | some y =>
    have replaced : CallReplaced s (displace d s) d (some y.displaced) := by
      rw [displace_of_some used]
      exact (callReplaced_of_used used y.displaced).of_calls fun _ => rfl
    have offers : (displace d s).calls.offers = s.calls.offers := by rw [displace_of_some used]; rfl
    by_cases same : q = d
    · subst same
      have mine : ∀ z, Holds s q z ↔ y = z := fun z =>
        ⟨fun holds => calls.holds_unique (.inl used) holds, fun same => same ▸ .inl used⟩
      simp [replaced.holds_same (by rw [offers]; exact calls.noOffer used), mine, eq_comm]
    · simp [replaced.holds_other offers same, same]

theorem displaced_fits {x : Call} (h : FieldsFit x) (state : x.state = .routed) : FieldsFit x.displaced := by
  obtain ⟨-, -, -, -, answered, owner⟩ := h
  simp [FieldsFit, Call.displaced, state] at answered owner ⊢
  exact ⟨answered, owner⟩

/-- R118: a ROUTED call with a leg is displaced: it is marked and queued. -/
theorem displace_fits {s : State} {d : CallRef} (fits : RecordsFit s) (queue : QueueFits s)
    (routed : ∀ x, s.call d = some x → x.state = .routed ∧ x.reselectionPending = false) :
    RecordsFit (displace d s) ∧ QueueFits (displace d s) := by
  cases used : s.call d with
  | none =>
    rw [displace_of_none used]
    refine ⟨⟨fits.calls, fun o listed => ?_⟩, queue.once, queue.marked⟩
    obtain ⟨a, before, rfl⟩ := List.mem_map.mp listed
    split <;> exact fits.offers a before
  | some y =>
    obtain ⟨state, clear⟩ := routed y used
    have unqueued : d ∉ s.calls.reselections := fun queued => by
      obtain ⟨x, also, marked⟩ := (queue.marked d).mp queued
      obtain rfl : y = x := Option.some.inj (used.symm.trans also)
      rw [clear] at marked
      cases marked
    have replaced : CallReplaced s (displace d s) d (some y.displaced) := by
      rw [displace_of_some used]
      exact (callReplaced_of_used used y.displaced).of_calls fun _ => rfl
    have offers : (displace d s).calls.offers = s.calls.offers := by rw [displace_of_some used]; rfl
    have reselections : (displace d s).calls.reselections = s.calls.reselections ++ [d] := by rw [displace_of_some used]
    refine ⟨⟨fun q x here => ?_, by rw [offers]; exact fits.offers⟩, ?_, fun q => ?_⟩
    · rw [replaced q] at here
      split at here
      · obtain rfl := Option.some.inj here
        exact displaced_fits (fits.calls d y used) state
      · exact fits.calls q x here
    · rw [reselections, List.nodup_append]
      exact ⟨queue.once, List.nodup_singleton d, fun q listed p single same =>
        unqueued (List.mem_singleton.mp single ▸ same ▸ listed)⟩
    · rw [reselections, replaced q]
      by_cases same : q = d
      · simp [same, Call.displaced]
      · simp [same, queue.marked q]

/-! ## The inbound seizure of an OFFER (R15 to R18) -/

theorem occupyIn_others {u : State} {c : Nat} {r : CallRef} {e : Equipped} (here : u.circuit c = some e) {q : CallRef}
    (other : q ≠ r) (notIn : e.occupancy ≠ .busyIn q) :
    (∀ i m, HasLeg (occupyIn c r u) i (.busyIn q) m ↔ HasLeg u i (.busyIn q) m) ∧
      ∀ i m, HasLeg (occupyIn c r u) i (.busyOut q) m ↔ i ≠ c ∧ HasLeg u i (.busyOut q) m := by
  constructor <;> intro i m <;> rw [occupyIn_hasLeg]
  · rw [or_iff_right fun ⟨_, _, _, same, _⟩ => other (Occupancy.busyIn.inj same).symm]
    refine and_iff_right_of_imp fun ⟨f, there, busy, _⟩ at_c => ?_
    rw [at_c, here] at there
    obtain rfl := Option.some.inj there
    exact notIn busy
  · exact or_iff_right fun ⟨_, _, _, same, _⟩ => by cases same

theorem occupyIn_mine {u : State} {c : Nat} {r : CallRef} {e : Equipped} (here : u.circuit c = some e)
    (noLegs : ∀ i m, ¬HasLeg u i (.busyIn r) m ∧ ¬HasLeg u i (.busyOut r) m) (i m : Nat) :
    (HasLeg (occupyIn c r u) i (.busyIn r) m ↔ i = c ∧ m = e.group) ∧ ¬HasLeg (occupyIn c r u) i (.busyOut r) m := by
  simp [occupyIn_hasLeg, here, noLegs, eq_comm]

/-- R107: no circuit is busy for the reference of an open slot. -/
theorem OpenSlot.noLegs {u : State} {r : CallRef} (isOpen : OpenSlot u r) (legs : LegsSound u) (i m : Nat) :
    ¬HasLeg u i (.busyIn r) m ∧ ¬HasLeg u i (.busyOut r) m := by
  refine ⟨fun has => ?_, fun has => ?_⟩
  · obtain ⟨x, hx, -⟩ := ((legs.matchAt r).inbound i m).mp has
    exact isOpen.not_holds x hx
  · obtain ⟨x, -, hx, -⟩ := ((legs.matchAt r).outbound i m).mp has
    exact isOpen.not_holds x hx

/-- R16: an accepted seizure takes a circuit that was not busy. -/
theorem seizedFor_of_accepted {u : State} {c : Nat} {r : CallRef} {f : Former} (h : InStep u) (isOpen : OpenSlot u r)
    (decided : decideInbound u c = .accepted f) : SeizedFor (occupyIn c r u) c (inboundOf u c).1 r := by
  obtain ⟨e, rule, here, group, decides⟩ := decideInbound_decides (fun st => by rw [decided]; simp)
  have free := accepted_of_decideCircuit (decides.symm.trans decided)
  have same : (occupyIn c r u).calls = u.calls := (occupyIn_planted c r u).calls
  have mine := occupyIn_mine here (isOpen.noLegs h.legs)
  refine ⟨fun q other => ?_, fun i m => by rw [group]; exact (mine i m).1, fun i m => (mine i m).2,
    h.legs.recordsFit.of_calls same, h.legs.queueFits.of_calls same⟩
  obtain ⟨inbound, outbound⟩ := occupyIn_others here other (free q).1
  refine (h.legs.matchAt q).same ⟨inbound, fun i m => (outbound i m).trans (and_iff_right_of_imp ?_)⟩ (Holds.congr same q)
  rintro ⟨a, there, busy, -⟩ rfl
  obtain rfl := Option.some.inj (here.symm.trans there)
  exact (free q).2 busy

/-- R17, R18, R118: a yielded circuit goes from the call displaced to the new one. -/
theorem seizedFor_of_yields {u : State} {c : Nat} {r d : CallRef} (h : InStep u) (isOpen : OpenSlot u r)
    (decided : decideInbound u c = .yields d) : SeizedFor (displace d (occupyIn c r u)) c (inboundOf u c).1 r := by
  obtain ⟨e, rule, here, group, decides⟩ := decideInbound_decides (fun st => by rw [decided]; simp)
  obtain ⟨busy, loose⟩ := yields_of_decideCircuit (decides.symm.trans decided)
  have calls : (occupyIn c r u).calls = u.calls := (occupyIn_planted c r u).calls
  have plant : (displace d (occupyIn c r u)).plant = (occupyIn c r u).plant := by rw [displace_calls]
  have legs : ∀ q, SameLegs (occupyIn c r u) (displace d (occupyIn c r u)) q := SameLegs.of_plant plant
  have holds : ∀ q x, Holds (displace d (occupyIn c r u)) q x ↔
      (q ≠ d ∧ Holds u q x) ∨ (q = d ∧ ∃ y, Holds u d y ∧ x = y.displaced) := fun q x => by
    simp only [displace_holds (h.calls.of_calls calls) d q x, Holds.congr calls]
  obtain ⟨y, l, hy, leg, circuit, -⟩ := ((h.legs.matchAt d).outbound c e.group).mp ⟨e, here, busy, rfl⟩
  have displacedOther : d ≠ r := fun same => isOpen.not_holds y (same ▸ hy)
  have mine := occupyIn_mine here (isOpen.noLegs h.legs)
  have routed : ∀ x, (occupyIn c r u).call d = some x → x.state = .routed ∧ x.reselectionPending = false := by
    intro x used
    rw [State.call_of_calls calls] at used
    obtain rfl := h.calls.holds_unique hy (.inl used)
    obtain ⟨-, unrouted, routed, -⟩ := h.legs.recordsFit.calls d y used
    have firm : ¬(y.state = .proceeding ∨ y.state = .answered) := fun firm => by
      rw [(ownerHoldsFirmly_iff u d).mpr ⟨y, used, firm⟩] at loose
      cases loose
    have state : y.state = .routed := by
      cases state : y.state with
      | routed => rfl
      | proceeding => exact absurd (.inl state) firm
      | answered => exact absurd (.inr state) firm
      | unrouted => rw [unrouted state] at leg; cases leg
    exact ⟨state, (routed state).mp (by rw [leg]; rfl)⟩
  obtain ⟨fits, queue⟩ := displace_fits (d := d) (h.legs.recordsFit.of_calls calls) (h.legs.queueFits.of_calls calls) routed
  refine ⟨fun q other => ?_, fun i m => ?_, fun i m has => (mine i m).2 (((legs r).outbound i m).mp has), fits, queue⟩
  · obtain ⟨inbound, outbound⟩ := occupyIn_others here other (by rw [busy]; simp)
    refine ⟨fun i m => ((legs q).inbound i m).trans ((inbound i m).trans (((h.legs.matchAt q).inbound i m).trans ?_)),
      fun i m => ((legs q).outbound i m).trans ((outbound i m).trans ?_)⟩
    · by_cases same : q = d
      · subst same
        simp [holds, Call.displaced]
      · simp [holds, same]
    · by_cases same : q = d
      · subst same
        refine iff_of_false (fun ⟨apart, has⟩ => ?_) fun ⟨x, k, hx, named, _⟩ => ?_
        · obtain ⟨x, k, hx, named, at_i, -⟩ := ((h.legs.matchAt q).outbound i m).mp has
          obtain rfl := h.calls.holds_unique hy hx
          obtain rfl := Option.some.inj (leg.symm.trans named)
          exact apart (at_i.symm.trans circuit)
        · obtain ⟨apart, -⟩ | ⟨-, z, -, rfl⟩ := (holds q x).mp hx
          · exact apart rfl
          · cases named
      · have elsewhere : HasLeg u i (.busyOut q) m → i ≠ c := by
          rintro ⟨a, there, taken, -⟩ rfl
          obtain rfl := Option.some.inj (here.symm.trans there)
          exact same (Occupancy.busyOut.inj (taken.symm.trans busy))
        rw [and_iff_right_of_imp elsewhere, (h.legs.matchAt q).outbound]
        simp [holds, same]
  · rw [(legs r).inbound, (mine i m).1, group]

theorem SeizesInbound.seizedFor {u w : State} {c : Nat} {r : CallRef} {f : Former} (h : SeizesInbound u c r f w)
    (step : InStep u) (isOpen : OpenSlot u r) : SeizedFor w c (inboundOf u c).1 r := by
  rcases h with ⟨decided, rfl⟩ | ⟨d, decided, -, rfl⟩
  · exact seizedFor_of_accepted step isOpen decided
  · exact seizedFor_of_yields step isOpen decided

theorem SeizesInbound.plantKept {u w : State} {c : Nat} {r : CallRef} {f : Former} (h : SeizesInbound u c r f w) :
    PlantKept u w := by
  rcases h with ⟨-, rfl⟩ | ⟨d, -, -, rfl⟩
  · exact occupyIn_plantKept c r u
  · exact (occupyIn_plantKept c r u).trans (displace_plantKept d _)

end Sys2Proof.Machine
end

section
/-! The legs stay in step with the calls: the walk of an OFFER and its end (R107 to R110, R118, R120). -/

namespace Sys2Proof.Machine

/-! ## An OFFER that is refused, and one whose walk found a leg -/

theorem afterGapCheck_sameLegs (d : Nat) (cls : CallClass) (s : State) (q : CallRef) : SameLegs s (afterGapCheck d cls s) q :=
  .of_plant (by rw [afterGapCheck_analyser]) q

theorem BeforeUndo.seizedFor {r : CallRef} {cls : CallClass} {n : Nat} {w v : State} (h : BeforeUndo r cls n w v) {c m : Nat}
    (seized : SeizedFor w c m r) : SeizedFor v c m r ∧ v.calls = w.calls := by
  rcases h with rfl | ⟨t, rfl | ⟨none, rfl⟩⟩
  · exact ⟨seized, rfl⟩
  · have same : (afterGapCheck t.destination cls w).calls = w.calls := by rw [afterGapCheck_analyser]
    exact ⟨seized.of_legs (afterGapCheck_sameLegs _ _ w) same, same⟩
  · have same := offerWalk_calls r cls n t w
    exact ⟨seized.of_legs (fun q => (afterGapCheck_sameLegs _ _ w q).trans (.of_circuits (walk_of_none none).circuit q)) same, same⟩

theorem newCall_fits (p : Port) (c n k : Nat) (t : Target) (cls : CallClass) (w : Walked) (l : NewLeg) :
    FieldsFit (newCall p c n k t cls w l) := by
  simp [FieldsFit, newCall]

theorem holds_withOffer (s : State) (o : OfferInProgress) (q : CallRef) (x : Call) :
    Holds (s.withOffer o) q x ↔ Holds s q x ∨ (o.ref = q ∧ o.shown = x) := by
  unfold Holds State.withOffer
  have call : ({ s with calls := { s.calls with offers := s.calls.offers ++ [o] } } : State).call q = s.call q := rfl
  simp only [call, List.mem_append, List.mem_singleton, or_assoc, or_and_right, exists_or, exists_eq_left]

/-- R78, R110: the legs of an OFFER in progress are its inbound seizure and the circuit that its walk took. -/
theorem SeizedFor.withOffer {w z : State} {c n : Nat} {o : OfferInProgress} {l : NewLeg} (h : SeizedFor w c n o.ref)
    (isOpen : OpenSlot w o.ref) (took : WalkTook w z o.ref (some l)) (calls : z.calls = w.calls) (clear : o.displaced = false)
    (circuit : o.record.inCircuit = c) (group : o.record.inGroup = n) (leg : o.record.leg = some l.toLeg)
    (fits : FieldsFit o.record ∧ o.record.state = .routed ∧ o.record.reselectionPending = false) :
    LegsSound (z.withOffer o) := by
  have legs : ∀ q, SameLegs z (z.withOffer o) q := SameLegs.of_plant (s := z) (t := z.withOffer o) rfl
  have shown : o.shown = o.record := if_neg (by simp [clear])
  have holds : ∀ q x, Holds (z.withOffer o) q x ↔ Holds w q x ∨ (o.ref = q ∧ o.record = x) := fun q x => by
    rw [holds_withOffer, Holds.congr calls, shown]
  have fitsBefore := h.fits.of_calls calls
  have queueBefore := h.queue.of_calls calls
  refine legsSound_of (fun q => ?_) ⟨fitsBefore.calls, fun a listed => ?_⟩ ⟨queueBefore.once, queueBefore.marked⟩
  · by_cases same : q = o.ref
    · subst same
      have mine : ∀ x, Holds (z.withOffer o) o.ref x ↔ o.record = x := fun x =>
        (holds o.ref x).trans ((or_iff_right (isOpen.not_holds x)).trans (and_iff_right rfl))
      refine ⟨fun i m => ?_, fun i m => ?_⟩
      · rw [(legs o.ref).inbound, took.inbound, h.inbound]
        simp [mine, circuit, group, eq_comm]
      · rw [(legs o.ref).outbound, took.outbound, or_iff_right (h.outbound i m)]
        simp [mine, leg, NewLeg.toLeg]
    · refine (h.others q same).same ((took.others q same).trans (legs q)) fun x => ?_
      rw [holds]
      exact or_iff_left fun ⟨mine, _⟩ => same mine.symm
  · rcases List.mem_append.mp listed with before | new
    · exact fitsBefore.offers a before
    · rw [List.mem_singleton.mp new]
      exact fits

theorem offerWalk_took {w : State} (plant : PlantSound w) (memory : MemorySound w) (r : CallRef) (cls : CallClass) (n : Nat)
    (t : Target) : WalkTook w (offerWalk r cls n t w).state r (offerWalk r cls n t w).leg := by
  have checked := afterGapCheck_tablesKept t.destination cls w
  have same := afterGapCheck_sameLegs t.destination cls w
  obtain ⟨inbound, others, outbound⟩ : WalkTook (afterGapCheck t.destination cls w) (offerWalk r cls n t w).state r
      (offerWalk r cls n t w).leg :=
    walk_took (PlantKept.of_plant (by rw [afterGapCheck_analyser]) plant) (checked.memory memory) (offerCall r cls n t)
  exact ⟨fun q i m => (inbound q i m).trans ((same q).inbound i m), fun q other => (same q).trans (others q other),
    fun i m => (outbound i m).trans (or_congr_left ((same r).outbound i m))⟩

/-- R107, R108, R19: a refused OFFER. -/
theorem checkOffer_refused_staysInStep {p : Port} {c : Nat} {ds : List Nat} {cls : Arg CallClass} {u : State} {y : Reply}
    {ref : CallRef} (h : checkOffer p c ds cls u = (.refused y, ref)) : StaysInStep u y.state := by
  have plant := checkOffer_plantKept p c ds cls u
  have tables := checkOffer_tablesKept p c ds cls u
  rw [h] at plant tables
  refine .of plant tables.keeps fun step => ?_
  rcases checkOffer_cases p c ds cls u with ⟨st, r, refused⟩ | ⟨x, k, f, w, slot, seizes, routes⟩
  · obtain ⟨same, -⟩ := Prod.mk.inj (refused.symm.trans h)
    obtain rfl := OfferOutcome.refused.inj same
    exact step.legs
  · obtain ⟨route, rfl⟩ := Prod.mk.inj (routes.symm.trans h)
    have isOpen := openSlot_of_lowestFreeSlot slot
    rcases routeOffer_cases p c (u.refOf k) f ds x (inboundOf u c).1 (inboundOf u c).2 w with
      ⟨st, v, before, refused⟩ | ⟨t, l, -, walked⟩
    · obtain rfl := OfferOutcome.refused.inj (refused.symm.trans route)
      obtain ⟨seized, same⟩ := before.seizedFor (seizes.seizedFor step isOpen)
      exact seized.undone ((seizes.openSlot isOpen).of_calls same) f
    · rw [walked] at route
      cases route

/-- R108, R110: an OFFER whose walk found a leg, in progress. -/
theorem checkOffer_walked_legs {r : Sender} {c : Nat} {ds : List Nat} {cls : Arg CallClass} {u z : State} {record : Call}
    {ref : CallRef} (h : checkOffer r.port c ds cls u = (.walked z record, ref)) (step : InStep u) :
    LegsSound (z.withOffer (offerBegun r c ds cls ref record)) := by
  rcases checkOffer_cases r.port c ds cls u with ⟨st, q, refused⟩ | ⟨x, k, f, w, slot, seizes, routes⟩
  · rw [refused] at h
    cases h
  · obtain ⟨route, rfl⟩ := Prod.mk.inj (routes.symm.trans h)
    have isOpen := openSlot_of_lowestFreeSlot slot
    have seized := seizes.seizedFor step isOpen
    rcases routeOffer_cases r.port c (u.refOf k) f ds x (inboundOf u c).1 (inboundOf u c).2 w with
      ⟨st, v, -, refused⟩ | ⟨t, l, leg, walked⟩
    · rw [refused] at route
      cases route
    · obtain ⟨rfl, rfl⟩ := OfferOutcome.walked.inj (walked.symm.trans route)
      have took := offerWalk_took (seizes.plantKept step.plant) (seizes.tablesKept.memory step.memory) (u.refOf k) x
        (inboundOf u c).1 t
      rw [leg] at took
      exact SeizedFor.withOffer (o := offerBegun r c ds cls (u.refOf k) _) seized (seizes.openSlot isOpen) took
        (offerWalk_calls _ _ _ _ w) rfl rfl rfl rfl ⟨newCall_fits _ _ _ _ _ _ _ _, rfl, rfl⟩

/-! ## The end of an OFFER in progress (R110, R118, R120) -/

/-- R110: the record of an OFFER in progress goes into its slot. -/
def State.keptOffer (s : State) (o : OfferInProgress) : State := (s.withoutOffer o).setCall o.ref.slot o.record

/-- R110: what stands once the record is in its slot. -/
theorem keptOffer_spec {s : State} (h : CallsSound s) {o : OfferInProgress} (listed : o ∈ s.calls.offers) :
    CallsSound (s.keptOffer o) ∧ CallReplaced (s.withoutOffer o) (s.keptOffer o) o.ref (some o.record) := by
  obtain ⟨-, -, -, -, -, -, -, held⟩ := id h
  obtain ⟨-, -, -, owner, deadline⟩ := held o listed
  obtain ⟨sound, isOpen⟩ := h.withoutOffer listed
  exact ⟨sound.keep isOpen (by simp [owner]) deadline, callReplaced_setCall isOpen.generation o.record⟩

/-- R110: the record of an OFFER in progress goes into its slot, as far as it still holds its legs. -/
theorem settled_holds {s : State} (h : CallsSound s) {o : OfferInProgress} (listed : o ∈ s.calls.offers) (q : CallRef) (x : Call) :
    Holds (settleDisplaced o (s.keptOffer o)) q x ↔ Holds s q x := by
  obtain ⟨keptSound, replaced⟩ := keptOffer_spec h listed
  have used : (s.keptOffer o).call o.ref = some o.record := replaced.call_same
  have mine : ∀ y, Holds (s.keptOffer o) o.ref y ↔ o.record = y := fun y =>
    ⟨fun holds => keptSound.holds_unique (.inl used) holds, fun same => same ▸ .inl used⟩
  have before : ∀ y, Holds s o.ref y ↔ o.shown = y := fun y =>
    ⟨fun holds => h.holds_unique (.inr ⟨o, listed, rfl, rfl⟩) holds, fun same => .inr ⟨o, listed, rfl, same⟩⟩
  have others : ∀ p y, p ≠ o.ref → (Holds (s.keptOffer o) p y ↔ Holds s p y) := fun p y other => by
    refine (replaced.holds_other rfl other y).trans (or_congr_right ⟨?_, ?_⟩)
    · rintro ⟨a, here, ref, shown⟩
      exact ⟨a, (h.mem_withoutOffer.mp here).2, ref, shown⟩
    · rintro ⟨a, here, ref, shown⟩
      exact ⟨a, h.mem_withoutOffer.mpr ⟨fun same => other (by rw [← ref, same]), here⟩, ref, shown⟩
  cases marked : o.displaced with
  | false =>
    have shown : o.shown = o.record := if_neg (by simp [marked])
    have settled : settleDisplaced o (s.keptOffer o) = (s.keptOffer o) := if_neg (by simp [marked])
    rw [settled]
    by_cases same : q = o.ref
    · rw [same, mine, before, shown]
    · exact others q x same
  | true =>
    have shown : o.shown = o.record.displaced := if_pos marked
    have settled : settleDisplaced o (s.keptOffer o) = displace o.ref (s.keptOffer o) := if_pos marked
    rw [settled, displace_holds keptSound]
    by_cases same : q = o.ref
    · subst same
      simp [mine, before, shown, eq_comm]
    · simp [same, others q x same]

theorem settled_fits {s : State} (h : LegsSound s) (calls : CallsSound s) {o : OfferInProgress} (listed : o ∈ s.calls.offers) :
    RecordsFit (settleDisplaced o (s.keptOffer o)) ∧
      QueueFits (settleDisplaced o (s.keptOffer o)) := by
  obtain ⟨fits, state, clear⟩ := h.recordsFit.offers o listed
  obtain ⟨-, isOpen⟩ := calls.withoutOffer listed
  have replaced : CallReplaced s (s.keptOffer o) o.ref (some o.record) :=
    callReplaced_setCall (s := s.withoutOffer o) isOpen.generation o.record
  have free : s.call o.ref = none := by
    cases used : s.call o.ref with
    | none => rfl
    | some x => exact absurd rfl (calls.noOffer used o listed)
  have keptFits : RecordsFit (s.keptOffer o) := by
    refine ⟨fun q x used => ?_, fun a here => h.recordsFit.offers a (calls.mem_withoutOffer.mp here).2⟩
    rw [replaced q] at used
    split at used
    · obtain rfl := Option.some.inj used
      exact fits
    · exact h.recordsFit.calls q x used
  have keptQueue : QueueFits (s.keptOffer o) := by
    refine ⟨h.queueFits.once, fun q => (h.queueFits.marked q).trans ?_⟩
    rw [replaced q]
    split
    · next same => subst same; simp [free, clear]
    · rfl
  unfold settleDisplaced
  split
  · refine displace_fits keptFits keptQueue fun x used => ?_
    obtain rfl := Option.some.inj (replaced.call_same.symm.trans used)
    exact ⟨state, clear⟩
  · exact ⟨keptFits, keptQueue⟩

/-- R110, R118: the record is kept, without its leg when a glare yield has taken it. -/
theorem settled_staysInStep {s : State} {o : OfferInProgress} (listed : o ∈ s.calls.offers) :
    StaysInStep s (settleDisplaced o (s.keptOffer o)) := fun h => by
  have stored : TablesKept s (s.keptOffer o) := TablesKept.of_calls (x := (s.keptOffer o).calls) fun _ => (keptOffer_spec h.calls listed).1
  have same : (settleDisplaced o (s.keptOffer o)).plant = s.plant := by
    rw [settleDisplaced_calls]
    rfl
  obtain ⟨fits, queue⟩ := settled_fits h.legs h.calls listed
  exact ⟨PlantKept.of_plant same h.plant, (stored.trans (settleDisplaced_tablesKept o _)).keeps h.tables,
    legsSound_of (fun q => (h.legs.matchAt q).same (.of_plant same q) (settled_holds h.calls listed q)) fits queue⟩

theorem settleNoted_staysInStep (o : OfferInProgress) (s : State) : StaysInStep s (settleNoted o s) := by
  simp only [settleNoted]
  split
  · split
    · exact StaysInStep.refl s
    · split
      · exact (endCall_staysInStep _ _ _ _ s).trans (notify_staysInStep _ _ _)
      · exact endCall_staysInStep _ _ _ _ s
  · exact StaysInStep.refl s

theorem keepRecord_staysInStep {s : State} {o : OfferInProgress} (listed : o ∈ s.calls.offers) :
    StaysInStep s (keepRecord o (s.withoutOffer o)) := fun h => by
  obtain ⟨-, -, -, -, -, -, -, held⟩ := id h.calls
  obtain ⟨-, -, -, owner, -⟩ := held o listed
  obtain ⟨-, isOpen⟩ := h.calls.withoutOffer listed
  have settled := settled_staysInStep listed h
  simp only [keepRecord]
  split
  · exact settleNoted_staysInStep o _ settled
  · next q _ =>
    obtain ⟨y, used, mine⟩ := settleDisplaced_call (o := o) isOpen.generation
    have given := changeOwner_staysInStep q _ _ y ((State.call_eq_some_iff _ _ _).mp used).2 (by simp [mine, owner])
    exact settleNoted_staysInStep o _ (notify_staysInStep q _ _ (given settled))
  · exact endCall_staysInStep _ _ _ _ _ settled

/-! ## The requests -/

theorem respond_staysInStep (r : Sender) (code : Nat) (y : Reply) : StaysInStep y.state (respond r code y) := by
  rw [respond, compose_blocks]
  exact StaysInStep.of_ports _ _

/-- R107: the state in which an OFFER that has been taken is in progress. -/
theorem offerBegun_inStep {r : Sender} {c : Nat} {ds : List Nat} {cls : Arg CallClass} {u z : State} {record : Call}
    {ref : CallRef} (h : checkOffer r.port c ds cls u = (.walked z record, ref)) (step : InStep u) :
    InStep (z.withOffer (offerBegun r c ds cls ref record)) ∧ OpenSlot z ref := by
  obtain ⟨kept, isOpen, owner, deadline⟩ := checkOffer_walked h
  have plant := checkOffer_plantKept r.port c ds cls u step.plant
  rw [h] at plant
  have began : TablesKept z (z.withOffer (offerBegun r c ds cls ref record)) :=
    TablesKept.of_calls fun h => h.withOffer isOpen owner deadline
  exact ⟨⟨plant, (kept.trans began).keeps step.tables, checkOffer_walked_legs h step⟩, isOpen⟩

theorem handleOffer_staysInStep (r : Sender) (c : Nat) (ds : List Nat) (cls : Arg CallClass) (u : State) :
    StaysInStep u (handleOffer r c ds cls u).state := fun step => by
  cases checked : checkOffer r.port c ds cls u with
  | mk outcome ref =>
    cases outcome with
    | refused y =>
      simp only [handleOffer, checked]
      exact checkOffer_refused_staysInStep checked step
    | walked z record =>
      obtain ⟨began, isOpen⟩ := offerBegun_inStep checked step
      have kept := keepRecord_staysInStep (o := offerBegun r c ds cls ref record)
        (List.mem_append_right _ List.mem_cons_self) began
      rw [withoutOffer_withOffer (o := offerBegun r c ds cls ref record) isOpen] at kept
      simp only [handleOffer, checked]
      exact kept

theorem beginOffer_staysInStep (r : Sender) (c : Nat) (ds : List Nat) (cls : Arg CallClass) (u : State) :
    StaysInStep u (beginOffer r c ds cls u) := fun step => by
  cases checked : checkOffer r.port c ds cls u with
  | mk outcome ref =>
    cases outcome with
    | refused y =>
      simp only [beginOffer, checked]
      exact respond_staysInStep r _ y (checkOffer_refused_staysInStep checked step)
    | walked z record =>
      simp only [beginOffer, checked]
      exact StaysInStep.of_ports _ _ (offerBegun_inStep checked step).1

theorem answerHeldOffer_staysInStep (o : OfferInProgress) (y : Reply) : StaysInStep y.state (answerHeldOffer o y) := by
  simp only [answerHeldOffer]
  split
  · exact StaysInStep.refl _
  · exact (respond_staysInStep o.sender _ y).trans (StaysInStep.of_ports _ _)

theorem finishOffer_staysInStep {o : OfferInProgress} {s : State} (listed : o ∈ s.calls.offers) :
    StaysInStep s (finishOffer o s) := fun step =>
  answerHeldOffer_staysInStep o (acceptOffer o (s.withoutOffer o)) (keepRecord_staysInStep listed step)

end Sys2Proof.Machine
end

section
/-! Every command keeps the tables of the analyser, the route selector, the route memory and the call table, and each busy
circuit a leg of the one call that it names (O59). -/

namespace Sys2Proof.Machine

/-! ## Chapters 2 to 5: nothing of the plant or the calls -/

theorem handleFarReport_staysInStep (n l : Nat) (s : State) : StaysInStep s (handleFarReport n l s).state :=
  (handleFarReport_served n l s).staysInStep (handleFarReport_tablesKept n l s)

theorem handleDrainSuspend_staysInStep (s : State) : StaysInStep s (handleDrainSuspend s).state :=
  (handleDrainSuspend_served s).staysInStep (handleDrainSuspend_tablesKept s)

theorem handleDrainResume_staysInStep (s : State) : StaysInStep s (handleDrainResume s).state :=
  (handleDrainResume_served s).staysInStep (handleDrainResume_tablesKept s)

theorem handleReturnGroup_staysInStep (n : Nat) (s : State) : StaysInStep s (handleReturnGroup n s).state :=
  (handleReturnGroup_served n s).staysInStep (handleReturnGroup_tablesKept n s)

theorem expireDecay_staysInStep (n : Nat) (s : State) : StaysInStep s (expireDecay n s) :=
  (expireDecay_served n s).staysInStep (expireDecay_tablesKept n s)

theorem dropContributor_staysInStep (p : Port) (s : State) : StaysInStep s (dropContributor p s) :=
  (dropContributor_served p s).staysInStep (dropContributor_tablesKept p s)

/-- The plant and the call table are as they were. -/
def PlantAndCallsSame (s t : State) : Prop := t.plant = s.plant ∧ t.calls = s.calls

theorem PlantAndCallsSame.staysInStep {s t : State} (h : PlantAndCallsSame s t) (tables : KeepsTables s t) :
    StaysInStep s t := by
  obtain ⟨plant, calls⟩ := h
  exact .of_plant plant tables (by rw [calls]) (by rw [calls]) (by rw [calls])

theorem handleAddPrefix_staysInStep (ds : List Nat) (d : Nat) (s : State) : StaysInStep s (handleAddPrefix ds d s).state := by
  refine PlantAndCallsSame.staysInStep ?_ (handleAddPrefix_keepsTables ds d s)
  simp only [handleAddPrefix]
  repeat' split
  all_goals exact ⟨rfl, rfl⟩

theorem handleRemovePrefix_staysInStep (ds : List Nat) (s : State) : StaysInStep s (handleRemovePrefix ds s).state := by
  refine PlantAndCallsSame.staysInStep ?_ (handleRemovePrefix_keepsTables ds s)
  simp only [handleRemovePrefix]
  split <;> exact ⟨rfl, rfl⟩

theorem handleWriteDest_staysInStep (d p : Option Nat) (b i : Option Bool) (s : State) :
    StaysInStep s (handleWriteDest d p b i s).state := by
  refine PlantAndCallsSame.staysInStep ?_ (handleWriteDest_keepsTables d p b i s)
  simp only [handleWriteDest]
  repeat' split
  all_goals exact ⟨rfl, rfl⟩

theorem handleSetGap_staysInStep (d : Nat) (i l : Option Nat) (s : State) : StaysInStep s (handleSetGap d i l s).state := by
  refine PlantAndCallsSame.staysInStep ?_ (handleSetGap_keepsTables d i l s)
  simp only [handleSetGap]
  repeat' split
  all_goals exact ⟨rfl, rfl⟩

theorem clearGap_staysInStep (d : Nat) (s : State) : StaysInStep s (s.setGap d none) :=
  PlantAndCallsSame.staysInStep ⟨rfl, rfl⟩ (clearGap_keepsTables d s)

theorem handleClearGap_staysInStep (d : Nat) (s : State) : StaysInStep s (handleClearGap d s).state := by
  unfold handleClearGap
  split
  · exact StaysInStep.refl s
  · exact clearGap_staysInStep d s

theorem handleWritePlan_staysInStep (p : Nat) (args : List StepArg) (s : State) :
    StaysInStep s (handleWritePlan p args s).state := by
  refine PlantAndCallsSame.staysInStep ?_ (handleWritePlan_keepsTables p args s)
  simp only [handleWritePlan]
  repeat' split
  all_goals first
    | exact ⟨rfl, rfl⟩
    | rw [storePlan_eq_served]; exact ⟨rfl, rfl⟩

theorem handleReattemptLimit_staysInStep (l : Option Nat) (s : State) : StaysInStep s (handleReattemptLimit l s).state := by
  refine PlantAndCallsSame.staysInStep ?_ (handleReattemptLimit_keepsTables l s)
  unfold handleReattemptLimit
  split <;> exact ⟨rfl, rfl⟩

/-! ## Chapter 6: RELEASE, ADOPT, SET_ORPHAN_LIMIT -/

theorem handleRelease_staysInStep (p : Port) (r : CallRef) (cause : Arg Cause) (s : State) :
    StaysInStep s (handleRelease p r cause s).state := by
  simp only [handleRelease]
  repeat' split
  all_goals first
    | exact StaysInStep.refl s
    | exact endCall_staysInStep _ _ _ _ s

theorem handleAdopt_staysInStep (p : Port) (q : Arg Port) (s : State) : StaysInStep s (handleAdopt p q s).state := by
  simp only [handleAdopt]
  split
  · exact StaysInStep.refl s
  · exact StaysInStep.refl s
  · exact StaysInStep.foldl _ (adoptCall_staysInStep p) _ s

theorem handleOrphanLimit_staysInStep (l : Option Nat) (s : State) : StaysInStep s (handleOrphanLimit l s).state := by
  unfold handleOrphanLimit
  split
  · exact StaysInStep.refl s
  · next n =>
    exact (drawInAll_staysInStep (by rw [clamp_zero]; omega) s).trans (StaysInStep.foldl _ expireOrphan_staysInStep _ _)

/-! ## CLEAR_TRAFFIC (R26, R127) -/

/-- R127: with no OFFER in progress, no record and no busy circuit is left. -/
theorem clearTraffic_staysInStep {s : State} (noOffers : s.calls.offers = []) : StaysInStep s (clearTraffic s) := by
  refine .of (clearTraffic_plantKept s) (clearTraffic_keepsTables s) fun h => ?_
  obtain ⟨plantSame, -⟩ := recordsCleared_blocks s
  have table := recordsCleared_calls h.calls h.legs
  have same : (clearTraffic s).calls = (recordsCleared s).calls := (clearPlant_planted (recordsCleared s)).calls
  have offers : (clearTraffic s).calls.offers = [] := by
    rw [same, table]
    exact noOffers
  have free : ∀ r, (clearTraffic s).call r = none := fun r => by
    rw [State.call_of_calls same, State.call, recordsCleared_slot h.calls]
    split
    · simp
    · next unused => simp [Option.not_isSome_iff_eq_none.mp unused]
  have nobody : ∀ r x, ¬Holds (clearTraffic s) r x := by
    rintro r x (used | ⟨o, listed, -⟩)
    · rw [free] at used
      cases used
    · rw [offers] at listed
      cases listed
  have circuit : ∀ i, (clearTraffic s).circuit i = idleRecord ((recordsCleared s).circuit i) := fun i => by
    rw [clearTraffic_eq, clearPlant_eq, (takeReports_served _ _ _).circuit,
      idlePlant_circuit (PlantKept.of_plant plantSame h.plant)]
  have idle : ∀ i (o : Occupancy) n, HasLeg (clearTraffic s) i o n → o = .idle := by
    rintro i o n ⟨e, here, busy, -⟩
    rw [circuit] at here
    obtain ⟨x, -, rfl⟩ := Option.map_eq_some_iff.mp here
    exact busy.symm
  refine legsSound_of (fun r => ⟨fun i n => iff_of_false (fun has => ?_) fun ⟨x, hx, _⟩ => nobody r x hx,
    fun i n => iff_of_false (fun has => ?_) fun ⟨x, _, hx, _⟩ => nobody r x hx⟩)
    ⟨fun r x used => ?_, fun o listed => ?_⟩ ⟨?_, fun r => ?_⟩
  · cases idle i _ n has
  · cases idle i _ n has
  · rw [free] at used
    cases used
  · rw [offers] at listed
    cases listed
  · rw [same, table]
    exact List.nodup_nil
  · rw [same, table]
    simp [free]

/-- R127: CLEAR_TRAFFIC waits for every OFFER in progress. -/
theorem exec_clearTraffic_staysInStep {r : Sender} {s t : State} (h : exec (.clearTraffic r) s = .next t) :
    StaysInStep s t := by
  rw [exec_clearTraffic] at h
  rcases request_cases (.clearTraffic r) r RequestKind.clearTraffic.code handleClearTraffic s with ⟨u, taken, made⟩ | ⟨-, made⟩
  · obtain rfl := Host.Outcome.next.inj (made.symm.trans h)
    obtain ⟨-, -, waits, -⟩ := ready_cases (taken_cases taken).1
    have noOffers : u.calls.offers = [] := by
      rw [(taken_billed taken).calls]
      exact (mustWait_eq_false_iff _ s).mp waits rfl
    exact ((taken_billed taken).staysInStep.trans (clearTraffic_staysInStep noOffers)).trans (respond_staysInStep r _ (handleClearTraffic u))
  · obtain rfl := Host.Outcome.next.inj (made.symm.trans h)
    exact (arrive_billed _ _ s).staysInStep

/-! ## Every command -/

theorem deviceReset_inStep (s : State) : InStep (deviceReset s) where
  plant := reset_plantSound.of_plant rfl
  tables := deviceReset_tablesSound s
  legs := reset_legsSound.of_legs (SameLegs.of_plant (s := State.reset) (t := deviceReset s) rfl) rfl rfl rfl

theorem request_staysInStep {c : Instr} {r : Sender} {code : Nat} {f : State → Reply}
    (hf : ∀ u, StaysInStep u (f u).state) {s t : State} (h : request c r code f s = .next t) : StaysInStep s t :=
  request_keeps (StaysInStep s) (fun u v kept => kept.trans (StaysInStep.of_ports u v)) (fun u kept => kept.trans (hf u)) h
    (StaysInStep.refl s)

/-- An event that is not a request: a case with something to act on, or none. -/
theorem StaysInStep.ite {p : Prop} [Decidable p] {s a : State} (acts : p → StaysInStep s a) :
    StaysInStep s (if p then a else s) := by
  split
  · next h => exact acts h
  · exact StaysInStep.refl s

theorem execOffer_staysInStep (r : OfferStep) (c : Nat) (ds : List Nat) (cls : Arg CallClass) {s t : State}
    (h : execOffer r c ds cls s = .next t) : StaysInStep s t := by
  obtain ⟨p, part⟩ := r
  cases part with
  | whole => exact request_staysInStep (handleOffer_staysInStep p c ds cls) h
  | walk =>
    obtain rfl := Host.Outcome.next.inj h
    split
    · next u taken => exact (taken_billed taken).staysInStep.trans (beginOffer_staysInStep p c ds cls u)
    · exact (arrive_billed _ _ s).staysInStep
  | keep =>
    obtain rfl := Host.Outcome.next.inj h
    split
    · exact StaysInStep.refl s
    · next o found => exact finishOffer_staysInStep (List.mem_of_find?_eq_some found)

theorem exec_acting_staysInStep {c : Instr} {s t : State} (acts : actsOnBlocks c = true) (h : exec c s = .next t) :
    StaysInStep s t := by
  have next : ∀ {u : State}, StaysInStep s u → (Host.Outcome.next u : Answer) = .next t → StaysInStep s t :=
    fun kept e => Host.Outcome.next.inj e ▸ kept
  cases c
  case defineGroup r d => exact request_staysInStep (handleDefineGroup_staysInStep d) h
  case setGroupParams r n p => exact request_staysInStep (handleSetGroupParams_staysInStep n p) h
  case deleteGroup r n => exact request_staysInStep (handleDeleteGroup_staysInStep n) h
  case blockCircuits r i n k => exact request_staysInStep (handleFlags_staysInStep true i n k) h
  case unblockCircuits r i n k => exact request_staysInStep (handleFlags_staysInStep false i n k) h
  case lockPlant r => exact request_staysInStep (handleLock_staysInStep true) h
  case unlockPlant r => exact request_staysInStep (handleLock_staysInStep false) h
  case reportFarCongestion r n l => exact request_staysInStep (handleFarReport_staysInStep n l) h
  case drainGroup r n d => exact request_staysInStep (handleDrainGroup_staysInStep r.port n d) h
  case drainSuspend r => exact request_staysInStep handleDrainSuspend_staysInStep h
  case drainResume r => exact request_staysInStep handleDrainResume_staysInStep h
  case returnGroup r n => exact request_staysInStep (handleReturnGroup_staysInStep n) h
  case addPrefix r ds d => exact request_staysInStep (handleAddPrefix_staysInStep ds d) h
  case removePrefix r ds => exact request_staysInStep (handleRemovePrefix_staysInStep ds) h
  case writeDest r d p b i => exact request_staysInStep (handleWriteDest_staysInStep d p b i) h
  case setGap r d i l => exact request_staysInStep (handleSetGap_staysInStep d i l) h
  case clearGap r d => exact request_staysInStep (handleClearGap_staysInStep d) h
  case writePlan r p as => exact request_staysInStep (handleWritePlan_staysInStep p as) h
  case setReattemptLimit r l => exact request_staysInStep (handleReattemptLimit_staysInStep l) h
  case offer r c ds cls => exact execOffer_staysInStep r c ds cls h
  case accepted r c => exact request_staysInStep (handleAccepted_staysInStep r.port c) h
  case answer r c => exact request_staysInStep (handleAnswer_staysInStep r.port c) h
  case reattempt r c k l => exact request_staysInStep (handleReattempt_staysInStep r.port c k l) h
  case release r c k => exact request_staysInStep (handleRelease_staysInStep r.port c k) h
  case adopt r p => exact request_staysInStep (handleAdopt_staysInStep r.port p) h
  case clearTraffic r => exact exec_clearTraffic_staysInStep h
  case setOrphanLimit r l => exact request_staysInStep (handleOrphanLimit_staysInStep l) h
  case linkLoss p => exact next (StaysInStep.ite fun _ => portDown_staysInStep _ _ _ s) h
  case detachComplete p => exact next (StaysInStep.ite fun _ => portDown_staysInStep _ _ _ s) h
  case callTablePortLoss p =>
    refine next ?_ h
    split
    · exact StaysInStep.refl s
    · exact takePortLoss_staysInStep _ s
  case drainContributorLoss p => exact next (StaysInStep.ite fun _ => dropContributor_staysInStep p s) h
  case guardExpiry c => exact next (expireGuard_staysInStep c s) h
  case decayExpiry n => exact next (expireDecay_staysInStep n s) h
  case windowExpiry => exact next (StaysInStep.ite fun _ => closeWindow_staysInStep s) h
  case deadlineExpiry => exact next (StaysInStep.ite fun _ => passDeadline_staysInStep s) h
  case drainReleaseList =>
    refine next ?_ h
    split
    · exact StaysInStep.refl s
    · next gs rest _ =>
      exact StaysInStep.trans (t := { s with calls := { s.calls with releaseLists := rest } })
        (.of_plant rfl (TablesKept.of_calls (.of_same rfl rfl rfl rfl)).keeps rfl rfl rfl) (takeReleaseList_staysInStep _ _)
  case gapLifeExpiry d => exact next (StaysInStep.ite (a := s.setGap d none) fun _ => clearGap_staysInStep d s) h
  case orphanExpiry =>
    refine next ?_ h
    split
    · exact StaysInStep.refl s
    · exact StaysInStep.ite fun _ => expireOrphan_staysInStep s _
  case glareReselection c => exact next (StaysInStep.ite fun queued => reselectDisplaced_staysInStep queued) h
  case resetN =>
    refine next ?_ h
    split
    · exact fun _ => deviceReset_inStep s
    · exact .of_plant (t := { s with resetLine := true }) rfl (TablesKept.of_same rfl rfl rfl rfl rfl).keeps rfl rfl rfl
  case powerOn => exact next (fun _ => deviceReset_inStep s) h
  all_goals cases acts

theorem exec_staysInStep {c : Instr} {s t : State} (h : exec c s = .next t) : StaysInStep s t := by
  cases acts : actsOnBlocks c with
  | false => exact (exec_billed acts h).staysInStep
  | true => exact exec_acting_staysInStep acts h

/-- Settles O59: each command is quiet or made of operations that keep each table sound, and the ledger of busy circuits and
legs in step. -/
theorem tablesStaySound : Obligations.TablesStaySound := by
  intro c s t analyser routes memory calls h
  have tables : TablesSound s := ⟨analyser, routes, memory, calls⟩
  obtain ⟨analyserAfter, routesAfter, memoryAfter, callsAfter⟩ := exec_tablesSound h tables
  exact ⟨analyserAfter, routesAfter, memoryAfter, callsAfter, fun plant legs => (exec_staysInStep h ⟨plant, tables, legs⟩).legs⟩

end Sys2Proof.Machine
end
